-- ==== Sys2Proof/Word.lean ====
section
/-!
DEFINITION. The word types of the model: bytes, the hub number, sparse tables, and the key of a handle.
-/
namespace Sys2Proof

/-- One byte. -/
abbrev Byte := BitVec 8
/-- One of the four hubs H0 to H3 (R19). -/
abbrev Hub := Fin 4
/-- One of the eight stacks (R19). -/
abbrev Stack := Fin 8
/-- One of the 32 chip-to-chip links; link l belongs to hub l / 8 (Table 1-1). -/
abbrev LinkNo := Fin 32
/-- One of the thirteen recompute engines of a hub, E0 to E12 (Table 1-2). -/
abbrev EngNo := Fin 13

/-- A sparse table: pairs of a number and a value, the numbers strictly rising, and no value equal to
what an unlisted number reads as. -/
abbrev Tab (α : Type) := List (Nat × α)

/-- The name under which a handle entry is held: its context and object number (R38, R41). -/
structure HKey where
  ctx : Nat
  obj : Nat
deriving DecidableEq, Repr

end Sys2Proof
end

