-- ==== Sys2Proof/Syntax.lean ====
section
/-!
DEFINITION. The commands the block takes: one constructor for each row of spec/opcode_table.json, in its order,
with the row's operands, and the structures those operands carry.
-/
namespace Sys2Proof

/-- A descriptor as its ring carries it (Table 9-3). The command names the opcode, so `OPCODE` is not repeated;
`ops` holds bits [447:64] and `payload` the 192 payload bytes of the extended form (R312), byte 0 lowest. -/
structure Desc where
  ring : BitVec 16
  sseq : BitVec 32
  context : BitVec 12
  rsvd : BitVec 4
  prio : BitVec 4
  xres : Bool
  quiet : Bool
  order : Bool
  ext : Bool
  ops : BitVec 384
  resultAddr : BitVec 64
  payload : BitVec 1536
deriving DecidableEq, Repr

/-- How a fill or a stream layer ends, as the units that carried it report (R57, R166, Table 2-11). -/
inductive HopEnd where
  /-- Every block confirmed. -/
  | ok
  /-- A check value mismatch persisted on a hop (R523). -/
  | checkFailed
  /-- Part of the path is unreachable (R75, R157). -/
  | tierFault
  /-- The unit written froze (R74). -/
  | readOnly
deriving DecidableEq, Repr

/-- The confirmation of the blocks of a stripe in copy (R64 step 4, R65). -/
inductive Confirm where
  /-- Every block confirmed, at the first or at the second try. -/
  | good
  /-- A block failed its second confirmation. -/
  | failedTwice
deriving DecidableEq, Repr

/-- The core whose retirement stops a migration (R66). -/
inductive StopCore where
  /-- C3 of a hub that copies stripes. -/
  | c3
  /-- C1 of the entry hub. -/
  | c1
deriving DecidableEq, Repr

/-- A unit of a tier (R73): a Shade bank, an Umbra stack, or the Penumbra held on one peer, the peer named by the
lowest link of its bundle. -/
inductive TierUnit where
  | shade (hub : Hub) (bank : Fin 16)
  | umbra (stack : Stack)
  | penumbra (link : LinkNo)
deriving DecidableEq, Repr

/-- A control flit of the host port as it arrives (Table 9-19). `fcrcOk` and `dcrcOk` say whether FCRC and every
message's DCRC matched; the messages themselves are commands of their own. -/
structure HostFlit where
  seq : BitVec 16
  ack : BitVec 16
  nak : Bool
  slots : Nat
  dataFlits : Nat
  creditMsgs : Nat
  creditData : Nat
  fcrcOk : Bool
  dcrcOk : Bool
deriving DecidableEq, Repr

/-- A glint request at its port (Table 5-13). -/
structure GlintRequest where
  base : BitVec 64
  offset : BitVec 40
  len : BitVec 24
  tag : BitVec 8
deriving DecidableEq, Repr

/-- A counter an event line may be routed to, or an empty route (R460). -/
inductive Route where
  | empty
  | engine (e : EngNo) (ctr : Fin 32)
  | core (core : Fin 7) (ctr : Fin 32)
  | host (ctr : Fin 256)
deriving DecidableEq, Repr

/-- Who writes a channel's registers (R348, R381): host software through the register window, or core C3, which sets
the route of the channel's event line as it programs the channel (R460). -/
inductive MovWriter where
  | host
  | firmware (route : Route)
deriving DecidableEq, Repr

/-- An arbitrated unit of the movers (R366): a Shade bank, a stack controller, one direction of a hub bridge, a link,
one direction of a host port; `free` stands for a burst between units without an arbiter. -/
inductive MovPort where
  | bank (hub : Hub) (bank : Fin 16)
  | stack (s : Stack)
  | bridge (src dst : Hub)
  | link (l : LinkNo)
  | hostRead (hub : Hub)
  | hostWrite (hub : Hub)
  | free (hub : Hub) (ch : Fin 64)
deriving DecidableEq, Repr

/-- The bus error causes of Table 10-10. -/
inductive BusCause where
  | hostError | hostTimeout | unreachable | frozen | range | fenceTimeout
deriving DecidableEq, Repr

/-- A BARRIER message's ARG fields (Table 13-5), with the rank that sent it. -/
structure BarrierMsg where
  generation : BitVec 32
  lineDone : Bool
  group : Fin 16
  slot : Fin 8
  rank : Nat
deriving DecidableEq, Repr

/-- A coll message's header fields (Tables 11-2 and 12-7) and its data. -/
structure CollMsg where
  chk : BitVec 16
  group : Fin 16
  kind : BitVec 4
  reason : BitVec 8
  seq : BitVec 32
  addr : BitVec 48
  prio : BitVec 3
  poison : Bool
  data : List Byte
deriving DecidableEq, Repr

/-- A formation record (R421); round 2 uses `rank` and `minor` only. -/
structure FormRecord where
  rank : Nat
  key : BitVec 64
  digest : BitVec 64
  seedCheck : BitVec 64
  d1 : Nat
  d2 : Nat
  split : Nat
  major : Nat
  epoch : BitVec 32
  minor : Nat
deriving DecidableEq, Repr

/-- A seal record (R447), or a permute-done record, which uses `rank` alone (R454). -/
structure SealRecord where
  rank : Nat
  nf : Bool
  failed : Bool
  count : Nat
  digests : BitVec 64
deriving DecidableEq, Repr

/-- A frame of a link as its receiver finds it (Table 11-1, R392): the control flit's fields, the message headers it
carries, whether every codeword decoded, the one physical lane all marked codewords belong to, if there is one, the
codewords corrected and uncorrectable, and whether FCRC and the DCRCs ending here passed. The messages themselves are
commands of their own. -/
structure LinkFrame where
  seq : BitVec 16
  ack : BitVec 16
  nak : Bool
  laneSwap : Bool
  power : Bool
  laneBad : BitVec 3
  dataUsed : Nat
  credits : List (Nat × Nat)
  headers : List (BitVec 256)
  codewordsOk : Bool
  failingLane : Option (Fin 5)
  corrected : Nat
  uncorrectable : Nat
  fcrcOk : Bool
  dcrcOk : Bool
deriving DecidableEq, Repr

/-- A PN_RD or PN_WR as it arrives (Table 11-2); a PN_WR's `data` is one whole block. -/
structure PnMsg where
  addr : BitVec 48
  lenM1 : BitVec 12
  tag : BitVec 16
  prio : BitVec 3
  poison : Bool
  wseq : BitVec 32
  bcrc : BitVec 32
  data : List Byte
deriving DecidableEq, Repr

/-- A PN_RD_DATA or PN_WR_ACK as it arrives. -/
structure PnReply where
  tag : BitVec 16
  status : BitVec 4
  poison : Bool
  arg : BitVec 64
  bcrc : BitVec 32
  block : Bool
  data : List Byte
deriving DecidableEq, Repr

/-- What names a unit in records (Table 15-11): hub, UNIT_KIND, UNIT_INDEX and SUB_INDEX. -/
structure UnitName where
  hub : Nat
  kind : Nat
  index : Nat
  sub : Nat
deriving DecidableEq, Repr

/-- What a scrubbed 4 KiB unit holds (Table 15-6). -/
inductive ScrubHolds where
  | home (k : HKey) (block : Nat)
  | oldLocation (k : HKey) (block : Nat)
  | image (slot : Fin 256) (block : Nat)
  | pending (group : Fin 16) (k : HKey) (block : Nat)
  | free
  | reserve
  /-- A tag frame, with the home blocks whose tags it held. -/
  | tags (lost : List (HKey × Nat))
deriving DecidableEq, Repr

/-- What a scrub read finds (Table 15-6). -/
inductive ScrubFinding where
  | clean
  | correctable
  | deviceLocation (pseudoChannel : Fin 64) (lane : Fin 9)
  | uncorrectable
  | tagFail
deriving DecidableEq, Repr

/-- A slice's result (Table 16-2). -/
inductive SliceResult where
  | pass | fail | timeout | aborted
deriving DecidableEq, Repr

/-- What the counters, monitors and sensors of one hub read for a pace window (R572, R582, R590, R592, R596): per
clockless domain the silicon pace and the fraction of issue capacity admitted in units of 1/65536; the worst droop
and its window mean in mV; the 16 sensors and the two stacks' reported temperatures; each domain's power and demand in
1/8 W; and whether the governor throttled a domain. -/
structure HubSample where
  silicon : List (BitVec 16)
  admitted : List Nat
  droopMv : Nat
  meanMv : Nat
  temps : List (BitVec 8)
  stackTemps : List (BitVec 8)
  power : List Nat
  demand : List Nat
  throttled : Bool
  shortOfQuanta : Bool
deriving DecidableEq, Repr

/-- What a hub's sensors and monitors give for a telemetry snapshot (Tables 19-6 to 19-8): hottest reading, the 16
sensors, the supplies' mean and lowest mV, and per link lane the weighted symbol errors and the bits of the last
second (R652). -/
structure TelemSample where
  hottest : BitVec 8
  sensors : List (BitVec 8)
  supplies : List (BitVec 16 × BitVec 16)
  meanPower : BitVec 16
  poolReceived : BitVec 16
  poolLent : BitVec 16
  stackTemps : List (BitVec 8)
  laneErrors : List (Nat × Nat)
deriving DecidableEq, Repr

/-- The causes of a quench (R620, Table 18-12). -/
inductive QuenchCause where
  | pins | wiring | tbclk | thermal | supply | reset
deriving DecidableEq, Repr

/-- The path an access to a register takes (Table 20-1). -/
inductive RegPath where
  | i3c | mailbox
deriving DecidableEq, Repr

/-- What an external controller does on the JTAG chain (R692, R693): shifts the chain's 32-bit instruction register,
shifts bits through the selected data registers, or asserts JTAG_TRST_N. -/
inductive JtagOp where
  | ir (codes : BitVec 32)
  | dr (tdi : List Bool)
  | trst
deriving DecidableEq, Repr

/-- A command of the Aedvos: one constructor per row of the operation table. -/
inductive Instr where
  -- handles (chapters 02 and 09)
  | nop (d : Desc)
  | register (d : Desc)
  | free (d : Desc)
  | freeSet (d : Desc)
  | handleFreed (k : HKey)
  | offload (d : Desc)
  | readyBlockRead (k : HKey)
  | fillComplete (k : HKey) (result : HopEnd)
  | offloadFwd (d : Desc)
  | restore (d : Desc)
  | migrate (d : Desc)
  | stripeCommit (k : HKey) (stripe : Nat) (c : Confirm)
  | oldLocationRelease (k : HKey) (stripe : Nat)
  | migrationStopped (hub : Hub) (core : StopCore)
  | update (d : Desc)
  | queryHandle (d : Desc)
  -- plans and the deadline controller (chapter 03)
  | loadPlan (d : Desc)
  | stepBegin (d : Desc)
  | mark (d : Desc)
  | stepEnd (d : Desc)
  | stepEndComplete (ctx : Nat)
  | batchIssue (ctx batch : Nat)
  | batchComplete (ctx batch : Nat)
  | controllerEvaluate (ctx : Nat)
  -- weight streams (chapter 04)
  | streamArm (d : Desc)
  | streamFlush (d : Desc)
  | streamFetchStart (ctx stream : Nat)
  | streamFetchDone (ctx stream slot : Nat) (result : HopEnd)
  | streamDeliver (ctx stream : Nat)
  | streamDeliveryDone (ctx stream slot : Nat) (result : HopEnd)
  | slotRelease (ctx stream slot : Nat)
  -- collectives (chapter 12)
  | allReduce (d : Desc)
  | reduceScatter (d : Desc)
  | allGather (d : Desc)
  | permute (d : Desc)
  | reduceUpdate (d : Desc)
  | updateSeal (d : Desc)
  | sealDecide (group : Fin 16)
  | sealTimeout (group : Fin 16)
  | collData (l : LinkNo) (m : CollMsg)
  | collForm (l : LinkNo) (m : CollMsg) (r : FormRecord)
  | collSeal (l : LinkNo) (m : CollMsg) (r : SealRecord)
  | collAbort (l : LinkNo) (m : CollMsg)
  | formationTimeout (group : Fin 16)
  | groupBroken (group : Fin 16)
  -- checkpoints and snapshots (chapter 14)
  | checkpoint (d : Desc)
  | snapshotSend (d : Desc)
  | ckptRestore (d : Desc)
  | ckptDrop (d : Desc)
  | ckptList (d : Desc)
  | snapshotRead (d : Desc)
  | vaultCreate (l : LinkNo) (tag : Fin 16)
  | vaultSeal (l : LinkNo) (tag : Fin 16)
  | vaultDrop (l : LinkNo) (tag : Fin 16)
  | vaultList (l : LinkNo) (tag : Fin 16)
  | vaultStatus (l : LinkNo) (tag : Fin 16)
  | writingImageExpiry (slot : Fin 256)
  | ownImagePoll (hub : Hub)
  -- admin commands of chapter 09
  | contextCreate (d : Desc)
  | contextDestroy (d : Desc)
  | ringCreate (d : Desc)
  | ringDestroy (d : Desc)
  | getRingState (d : Desc)
  | ringAttach (d : Desc)
  | ringResume (d : Desc)
  | setQuota (d : Desc)
  | setExport (d : Desc)
  | setSeed (d : Desc)
  -- admin commands of chapters 11, 12, 14, 16, 18 and 19
  | groupCreate (d : Desc)
  | groupDestroy (d : Desc)
  | groupQuery (d : Desc)
  | ckptBind (d : Desc)
  | vaultQuery (d : Desc)
  | vaultRelease (d : Desc)
  | bistGrant (d : Desc)
  | bistResults (d : Desc)
  | bistFailView (d : Desc)
  | bistFieldNow (d : Desc)
  | evrRead (d : Desc)
  | evrCperRead (d : Desc)
  | evrNonce (d : Desc)
  | evrClear (d : Desc)
  | evrProvision (d : Desc)
  | telemRead (d : Desc)
  | shutdown (d : Desc)
  | imageLoad (d : Desc)
  | slotQuery (d : Desc)
  | slotActivate (d : Desc)
  | slotConfirm (d : Desc)
  | linkQuery (d : Desc)
  | linkSetCap (d : Desc)
  | linkDisable (d : Desc)
  | linkEnable (d : Desc)
  | linkRetrain (d : Desc)
  -- doorbells, fetching and the host port (chapter 09)
  | summaryPoll (hub : Hub)
  | watch (hub : Hub) (line : BitVec 7)
  | swapData (hub : Hub) (tag : BitVec 16)
  | descriptorFetch (ring : BitVec 16)
  | seqGap (ring : BitVec 16)
  | cqHeadReread (ring : BitVec 16)
  | hostFlitReceive (hub : Hub) (f : HostFlit)
  | hostPortResend (hub : Hub)
  | rdData (hub : Hub) (tag : BitVec 16) (error : Bool) (poison : BitVec 16)
  | wrErr (hub : Hub) (tag : BitVec 16)
  | fenceAck (hub : Hub) (number : BitVec 32)
  | fenceTimeout (hub : Hub) (number : BitVec 32)
  | hostPortTimeout (hub : Hub) (tag : BitVec 16)
  | hostModuleLeftOut (hub : Hub) (module : Fin 16)
  -- units of the tiers (chapter 04)
  | unitReduced (u : TierUnit)
  | unitFreeze (u : TierUnit)
  | drainStart (u : TierUnit)
  | unitEmptied (u : TierUnit)
  | unitOut (u : TierUnit)
  | unitReturn (u : TierUnit) (epochMatches testPassed : Bool)
  | penumbraResend (link : LinkNo) (tag : BitVec 16)
  | penumbraOut (link : LinkNo)
  -- codec lanes and glints (chapter 05)
  | laneJob (hub : Hub) (lane : Fin 18)
  | courseCompress (hub : Hub) (lane : Fin 18) (verifierFails : Nat)
  | blockExpand (hub : Hub) (lane : Fin 18) (firstTryOk secondTryOk : Bool)
  | laneRetired (hub : Hub) (lane : Fin 18)
  | glintRequest (g : Fin 256) (r : GlintRequest)
  | glintMemData (g : Fin 256) (memErr : Bool)
  | glintReset (g : Fin 256)
  -- waves, tiles and engines (chapter 07)
  | waveStart (hub : Hub)
  | tileEnd (hub : Hub) (e : EngNo)
  | duplicateCompare (run tile : Nat)
  | engineRetired (hub : Hub) (e : EngNo)
  | chainSplice (hub : Hub) (e : EngNo)
  | recipeStall (hub : Hub) (e : EngNo)
  | waitReevaluate (hub : Hub) (e : EngNo)
  -- the 43 recipe ops (Table 7-7): hub, engine and the op record
  | opConfig (hub : Hub) (e : EngNo) (op : BitVec 256)
  | opLoop (hub : Hub) (e : EngNo) (op : BitVec 256)
  | opWait (hub : Hub) (e : EngNo) (op : BitVec 256)
  | opSignal (hub : Hub) (e : EngNo) (op : BitVec 256)
  | opLoad (hub : Hub) (e : EngNo) (op : BitVec 256)
  | opStore (hub : Hub) (e : EngNo) (op : BitVec 256)
  | opLdls (hub : Hub) (e : EngNo) (op : BitVec 256)
  | opStls (hub : Hub) (e : EngNo) (op : BitVec 256)
  | opLdrows (hub : Hub) (e : EngNo) (op : BitVec 256)
  | opStacc (hub : Hub) (e : EngNo) (op : BitVec 256)
  | opAdd (hub : Hub) (e : EngNo) (op : BitVec 256)
  | opSub (hub : Hub) (e : EngNo) (op : BitVec 256)
  | opMul (hub : Hub) (e : EngNo) (op : BitVec 256)
  | opFma (hub : Hub) (e : EngNo) (op : BitVec 256)
  | opMax (hub : Hub) (e : EngNo) (op : BitVec 256)
  | opMin (hub : Hub) (e : EngNo) (op : BitVec 256)
  | opAdds (hub : Hub) (e : EngNo) (op : BitVec 256)
  | opMuls (hub : Hub) (e : EngNo) (op : BitVec 256)
  | opRelu (hub : Hub) (e : EngNo) (op : BitVec 256)
  | opLrelu (hub : Hub) (e : EngNo) (op : BitVec 256)
  | opGelu (hub : Hub) (e : EngNo) (op : BitVec 256)
  | opSigmoid (hub : Hub) (e : EngNo) (op : BitVec 256)
  | opTanh (hub : Hub) (e : EngNo) (op : BitVec 256)
  | opSilu (hub : Hub) (e : EngNo) (op : BitVec 256)
  | opLnorm (hub : Hub) (e : EngNo) (op : BitVec 256)
  | opRmsnorm (hub : Hub) (e : EngNo) (op : BitVec 256)
  | opRsum (hub : Hub) (e : EngNo) (op : BitVec 256)
  | opRsumsq (hub : Hub) (e : EngNo) (op : BitVec 256)
  | opAcczero (hub : Hub) (e : EngNo) (op : BitVec 256)
  | opAccrd (hub : Hub) (e : EngNo) (op : BitVec 256)
  | opPool (hub : Hub) (e : EngNo) (op : BitVec 256)
  | opCat (hub : Hub) (e : EngNo) (op : BitVec 256)
  | opTransp (hub : Hub) (e : EngNo) (op : BitVec 256)
  | opMm (hub : Hub) (e : EngNo) (op : BitVec 256)
  | opMmout (hub : Hub) (e : EngNo) (op : BitVec 256)
  | opMaskgen (hub : Hub) (e : EngNo) (op : BitVec 256)
  | opMaskapply (hub : Hub) (e : EngNo) (op : BitVec 256)
  | opDropout (hub : Hub) (e : EngNo) (op : BitVec 256)
  | opRelumask (hub : Hub) (e : EngNo) (op : BitVec 256)
  | opQuant (hub : Hub) (e : EngNo) (op : BitVec 256)
  | opDequant (hub : Hub) (e : EngNo) (op : BitVec 256)
  | opCvt (hub : Hub) (e : EngNo) (op : BitVec 256)
  | opDigest (hub : Hub) (e : EngNo) (op : BitVec 256)
  -- mover channels (chapter 10); `bits` are the other MOV_CMD bits of the same write
  | movLoad (hub : Hub) (ch : Fin 64) (bits : BitVec 3) (by_ : MovWriter)
  | movAbort (hub : Hub) (ch : Fin 64) (bits : BitVec 3) (by_ : MovWriter)
  | movResume (hub : Hub) (ch : Fin 64) (bits : BitVec 3) (by_ : MovWriter)
  | movPrioWrite (hub : Hub) (ch : Fin 64) (value : BitVec 32) (by_ : MovWriter)
  | burstGrant (port : MovPort) (checkFails : Bool)
  | transferComplete (hub : Hub) (ch : Fin 64) (confirmFails : Bool)
  | busError (hub : Hub) (ch : Fin 64) (cause : BusCause) (write : Bool)
  | channelRetired (hub : Hub) (ch : Fin 64)
  | movDirectReq (hub : Hub) (value : BitVec 32)
  | directGrant (hub : Hub)
  -- chip-to-chip links (chapter 11)
  | linkFrameReceive (l : LinkNo) (f : LinkFrame)
  | linkResend (l : LinkNo)
  | linkRetrainDone (l : LinkNo) (ok : Bool)
  | laneBad (l : LinkNo) (lane : Fin 5) (lostLock : Bool)
  | laneCtrl (l : LinkNo) (arg : BitVec 64)
  | spareLaneTrained (l : LinkNo)
  | linkTrained (l : LinkNo) (lanes : BitVec 5)
  | trainingRetry (l : LinkNo)
  | hello (l : LinkNo) (data : BitVec 512)
  | grant (l : LinkNo) (arg : BitVec 64)
  | pnRd (l : LinkNo) (m : PnMsg)
  | pnWr (l : LinkNo) (m : PnMsg)
  | pnRdData (l : LinkNo) (m : PnReply)
  | pnWrAck (l : LinkNo) (m : PnReply)
  | remoteSignal (l : LinkNo) (addr : BitVec 48) (arg : BitVec 64) (marks : List (BitVec 64))
  | signalResend (number : BitVec 32)
  | signalTimeout (number : BitVec 32)
  | barrier (m : BarrierMsg)
  | linkL1Entry (l : LinkNo)
  | linkL1Wake (l : LinkNo)
  -- synchronization (chapter 13)
  | eventPulse (hub : Hub) (line : BitVec 8)
  | mirrorWrite (hub : Hub) (ctr : Fin 256)
  | postPoll (hub : Hub)
  | wakeIn (hub : Hub)
  | longWait (domain : Fin 40)
  | barrierArrive (hub : Hub) (slot : Fin 8)
  | beaconComplete (slot : Fin 8)
  | beaconHoldEnd (hub : Hub) (slot : Fin 8)
  | barrierComplete (slot : Fin 8)
  | barrierTimeout (slot : Fin 8)
  | synBarCfgWrite (slot : Fin 8) (second : Bool) (value : BitVec 32)
  | synCtrCfgWrite (hub : Hub) (value : BitVec 32)
  | synCtrValWrite (hub : Hub) (value : BitVec 32)
  | lockAcquire (hub : Hub) (lock : Fin 64) (requester : BitVec 8)
  | lockRelease (hub : Hub) (lock : Fin 64) (requester : BitVec 8)
  | lockAbandon (hub : Hub) (lock : Fin 64)
  -- errors, spares and self-test (chapters 15 and 16)
  | scrubPass (hub : Hub) (unit : UnitName) (holds : ScrubHolds) (f : ScrubFinding)
  | targetedTest (unit : UnitName) (cls : Fin 12)
  | testDecision (unit : UnitName) (passed : Bool)
  | rowRetire (hub : Hub) (bank : Fin 16) (row : Fin 2048)
  | sliceReplace (hub : Hub) (bank : Fin 16) (slice : Fin 16)
  | pageRetire (k : Stack) (frame : Fin 32768)
  | shutdownTest (hub : Hub)
  | sliceStart (hub : Hub) (row : Fin 10) (unit : Fin 128)
  | sliceEnd (hub : Hub) (row : Fin 10) (unit : Fin 128) (r : SliceResult) (fails : List (BitVec 128))
  | sliceTimeout (hub : Hub) (row : Fin 10) (unit : Fin 128)
  | bistStart
  | fieldTestDue (unit : UnitName)
  | fieldTestStart (unit : UnitName)
  | deferTimeout (unit : UnitName)
  | fieldTestEnd (unit : UnitName) (passed : Bool)
  -- timing and power (chapter 17)
  | paceWindowEnd (samples : List HubSample)
  | pwrModeWrite (value : BitVec 32)
  | pwrCapWrite (value : BitVec 32)
  | budgetWithdraw (hub : Hub) (domain : Fin 10)
  | retainEntry (hub : Hub) (domain : Fin 10)
  | wakeRequest (hub : Hub) (domain : Fin 10)
  | rampDone (hub : Hub) (stackRail : Bool)
  | domainOn (hub : Hub) (domain : Fin 10)
  | calibrationRecheck (unit : BitVec 16) (drift : Bool)
  | driftCheck (unit : BitVec 16) (drift : Bool)
  | tbclkLoss
  | pllLockTimeout (hub : Hub)
  | align (positions : List (BitVec 2)) (latched : List Nat)
  -- start-up, shut-down and signals (chapter 18)
  | start (pgood : Bool) (rstN : Bool)
  | ringLevel
  | umbraReady (out : BitVec 8)
  | linksReady
  | patchBankSwitch (hub : Hub) (core : Fin 7)
  | rstNAssert
  | pgoodFall
  | shdnReq
  | graceExpiry
  | drainExpiry
  | offReady
  | quenchChannel (channelB : Bool) (high : Bool)
  | discrepancyExpiry
  | quench (cause : QuenchCause)
  | quenchClear
  | mfSelectWrite (second : Bool) (value : BitVec 32)
  | mfReleaseEnd (pin : Fin 12)
  -- the recorder, the history store, telemetry and register access (chapters 19 to 21)
  | eventRecord (hub : Hub)
  | journalWrite
  | journalCompact
  | journalReadAtStart (readable : Bool)
  | storeFault
  | telemetrySnapshot (hub : Hub) (sample : TelemSample)
  | evrReadSlotWrite (hub : Hub) (value : BitVec 32)
  | hubAdminAttach (value : BitVec 32)
  | adminAttachDone
  | mailboxPoll (hub : Hub)
  | i3cPrivateWrite (hub : Hub) (bytes : List Byte)
  | i3cPrivateRead (hub : Hub) (count : Fin 33)
  | registerWrite (hub : Hub) (path : RegPath) (offset : BitVec 16) (value : BitVec 32)
  | recalibrationDone (k : Stack)
  | hostPortRetrained (hub : Hub) (module : Option (Fin 16))
  | clearReady
  | nonceLockoutEnd
  | retentionMonitor (k : Stack)
  | i3cBusReset (hub : Hub)
  | jtagTap (op : JtagOp)
deriving DecidableEq, Repr

end Sys2Proof
end

