-- ==== Sys2Proof/Decode.lean ====
section
/-!
DEFINITION. Commands from words. No row of spec/opcode_table.json gives bits, so no word spells a command: commands
reach the block as bus, register and pin operations with their operands.
-/
namespace Sys2Proof

/-- The command a word spells by the table's bits: none, since no row of the table has bits. -/
def decodeTableWord (nbits w : Nat) : Option Instr :=
  match nbits, w with
  | _, _ => none

end Sys2Proof
end

