-- ==== Sys2Proof/Config.lean ====
section
/-!
DEFINITION. What an integration fixes and what the manual leaves open. Every constant here is opaque: it has no
body, so no proof can rest on a value of it.
-/
namespace Sys2Proof.Config

/-- The k-th fresh free value of `w` bits; a step that needs one reads and advances `State.freeCount`
(assumption 2). -/
opaque freeValue : (w : Nat) → Nat → BitVec w

/-- The admin ring base of the integration tie-offs, a multiple of 4 KiB given as its 4 KiB page (R303). -/
opaque adminBasePage : BitVec 45

/-- The WATCH_PRESENT tie-off (R307). -/
opaque watchPresent : Bool

/-- The WATCH / boot tie-off BIST_RUN (Table 16-2). -/
opaque bistRunInit : BitVec 32

/-- One less than the fused package identifier: it is never 0 (R668). -/
opaque packageIdLess1 : Fin 18446744073709551615

/-- The fused package identifier of this Aedvos, read as PKG_ID (Table 20-3, R668). -/
def packageId : BitVec 64 := BitVec.ofNat 64 (packageIdLess1.val + 1)

/-- The package epoch the history store gives this start (R510). -/
opaque epochAtStart : BitVec 32

/-- How many host-port modules the package wires at each hub, at most 16 (Table 18-3). -/
opaque hportModules : Fin 4 → BitVec 16

/-- The I3C static address base of the tie-offs (Table 18-3). -/
opaque i3cStaticBase : BitVec 7

/-- The result of a transcendental op whose bounds do not settle the rounding: op code, source value, format and
draw fix it (assumption 5). -/
opaque transcendental : Nat → Nat → Nat → Nat → Nat

/-- The ticks a stage of a projection takes where the manual states no rate for it: work of higher priority takes what it
asks, which no rule gives a number, a narrowed stripe's content size is not kept, or no pace window has ended. Arguments:
the free counter, batch and stage (assumption 15). -/
opaque unstatedTime : Nat → Nat → Nat → Nat

/-- SHA-384 over bytes, given as bytes (R628). -/
opaque sha384 : List Byte → BitVec 384

/-- Verification of an ECDSA P-384 signature: public key, message, signature (R628). -/
opaque ecdsaVerify : List Byte → List Byte → List Byte → Bool

/-- The mask-ROM key entry KEY_ID (R628). -/
opaque romKey : Nat → BitVec 384

/-- The first 32 bytes of HMAC-SHA-384 of a message under a key (R643). -/
opaque hmacSha384 : BitVec 256 → List Byte → BitVec 256

/-- The PACK_ID, the unit kinds served (a bit per kind), and whether a pattern pack's payload meets its format, which
the manual does not lay out (R544, R628). -/
opaque packId : List Byte → BitVec 16
opaque packKinds : List Byte → BitVec 32
opaque packFormatOk : List Byte → Bool

/-- The check of a group seed that a formation record carries, whose form the manual does not state (R421). -/
opaque seedCheck : BitVec 64 → BitVec 64 → BitVec 64

/-- The HUB_TIE0.SPI_QUAD tie-off (Table 18-2). -/
opaque spiQuad : Bool

end Sys2Proof.Config
end

