-- ==== Sys2Proof/Machine/Tab.lean ====
section
/-!
DEFINITION. Operations on sparse tables in canonical form (numbers strictly rising, no default listed),
and bit-field and byte-order helpers (R11, R12).
-/
namespace Sys2Proof.Machine

/-- The value at `k`; `d` where nothing is listed. -/
def tabGet {α : Type} (d : α) : Tab α → Nat → α
  | [], _ => d
  | (k', v) :: t, k => if k' = k then v else tabGet d t k

/-- Remove the entry at `k`. -/
def tabDel {α : Type} : Tab α → Nat → Tab α
  | [], _ => []
  | (k', v) :: t, k => if k' = k then t else (k', v) :: tabDel t k

/-- Insert `v` at `k`, in order, replacing what is listed there. -/
def tabIns {α : Type} : Tab α → Nat → α → Tab α
  | [], k, v => [(k, v)]
  | (k', v') :: t, k, v =>
    if k < k' then (k, v) :: (k', v') :: t
    else if k' = k then (k, v) :: t
    else (k', v') :: tabIns t k v

/-- Write `v` at `k`: writing the default removes the entry, so equal tables are equal lists. -/
def tabPut {α : Type} [DecidableEq α] (d : α) (t : Tab α) (k : Nat) (v : α) : Tab α :=
  if v = d then tabDel t k else tabIns t k v

/-- The entries with numbers in `[lo, lo + len)`, renumbered from 0. -/
def tabSlice {α : Type} (t : Tab α) (lo len : Nat) : Tab α :=
  (t.filter (fun e => lo ≤ e.1 && e.1 < lo + len)).map (fun e => (e.1 - lo, e.2))

/-- `t` with everything in `[lo, lo + len)` replaced by `src`, whose numbers count from `lo`. -/
def tabPaste {α : Type} (t : Tab α) (lo len : Nat) (src : Tab α) : Tab α :=
  t.filter (fun e => e.1 < lo) ++ (src.filter (fun e => e.1 < len)).map (fun e => (e.1 + lo, e.2))
    ++ t.filter (fun e => lo + len ≤ e.1)

/-- The canonical form: numbers strictly rising from `lo` on, no value equal to the default. -/
def tabWfFrom {α : Type} [DecidableEq α] (d : α) : Nat → Tab α → Bool
  | _, [] => true
  | lo, (k, v) :: t => decide (lo ≤ k) && decide (v ≠ d) && tabWfFrom d (k + 1) t

/-- The canonical form of a whole table. -/
def tabWf {α : Type} [DecidableEq α] (d : α) (t : Tab α) : Bool := tabWfFrom d 0 t

/-! ### Bits and bytes -/

/-- The unsigned value of bits `[hi:lo]` of a number (R11). -/
def bitsOf (w hi lo : Nat) : Nat := (w >>> lo) % 2 ^ (hi + 1 - lo)

/-- Bit `i` of a number. -/
def bitOf (w i : Nat) : Bool := (w >>> i) % 2 = 1

/-- `n` bytes of a number, least significant first (R11). -/
def leBytes : Nat → Nat → List Byte
  | 0, _ => []
  | n + 1, w => BitVec.ofNat 8 w :: leBytes n (w / 256)

/-- The number a little-endian list of bytes spells (R11). -/
def leValue : List Byte → Nat
  | [] => 0
  | b :: bs => b.toNat + 256 * leValue bs

/-- `n` rounded up to a multiple of `g`. -/
def roundUp (n g : Nat) : Nat := (n + g - 1) / g * g

/-- The numbers below `n` whose bit is set in a mask, ascending (R129). -/
def maskList (n m : Nat) : List Nat := (List.range n).filter (fun i => bitOf m i)

/-- Replace the elements of a list that a test picks. -/
def updWhere {α : Type} (p : α → Bool) (f : α → α) (l : List α) : List α :=
  l.map (fun x => if p x then f x else x)

/-- Replace element `i` of a list. -/
def updAt {α : Type} (l : List α) (i : Nat) (f : α → α) : List α := l.modify i f

/-- A signed number of `n` bits from its unsigned value. -/
def toSigned (n w : Nat) : Int := if w < 2 ^ (n - 1) then (w : Int) else (w : Int) - (2 ^ n : Nat)

/-- The low `n` bits of a signed number. -/
def ofSigned (n : Nat) (i : Int) : Nat := (i % (2 ^ n : Nat)).toNat

end Sys2Proof.Machine
end

