-- ==== Sys2Proof/Machine/Numerics.lean ====
section
/-!
DEFINITION. The arithmetic of chapter 08: element formats, exact values, rounding to nearest even and stochastic
rounding, the counter-based generator, digests and CRC-32C. Every result is formed exactly and rounded once.
-/
namespace Sys2Proof.Machine

/-! ### The generator and the digest (R283, R286, R295) -/

/-- `mix64` (R283). -/
def mix64 (z : BitVec 64) : BitVec 64 :=
  let z1 := (z ^^^ (z >>> 30)) * 0xBF58476D1CE4E5B9#64
  let z2 := (z1 ^^^ (z1 >>> 27)) * 0x94D049BB133111EB#64
  z2 ^^^ (z2 >>> 31)

/-- `draw64` (R283). -/
def draw64 (k0 k1 : BitVec 64) (purpose : BitVec 16) (counter : BitVec 64) : BitVec 64 :=
  let z1 := mix64 (counter ^^^ k0)
  let z2 := mix64 (z1 ^^^ k1 ^^^ ((purpose.setWidth 64) <<< 48))
  mix64 (z2 + k0)

/-- `draw16`: bits [63:48] of `draw64` (R283). -/
def draw16 (k0 k1 : BitVec 64) (purpose : BitVec 16) (counter : BitVec 64) : Nat :=
  (draw64 k0 k1 purpose counter).toNat >>> 48

/-- The run key of an object number under a job seed (R286). -/
def runKey (seedLo seedHi : BitVec 64) (obj : Nat) : BitVec 64 × BitVec 64 :=
  let o := BitVec.ofNat 64 obj
  (mix64 (seedLo ^^^ mix64 o), mix64 (seedHi ^^^ mix64 (o ^^^ 0x8000000000000000#64)))

/-- The contribution of the word at word index `w` with value `v` (R295). -/
def contribution (w : Nat) (v : BitVec 64) : BitVec 64 :=
  mix64 (mix64 (BitVec.ofNat 64 w ^^^ 0xD6E8FEB86659FD93#64) + v)

/-- The little-endian 8-byte word at word index `w` of an object's bytes (R295). -/
def wordAt (c : Tab Byte) (w : Nat) : BitVec 64 :=
  BitVec.ofNat 64 (leValue ((List.range 8).map (fun i => tabGet 0#8 c (8 * w + i))))

/-- The digest over words `w0` to `w0 + n - 1` (R295, R296); `c` holds 0 outside the covered bytes. -/
def digestWords (c : Tab Byte) (w0 : Nat) : Nat → BitVec 64
  | 0 => 0
  | n + 1 => contribution w0 (wordAt c w0) + digestWords c (w0 + 1) n

/-- The digest of the bytes `[off, off + len)` of an object, `w` counted from the start of the object (R296). -/
def digestRange (c : Tab Byte) (off len : Nat) : BitVec 64 :=
  if len = 0 then 0
  else digestWords (c.filter (fun e => off ≤ e.1 && e.1 < off + len)) (off / 8) ((off + len - 1) / 8 + 1 - off / 8)

/-- The tensor digest: every word of the object, the zero padding of a partial last block included (R296). -/
def tensorDigest (c : Tab Byte) (size : Nat) : BitVec 64 := digestRange c 0 (roundUp size 4096)

/-! ### CRC-32C (chapter 05, Check values and poison) -/

/-- One bit step of the reflected CRC-32C register. -/
def crcBit (c : BitVec 32) : BitVec 32 :=
  if c.getLsbD 0 then (c >>> 1) ^^^ 0x82F63B78#32 else c >>> 1

/-- One byte step. -/
def crcByte (c : BitVec 32) (b : Byte) : BitVec 32 :=
  crcBit (crcBit (crcBit (crcBit (crcBit (crcBit (crcBit (crcBit (c ^^^ b.setWidth 32))))))))

/-- CRC-32C: reflected form 0x82F63B78, initial value and final XOR all ones. -/
def crc32c (bs : List Byte) : BitVec 32 := (bs.foldl crcByte 0xFFFFFFFF#32) ^^^ 0xFFFFFFFF#32

/-! ### Exact values -/

/-- The value of an element: NaN, a signed infinity, or ± m × 2^e with its sign (a zero keeps its sign). -/
inductive Val where
  | nan
  | inf (neg : Bool)
  | fin (neg : Bool) (m : Nat) (e : Int)
deriving DecidableEq, Repr

/-- An exact magnitude: m × 2^e when `sticky` is false, and strictly between m × 2^e and (m + 1) × 2^e when true. -/
structure Exact where
  neg : Bool
  m : Nat
  e : Int
  sticky : Bool
deriving DecidableEq, Repr

/-- A rounded result: the encoding and the flags it raises (R246). -/
structure Rounded where
  bits : Nat
  ovf : Bool
  ufz : Bool
  nf : Bool
deriving DecidableEq, Repr

/-- A floating-point element format: exponent and fraction bits, bias, whether an all-ones exponent is non-finite,
whether E4M3's single NaN encoding applies, and whether out-of-range values saturate (Tables 8-1 and 8-4). -/
structure FloatFmt where
  eb : Nat
  mb : Nat
  bias : Nat
  ieee : Bool
  e4m3 : Bool
  saturate : Bool
  nan : Nat
deriving DecidableEq, Repr

def fmtFP32 : FloatFmt := ⟨8, 23, 127, true, false, false, 0x7FC00000⟩
def fmtBF16 : FloatFmt := ⟨8, 7, 127, true, false, false, 0x7FC0⟩
def fmtFP16 : FloatFmt := ⟨5, 10, 15, true, false, false, 0x7E00⟩
def fmtE4M3 : FloatFmt := ⟨4, 3, 7, false, true, true, 0x7F⟩
def fmtE5M2 : FloatFmt := ⟨5, 2, 15, true, false, true, 0x7E⟩
/-- OCP E2M1: the values 0, 0.5, 1, 1.5, 2, 3, 4 and 6 with a sign. -/
def fmtE2M1 : FloatFmt := ⟨2, 1, 1, false, false, true, 0⟩

/-- The value an encoding stands for (Table 8-1). -/
def decodeFloat (f : FloatFmt) (w : Nat) : Val :=
  let neg := bitOf w (f.eb + f.mb)
  let ex := (w >>> f.mb) % 2 ^ f.eb
  let man := w % 2 ^ f.mb
  if f.ieee && ex == 2 ^ f.eb - 1 then (if man = 0 then .inf neg else .nan)
  else if f.e4m3 && ex == 2 ^ f.eb - 1 && man == 2 ^ f.mb - 1 then .nan
  else if ex = 0 then .fin neg man (1 - (f.bias : Int) - f.mb)
  else .fin neg (2 ^ f.mb + man) ((ex : Int) - f.bias - f.mb)

/-- The largest finite magnitude as an encoding without sign (Table 8-1). -/
def maxFinite (f : FloatFmt) : Nat :=
  if f.ieee then (2 ^ f.eb - 1) * 2 ^ f.mb - 1
  else if f.e4m3 then 2 ^ (f.eb + f.mb) - 2
  else 2 ^ (f.eb + f.mb) - 1

/-- The encoding of n × 2^q as magnitude bits, with n below 2^(mb+1) or equal to it after a carry; encodings beyond
the largest finite magnitude come out larger than `maxFinite`. -/
def packMagnitude (f : FloatFmt) (n : Nat) (q : Int) : Nat :=
  let ex := (q + f.mb + f.bias - 1).toNat
  ex * 2 ^ f.mb + n

/-- The lowest exponent a value of a format is a multiple of two to, given the floor of the value's log2. -/
def quantum (f : FloatFmt) (top : Int) : Int := max top (1 - (f.bias : Int)) - f.mb

/-- Sign bit of a format. -/
def signBit (f : FloatFmt) (neg : Bool) : Nat := if neg then 2 ^ (f.eb + f.mb) else 0

/-- The encoding of an infinity in a format (Table 8-4). -/
def infBits (f : FloatFmt) (neg : Bool) : Nat :=
  if f.ieee then signBit f neg + (2 ^ f.eb - 1) * 2 ^ f.mb else f.nan

/-- Round an exact value once: to nearest even when `draw` is none (R280), stochastically under a 16-bit draw
otherwise (R281), with the range rules of R277 and Table 8-4. -/
def roundExact (f : FloatFmt) (x : Exact) (draw : Option Nat) : Rounded :=
  if x.m = 0 && !x.sticky then ⟨signBit f x.neg, false, false, false⟩
  else
    let top : Int := if x.m = 0 then x.e - 1 else (Nat.log2 x.m : Int) + x.e
    let q := quantum f top
    let d := (q - x.e).toNat
    let n := if x.e ≥ q then x.m <<< (x.e - q).toNat else x.m >>> d
    let rem := if x.e ≥ q then 0 else x.m % 2 ^ d
    let exact := rem = 0 && !x.sticky
    let up : Bool := match draw with
      | none =>
        if x.e ≥ q then false
        else decide (2 * rem > 2 ^ d) || (decide (2 * rem = 2 ^ d) && (x.sticky || n % 2 == 1))
      | some r => !exact && decide (r + (if x.e ≥ q then 0 else rem * 65536 / 2 ^ d) ≥ 65536)
    let mag := packMagnitude f (if up then n + 1 else n) q
    let lowMag := packMagnitude f n q
    let beyond := match draw with
      | none => decide (mag > maxFinite f)
      | some _ =>
        if f.saturate then decide (lowMag > maxFinite f) || (decide (lowMag = maxFinite f) && !exact)
        else decide (mag > maxFinite f)
    if beyond then
      if f.saturate then ⟨signBit f x.neg + maxFinite f, true, false, false⟩
      else ⟨infBits f x.neg, true, false, true⟩
    else ⟨signBit f x.neg + mag, false, decide (mag = 0), false⟩

/-- Round a value, non-finite ones included (Table 8-4). -/
def roundVal (f : FloatFmt) (v : Val) (draw : Option Nat) : Rounded :=
  match v with
  | .nan => ⟨f.nan, false, false, true⟩
  | .inf neg => if f.ieee then ⟨infBits f neg, false, false, true⟩ else ⟨f.nan, false, false, true⟩
  | .fin neg m e => roundExact f ⟨neg, m, e, false⟩ draw

/-! ### Exact operations -/

/-- A finite value as a signed multiple of 2^e. -/
def signedAt (neg : Bool) (m : Nat) (e e0 : Int) : Int :=
  (if neg then -(m : Int) else (m : Int)) * (2 ^ (e - e0).toNat : Nat)

/-- Exact sum; a zero sum is +0 (R245). -/
def vAdd : Val → Val → Val
  | .nan, _ => .nan
  | _, .nan => .nan
  | .inf a, .inf b => if a = b then .inf a else .nan
  | .inf a, _ => .inf a
  | _, .inf b => .inf b
  | .fin n1 m1 e1, .fin n2 m2 e2 =>
    let e0 := min e1 e2
    let t := signedAt n1 m1 e1 e0 + signedAt n2 m2 e2 e0
    .fin (decide (t < 0)) t.natAbs e0

/-- Negation. -/
def vNeg : Val → Val
  | .nan => .nan
  | .inf a => .inf (!a)
  | .fin n m e => .fin (!n) m e

/-- Exact product, with the sign of a product. -/
def vMul : Val → Val → Val
  | .nan, _ => .nan
  | _, .nan => .nan
  | .inf a, .inf b => .inf (xor a b)
  | .inf a, .fin n m _ => if m = 0 then .nan else .inf (xor a n)
  | .fin n m _, .inf b => if m = 0 then .nan else .inf (xor n b)
  | .fin n1 m1 e1, .fin n2 m2 e2 => .fin (xor n1 n2) (m1 * m2) (e1 + e2)

/-- Scale by a power of two. -/
def vScale (k : Int) : Val → Val
  | .fin n m e => .fin n m (e + k)
  | v => v

/-- `a < b`, with −0 ordered below +0 (R245); false on a NaN. -/
def vLt : Val → Val → Bool
  | .nan, _ => false
  | _, .nan => false
  | .inf a, .inf b => a && !b
  | .inf a, .fin .. => a
  | .fin .., .inf b => !b
  | .fin n1 m1 e1, .fin n2 m2 e2 =>
    let e0 := min e1 e2
    let a := signedAt n1 m1 e1 e0
    let b := signedAt n2 m2 e2 e0
    decide (a < b) || (decide (a = b) && m1 == 0 && n1 && !n2)

/-- Whether a value is greater than zero. -/
def vPos : Val → Bool
  | .inf n => !n
  | .fin n m _ => !n && m != 0
  | .nan => false

def vIsNan : Val → Bool
  | .nan => true
  | _ => false

def vFinite : Val → Bool
  | .fin .. => true
  | _ => false

def vIsZero : Val → Bool
  | .fin _ m _ => m == 0
  | _ => false

def vZero : Val := .fin false 0 0

/-- Round to FP32 to nearest even, as a value (RN32). -/
def rn32 (v : Val) : Val := decodeFloat fmtFP32 (roundVal fmtFP32 v none).bits

/-- Round an exact magnitude to FP32 to nearest even. -/
def rn32x (x : Exact) : Val := decodeFloat fmtFP32 (roundExact fmtFP32 x none).bits

/-- Integer square root by halving, structural on its bit count. -/
def isqrtAux : Nat → Nat → Nat → Nat
  | 0, _, r => r
  | k + 1, n, r => if (r + 2 ^ k) * (r + 2 ^ k) ≤ n then isqrtAux k n (r + 2 ^ k) else isqrtAux k n r

/-- The floor of the square root. -/
def isqrt (n : Nat) : Nat := isqrtAux (Nat.log2 n / 2 + 1) n 0

/-- RN32 of a value divided by a count (R247, R250). -/
def divCount32 (v : Val) (n : Nat) : Val :=
  match v with
  | .fin neg m e =>
    let k := 64 + Nat.log2 n
    rn32x ⟨neg, (m <<< k) / n, e - k, (m <<< k) % n != 0⟩
  | v => v

/-- RN32 of the quotient of two values. -/
def div32 (a b : Val) : Val :=
  match a, b with
  | .nan, _ => .nan
  | _, .nan => .nan
  | .inf _, .inf _ => .nan
  | .inf n, .fin n' _ _ => .inf (xor n n')
  | .fin n _ _, .inf n' => .fin (xor n n') 0 0
  | .fin n m e, .fin n' m' e' =>
    if m' = 0 then (if m = 0 then .nan else .inf (xor n n'))
    else
      let k := 64 + Nat.log2 m'
      rn32x ⟨xor n n', (m <<< k) / m', e - e' - k, (m <<< k) % m' != 0⟩

/-- RN32(1 / sqrt(v)) (R247). -/
def rsqrt32 (v : Val) : Val :=
  match v with
  | .nan => .nan
  | .inf n => if n then .nan else .fin false 0 0
  | .fin n m e =>
    if m = 0 then .inf n
    else if n then .nan
    else
      let odd := e % 2 ≠ 0
      let m' := if odd then 2 * m else m
      let e' := if odd then e - 1 else e
      let k := 64 + Nat.log2 m'
      let r := isqrt (2 ^ (2 * k) / m')
      rn32x ⟨false, r, -k - e' / 2, r * r * m' != 2 ^ (2 * k)⟩

/-- RN32(sqrt(v)) (R298). -/
def sqrt32 (v : Val) : Val :=
  match v with
  | .nan => .nan
  | .inf n => if n then .nan else .inf false
  | .fin n m e =>
    if m = 0 then .fin n 0 0
    else if n then .nan
    else
      let odd := e % 2 ≠ 0
      let m' := (if odd then 2 * m else m) <<< 96
      let e' := (if odd then e - 1 else e) - 96
      let r := isqrt m'
      rn32x ⟨false, r, e' / 2, r * r != m'⟩

/-- The tree sum (R248): pad with +0 to a power of two, then sum pairs with RN32, `k` times. -/
def treePairs : List Val → List Val
  | a :: b :: t => rn32 (vAdd a b) :: treePairs t
  | [a] => [rn32 (vAdd a vZero)]
  | [] => []

def treeRounds : Nat → List Val → List Val
  | 0, l => l
  | k + 1, l => treeRounds k (treePairs l)

/-- The tree sum of a list (R248). -/
def treeSum (l : List Val) : Val :=
  (treeRounds (Nat.log2 (2 * l.length - 1)) l).headD vZero

/-! ### Transcendental results (R244)

Bounds at `2^-prec`, rounded outward at each step; where both bounds agree to `2^-640` the exact value is known
well enough to round, and where they do not the result is the free value of `Config.transcendental`. -/

/-- Working precision in bits. -/
def prec : Nat := 768

/-- A pair of bounds at scale 2^-768. -/
structure Bounds where
  lo : Nat
  hi : Nat
deriving DecidableEq, Repr

def bMul (a b : Bounds) : Bounds := ⟨a.lo * b.lo / 2 ^ prec, a.hi * b.hi / 2 ^ prec + 1⟩
def bAdd (a b : Bounds) : Bounds := ⟨a.lo + b.lo, a.hi + b.hi⟩
def bSub (a b : Bounds) : Bounds := ⟨a.lo - b.hi, a.hi - b.lo⟩
def bDiv (a b : Bounds) : Bounds := ⟨a.lo * 2 ^ prec / b.hi, a.hi * 2 ^ prec / b.lo + 1⟩
def bOne : Bounds := ⟨2 ^ prec, 2 ^ prec⟩
def bDivNat (a : Bounds) (n : Nat) : Bounds := ⟨a.lo / n, a.hi / n + 1⟩

/-- Taylor terms of e^z for 0 ≤ z < 1: term and sum so far, `k` the next index. -/
def expTerms : Nat → Bounds → Nat → Bounds → Bounds → Bounds
  | 0, _, _, term, sum => ⟨sum.lo, sum.hi + term.hi + 1⟩
  | fuel + 1, z, k, term, sum =>
    let t := bDivNat (bMul term z) k
    expTerms fuel z (k + 1) t (bAdd sum t)

/-- Repeated squaring. -/
def bSquares : Nat → Bounds → Bounds
  | 0, b => b
  | k + 1, b => bSquares k (bMul b b)

/-- e^y for 0 ≤ y < 256, y = m × 2^-768. -/
def bExp (y : Nat) : Bounds :=
  bSquares 8 (expTerms 220 ⟨y / 256, y / 256 + 1⟩ 1 bOne bOne)

/-- Sum of the arctangent series for 1/n, alternating, at 2^-768. -/
def atanTerms : Nat → Nat → Nat → Nat → Bool → Int → Int
  | 0, _, _, _, _, s => s
  | fuel + 1, n2, p, k, neg, s =>
    atanTerms fuel n2 (p / n2) (k + 2) (!neg) (if neg then s - (p / k : Nat) else s + (p / k : Nat))

/-- Pi at 2^-768 by Machin's formula, widened by more than its truncation error. -/
def bPi : Bounds :=
  let a5 := atanTerms 400 25 (2 ^ prec / 5) 1 false 0
  let a239 := atanTerms 120 57121 (2 ^ prec / 239) 1 false 0
  let p := (16 * a5 - 4 * a239).toNat
  ⟨p - 2 ^ 16, p + 2 ^ 16⟩

/-- Bounds on a square root. -/
def bSqrt (b : Bounds) : Bounds := ⟨isqrt (b.lo * 2 ^ prec), isqrt (b.hi * 2 ^ prec) + 1⟩

/-- The series a + a^3/3 + a^5/15 + … of the normal distribution function. -/
def phiTerms : Nat → Bounds → Nat → Bounds → Bounds → Bounds
  | 0, _, _, term, sum => ⟨sum.lo, sum.hi + term.hi + 1⟩
  | fuel + 1, a2, k, term, sum =>
    let t := bDivNat (bMul term a2) k
    phiTerms fuel a2 (k + 2) t (bAdd sum t)

/-- Φ(a) for 0 ≤ a ≤ 16, a = y × 2^-768. -/
def bPhi (y : Nat) : Bounds :=
  let a : Bounds := ⟨y, y⟩
  let a2 := bMul a a
  let half : Bounds := ⟨2 ^ (prec - 1), 2 ^ (prec - 1)⟩
  let s := phiTerms 1600 a2 3 a a
  let den := bMul (bSqrt ⟨2 * bPi.lo, 2 * bPi.hi⟩) (bExp (a2.hi / 2))
  let den' := bMul (bSqrt ⟨2 * bPi.lo, 2 * bPi.hi⟩) (bExp (a2.lo / 2))
  bAdd half ⟨(bDiv s den).lo, (bDiv s den').hi⟩

/-- The four transcendental ops. -/
inductive Trans where
  | gelu | sigmoid | tanh | silu
deriving DecidableEq, Repr

/-- A finite magnitude as a multiple of 2^-768 (FP32 values and their squares are such multiples). -/
def atPrec (m : Nat) (e : Int) : Nat := if e ≥ -768 then m <<< (e + 768).toNat else m >>> (-768 - e).toNat

/-- An exact value strictly inside bounds that agree to 2^-640, or none. -/
def settle (neg : Bool) (b : Bounds) : Option Exact :=
  if b.lo >>> 128 = b.hi >>> 128 then some ⟨neg, b.lo >>> 128, -640, true⟩ else none

/-- Just below a positive magnitude y × 2^-768. -/
def justBelow (neg : Bool) (y : Nat) : Option Exact := some ⟨neg, y - 1, -768, true⟩

/-- A non-zero magnitude far below every format's range. -/
def tiny (neg : Bool) : Option Exact := some ⟨neg, 0, -640, true⟩

/-- The exact result of a transcendental op on a non-zero finite value. -/
def transFinite (t : Trans) (neg : Bool) (m : Nat) (e : Int) : Option Exact :=
  let y := atPrec m e
  let one := 2 ^ prec
  let big := decide (y ≥ 160 * one)
  match t with
  | .sigmoid =>
    if big then (if neg then tiny false else justBelow false one)
    else
      let x := bExp y
      settle false (if neg then bDiv bOne (bAdd bOne x) else bDiv x (bAdd bOne x))
  | .tanh =>
    if y ≥ 100 * one then justBelow neg one
    else
      let x := bExp (2 * y)
      settle neg (bDiv (bSub x bOne) (bAdd x bOne))
  | .silu =>
    if big then (if neg then tiny true else justBelow false y)
    else
      let x := bExp y
      settle neg (bMul ⟨y, y⟩ (if neg then bDiv bOne (bAdd bOne x) else bDiv x (bAdd bOne x)))
  | .gelu =>
    if y ≥ 16 * one then (if neg then tiny true else justBelow false y)
    else settle neg (bMul ⟨y, y⟩ (if neg then bSub bOne (bPhi y) else bPhi y))

/-- The code under which a transcendental op asks for a free value. -/
def transCode : Trans → Nat
  | .gelu => 0x1A
  | .sigmoid => 0x1B
  | .tanh => 0x1C
  | .silu => 0x1D

/-- The free value of a transcendental op: where the bounds do not settle, and for GELU and SILU of −∞, whose
exact value the manual does not state (assumption 5). -/
def freeTrans (t : Trans) (f : FloatFmt) (src : Nat) (draw : Option Nat) : Rounded :=
  let b := Config.transcendental (transCode t) src (f.eb * 32 + f.mb) (draw.getD 65536) % 2 ^ (1 + f.eb + f.mb)
  ⟨b, false, false, !vFinite (decodeFloat f b)⟩

/-- A transcendental op on a value, rounded once (R244, Table 7-7). -/
def roundTrans (t : Trans) (f : FloatFmt) (src : Nat) (v : Val) (draw : Option Nat) : Rounded :=
  match v with
  | .nan => roundVal f .nan draw
  | .inf neg =>
    match t with
    | .sigmoid => roundVal f (.fin false (if neg then 0 else 1) 0) draw
    | .tanh => roundVal f (.fin neg 1 0) draw
    | _ => if neg then freeTrans t f src draw else roundVal f (.inf false) draw
  | .fin neg m e =>
    if m = 0 then
      match t with
      | .sigmoid => roundVal f (.fin false 1 (-1)) draw
      | .tanh => roundVal f (.fin false 0 0) draw
      | _ => roundVal f (.fin neg 0 0) draw
    else match transFinite t neg m e with
      | some x => roundExact f x draw
      | none => freeTrans t f src draw

end Sys2Proof.Machine
end

