-- ==== Sys2Proof/Machine/Formats.lean ====
section
/-!
DEFINITION. Element formats as objects and registers hold them (Tables 8-1 and 8-2): widths, row bytes, reading an
element as a value, and quantizing a group of 32 (R273, R277 to R279).
-/
namespace Sys2Proof.Machine

/-- Format codes of Table 8-1. -/
def fmtValid (c : Nat) : Bool := 1 ≤ c && c ≤ 0x0D

/-- The scalar floating-point format of a code: FP32, BF16, FP16, FP8 E4M3, FP8 E5M2. -/
def scalarFmt (c : Nat) : Option FloatFmt :=
  match c with
  | 1 => some fmtFP32
  | 2 => some fmtBF16
  | 3 => some fmtFP16
  | 4 => some fmtE4M3
  | 5 => some fmtE5M2
  | _ => none

/-- Bits of one element of a format (Table 7-6; U32 and OPAQUE by Table 8-2). -/
def elemBits (c : Nat) : Nat :=
  match c with
  | 1 => 32
  | 2 => 16
  | 3 => 16
  | 4 => 8
  | 5 => 8
  | 6 => 8
  | 7 => 8
  | 8 => 4
  | 9 => 8
  | 0x0A => 4
  | 0x0B => 1
  | 0x0C => 32
  | _ => 8

/-- Whether a format has a scale byte per 32 elements: the MX formats and SX-INT4. -/
def isBlockFmt (c : Nat) : Bool := 6 ≤ c && c ≤ 0x0A

/-- Bytes of a row of L elements, none where L breaks the format's multiple (Table 8-2). -/
def rowBytes (c l : Nat) : Option Nat :=
  match c with
  | 1 => some (4 * l)
  | 0x0C => some (4 * l)
  | 2 => some (2 * l)
  | 3 => some (2 * l)
  | 4 => some l
  | 5 => some l
  | 0x0D => some l
  | 6 => if l % 32 = 0 then some (l + l / 32) else none
  | 7 => if l % 32 = 0 then some (l + l / 32) else none
  | 9 => if l % 32 = 0 then some (l + l / 32) else none
  | 8 => if l % 32 = 0 then some (l / 2 + l / 32) else none
  | 0x0A => if l % 32 = 0 then some (l / 2 + l / 16) else none
  | 0x0B => if l % 8 = 0 then some (l / 8) else none
  | _ => none

/-- R273, R274: size, rows and row length agree with the format. -/
def shapeOk (fmt size rows rowLen : Nat) : Bool :=
  match rowBytes fmt rowLen with
  | some rb => size == rows * rb
  | none => false

/-- The value of one element of a scalar format, of an MX or SX-INT4 element under a scale byte, or of a mask bit
(Table 8-1, R278). -/
def elemVal (c : Nat) (w scale : Nat) : Val :=
  if isBlockFmt c && scale == 0xFF then .nan
  else
    let k : Int := (scale : Int) - 127
    match c with
    | 1 => decodeFloat fmtFP32 w
    | 2 => decodeFloat fmtBF16 w
    | 3 => decodeFloat fmtFP16 w
    | 4 => decodeFloat fmtE4M3 w
    | 5 => decodeFloat fmtE5M2 w
    | 6 => vScale k (decodeFloat fmtE4M3 w)
    | 7 => vScale k (decodeFloat fmtE5M2 w)
    | 8 => vScale k (decodeFloat fmtE2M1 w)
    | 9 =>
      let s := toSigned 8 (w % 256)
      .fin (decide (s < 0)) s.natAbs (k - 6)
    | 0x0A =>
      if w % 16 = 8 then .nan
      else
        let s := toSigned 4 (w % 16)
        .fin (decide (s < 0)) s.natAbs k
    | 0x0B => .fin false (w % 2) 0
    | _ => .fin false w 0

/-- The encoded element at position j of packed bits, `eb` bits each (R273, R241). -/
def elemAt (packed eb j : Nat) : Nat := (packed >>> (eb * j)) % 2 ^ eb

/-- The bytes of `[off, off + n)` as one number. -/
def bytesNat (c : Tab Byte) (off n : Nat) : Nat := leValue ((List.range n).map (fun i => tabGet 0#8 c (off + i)))

/-- A number as a sparse table of `n` bytes from 0. -/
def natTab (n w : Nat) : Tab Byte :=
  (List.range n).filterMap (fun i =>
    let b := BitVec.ofNat 8 (w >>> (8 * i))
    if b = 0#8 then none else some (i, b))

/-- The value of column `col` of a row that starts at byte `base`, with `l` elements in the row (Table 8-2);
`c` gives the object's bytes. -/
def rowElem (c : Tab Byte) (fmt base l col : Nat) : Val :=
  let eb := elemBits fmt
  let w := (bytesNat c (base + eb * col / 8) ((eb + 7) / 8) >>> (eb * col % 8)) % 2 ^ eb
  let sc := (tabGet 0#8 c (base + l * eb / 8 + col / 32)).toNat
  elemVal fmt w sc

/-- The raw encoding of that element, without its side data. -/
def rowCode (c : Tab Byte) (fmt base col : Nat) : Nat :=
  let eb := elemBits fmt
  (bytesNat c (base + eb * col / 8) ((eb + 7) / 8) >>> (eb * col % 8)) % 2 ^ eb

/-- Whether an encoding is non-finite in a scalar or block format (Table 8-1, R293). -/
def codeNonFinite (fmt w scale : Nat) : Bool := !vFinite (elemVal fmt w scale)

/-- R293: some element of an object is non-finite under its registered format. -/
def anyNonFinite (c : Tab Byte) (fmt rows rowLen : Nat) : Bool :=
  match rowBytes fmt rowLen with
  | none => false
  | some rb =>
    if fmt ≥ 0x0B then false
    else (List.range rows).any (fun r => (List.range rowLen).any (fun j => !vFinite (rowElem c fmt (r * rb) rowLen j)))

/-! ### Groups of 32 (R279, Table 6-5) -/

/-- ⌊log2⌋ of a non-zero finite magnitude. -/
def log2Val (m : Nat) (e : Int) : Int := (Nat.log2 m : Int) + e

/-- The larger of two finite magnitudes, as m × 2^e. -/
def maxMag (a b : Nat × Int) : Nat × Int :=
  let e0 := min a.2 b.2
  if a.1 * 2 ^ (a.2 - e0).toNat < b.1 * 2 ^ (b.2 - e0).toNat then b else a

/-- The largest magnitude of a group. -/
def groupMax (g : List Val) : Nat × Int :=
  g.foldl (fun acc v => match v with
    | .fin _ m e => maxMag acc (m, e)
    | _ => acc) (0, 0)

/-- Clamp a shared exponent to −127 to 127 (R216, R279). -/
def clampE (e : Int) : Int := max (-127) (min 127 e)

/-- The least E with 7 × 2^E ≥ m × 2^e (Table 6-5, SX-INT4): `m / 7` rounded up to a power of two. -/
def sxExponent (m : Nat) (e : Int) : Int :=
  let b := Nat.log2 m
  -- 2^b ≤ m < 2^(b+1); the candidates are b − 3 to b − 1
  if m * 8 ≤ 7 * 2 ^ b then (b : Int) - 3 + e
  else if m * 4 ≤ 7 * 2 ^ b then (b : Int) - 2 + e
  else (b : Int) - 1 + e

/-- The shared exponent of a group for a block format (R279, Table 6-5). -/
def sharedExp (fmt : Nat) (a : Nat × Int) : Int :=
  if a.1 = 0 then -127
  else
    let l := log2Val a.1 a.2
    clampE (match fmt with
      | 8 => l - 2
      | 6 => l - 8
      | 7 => l - 15
      | 9 => l
      | _ => sxExponent a.1 a.2)

/-- Round a value to an integer multiple of 2^q, clamped to ± bound: the integer and whether it saturated. -/
def roundInt (q : Int) (bound : Nat) (neg : Bool) (m : Nat) (e : Int) (draw : Option Nat) : Int × Bool :=
  let d := (q - e).toNat
  let n := if e ≥ q then m <<< (e - q).toNat else m >>> d
  let rem := if e ≥ q then 0 else m % 2 ^ d
  let up := match draw with
    | none => decide (2 * rem > 2 ^ d) || (decide (2 * rem = 2 ^ d) && n % 2 == 1)
    | some r => rem != 0 && decide (r + rem * 65536 / 2 ^ d ≥ 65536)
  let up := up && !decide (e ≥ q)
  let k := if up then n + 1 else n
  let sat := match draw with
    | none => decide (k > bound)
    | some _ => decide (n > bound) || (decide (n = bound) && rem != 0)
  let k := min k bound
  (if neg then -(k : Int) else k, sat)

/-- One element of a group quantized under shared exponent E (R279, R280, R281): its encoding and flags. -/
def quantElem (fmt : Nat) (E : Int) (v : Val) (draw : Option Nat) : Rounded :=
  match v with
  | .fin neg0 m e =>
    let neg := neg0 && m != 0
    match fmt with
    | 8 => roundExact fmtE2M1 ⟨neg, m, e - E, false⟩ draw
    | 6 => roundExact fmtE4M3 ⟨neg, m, e - E, false⟩ draw
    | 7 => roundExact fmtE5M2 ⟨neg, m, e - E, false⟩ draw
    | 9 =>
      let (k, sat) := roundInt (-6) 127 neg m (e - E) draw
      ⟨ofSigned 8 k, sat, decide (k = 0) && m != 0, false⟩
    | _ =>
      let (k, sat) := roundInt 0 7 neg m (e - E) draw
      ⟨ofSigned 4 k, sat, decide (k = 0) && m != 0, false⟩
  | _ => ⟨0, false, false, true⟩

/-- A quantized group: element encodings, the scale byte, and the flags raised (R279). A group with a non-finite
source is the canonical NaN of Table 8-1. -/
structure QGroup where
  elems : List Nat
  scale : Nat
  ovf : Bool
  ufz : Bool
  nf : Bool
deriving DecidableEq, Repr

/-- Quantize one group of 32 values; `draws` gives each element's draw under stochastic rounding. -/
def quantGroup (fmt : Nat) (g : List Val) (draws : Nat → Option Nat) : QGroup :=
  if g.any (fun v => !vFinite v) then ⟨g.map (fun _ => 0), 0xFF, false, false, true⟩
  else
    let E := sharedExp fmt (groupMax g)
    let rs := (g.zipIdx).map (fun p => quantElem fmt E p.1 (draws p.2))
    ⟨rs.map (·.bits), (E + 127).toNat, rs.any (·.ovf), rs.any (·.ufz), false⟩

/-! ### The error measure (R218, R219) -/

/-- `S_x` and `S_d` of a group against its stored values, every step rounded to FP32. -/
def groupMeasure (xs qs : List Val) : Val × Val :=
  let a := groupMax xs
  let eg := if a.1 = 0 then 0 else log2Val a.1 a.2
  (xs.zip qs).foldl (fun acc p =>
    let x := rn32 (vScale (-eg) p.1)
    let q := rn32 (vScale (-eg) p.2)
    let d := rn32 (vAdd q (vNeg x))
    (rn32 (vAdd acc.1 (rn32 (vMul x x))), rn32 (vAdd acc.2 (rn32 (vMul d d))))) (vZero, vZero)

/-- `a ≤ b` on finite values. -/
def vLe (a b : Val) : Bool := !vLt b a || (vIsZero a && vIsZero b)

/-- T of an error bound code: 2^(−c/8) rounded to FP32 (R218), the eighth root taken as a nested square root. -/
def boundT (c : Nat) : Val :=
  -- 2^(−c/8) = 2^(−⌈c/8⌉) × 2^(j/8), j = 8⌈c/8⌉ − c
  let w := (c + 7) / 8
  let j := 8 * w - c
  let r := isqrt (isqrt (isqrt (2 ^ (j + 8 * 80))))
  rn32x ⟨false, r, -80 - (w : Int), j != 0⟩

/-- The group passes: S_d ≤ RN32(T × S_x) (R218). -/
def measurePasses (c : Nat) (sx sd : Val) : Bool := vLe sd (rn32 (vMul (boundT c) sx))

/-- The error class (R219): the largest k from 0 to 15 with S_d × 2^(2k) ≤ S_x. -/
def errorClass (sx sd : Val) : Nat :=
  if vIsZero sd then 15
  else ((List.range 16).filter (fun k : Nat => vLe (vScale (2 * (k : Int)) sd) sx)).getLastD 0

end Sys2Proof.Machine
end

