-- ==== Sys2Proof/Machine/Ashlar.lean ====
section
/-!
DEFINITION. The Ashlar codec (chapter 05): dressing tables, ashlar blocks, courses and streams, encoded as the
Aedvos encodes them and decoded with the checks of Table 5-11.
-/
namespace Sys2Proof.Machine

/-- Element width class of a format (Table 5-7). -/
def elemClass (fmt : Nat) : Nat :=
  match fmt with
  | 1 => 2
  | 2 => 1
  | 3 => 1
  | _ => 0

/-- Element width W of a class (Table 5-7). -/
def classWidth (c : Nat) : Nat := 2 ^ c

/-- Elements of a raw block, each as its W bytes lowest first (R184). -/
def chunks {α : Type} (w : Nat) : Nat → List α → List (List α)
  | 0, _ => []
  | n + 1, l => l.take w :: chunks w n (l.drop w)

/-- The byte of plane p of an element: plane 0 is the most significant byte (R184). -/
def planeByte (w p : Nat) (e : List Byte) : Byte := e.getD (w - 1 - p) 0#8

def elemZero (e : List Byte) : Bool := e.all (· == 0#8)

/-! ### Dressing tables (R189 to R192) -/

/-- Occurrences of each symbol in a list, as 256 counts. -/
def symbolCounts (l : List Byte) : List Nat := (List.range 256).map (fun s => l.countP (fun b => b.toNat == s))

/-- An item of package-merge: its weight, whether it is a package, its lowest symbol, and the symbols in it. -/
structure PmItem where
  weight : Nat
  package : Bool
  low : Nat
  symbols : List Nat
deriving DecidableEq, Repr

/-- The order of R192: by weight, a single symbol before a package of equal weight, then by lowest symbol. -/
def pmLe (a b : PmItem) : Bool :=
  if a.weight ≠ b.weight then decide (a.weight < b.weight)
  else if a.package ≠ b.package then !a.package
  else decide (a.low ≤ b.low)

/-- Insert in order, after items that are not greater. -/
def pmInsert (x : PmItem) : List PmItem → List PmItem
  | [] => [x]
  | y :: t => if pmLe y x then y :: pmInsert x t else x :: y :: t

def pmSort (l : List PmItem) : List PmItem := l.foldl (fun acc x => pmInsert x acc) []

/-- Pair neighbours into packages; an odd last item is dropped. -/
def pmPairs : List PmItem → List PmItem
  | a :: b :: t => ⟨a.weight + b.weight, true, min a.low b.low, a.symbols ++ b.symbols⟩ :: pmPairs t
  | _ => []

def pmLevels : Nat → List PmItem → List PmItem → List PmItem
  | 0, _, cur => cur
  | k + 1, singles, cur => pmLevels k singles (pmSort (singles ++ pmPairs cur))

/-- The 256 code lengths, at most 12, by package-merge (R192). -/
def codeLengths (counts : List Nat) : List Nat :=
  let singles := pmSort ((counts.zipIdx).filterMap (fun p =>
    if p.1 = 0 then none else some ⟨p.1, false, p.2, [p.2]⟩))
  let chosen := (pmLevels 11 singles singles).take (2 * singles.length - 2)
  (List.range 256).map (fun s => (chosen.map (fun i => i.symbols.count s)).sum)

/-- The canonical codes of R191: for each symbol its length and code. -/
def canonicalCodes (lens : List Nat) : List (Nat × Nat) :=
  let count := fun l => if l = 0 then 0 else lens.count l
  let starts := (List.range 12).foldl (fun (acc : List Nat × Nat) i =>
    let c := (acc.2 + count i) * 2
    (acc.1 ++ [c], c)) ([0], 0)
  (lens.zipIdx).map (fun p =>
    if p.1 = 0 then (0, 0)
    else (p.1, starts.1.getD p.1 0 + (lens.take p.2).count p.1))

/-- The 128 bytes of a dressing table (R189). -/
def tableBytes (lens : List Nat) : List Byte :=
  (List.range 128).map (fun k => BitVec.ofNat 8 (lens.getD (2 * k) 0 + 16 * lens.getD (2 * k + 1) 0))

/-- The lengths a table's bytes spell. -/
def tableLengths (bs : List Byte) : List Nat := bs.flatMap (fun b => [b.toNat % 16, b.toNat / 16])

/-- A valid table: lengths at most 12, two or more symbols, Kraft sum 4,096 (R189, R190). -/
def tableValid (lens : List Nat) : Bool :=
  lens.all (· ≤ 12) && decide (2 ≤ lens.countP (· ≠ 0)) &&
  (lens.map (fun l => if l = 0 then 0 else 2 ^ (12 - l))).sum == 4096

/-- The dressing pass over the blocks of a stripe (R192): each plane's table, none where the plane has fewer than two
distinct symbols; tables are numbered in plane order. -/
def dressing (cls : Nat) (blocks : List (List Byte)) : List (Option (List Nat)) :=
  let w := classWidth cls
  let elems := blocks.flatMap (fun b => chunks w (4096 / w) b)
  (List.range w).map (fun p =>
    let counts := symbolCounts (elems.map (planeByte w p))
    if counts.countP (· ≠ 0) ≥ 2 then some (codeLengths counts) else none)

/-! ### Blocks (R185 to R188, R193) -/

/-- Bits to bytes, bit 0 of a byte first, the last byte filled with 0 (R187). -/
def packBits : Nat → List Bool → List Byte
  | 0, _ => []
  | n + 1, l =>
    BitVec.ofNat 8 (((l.take 8).zipIdx.map (fun p => if p.1 then 2 ^ p.2 else 0)).sum) :: packBits n (l.drop 8)

def bytesOfBits (l : List Bool) : List Byte := packBits ((l.length + 7) / 8) l

def bitsOfBytes (bs : List Byte) : List Bool := bs.flatMap (fun b => (List.range 8).map (fun i => b.getLsbD i))

/-- A code, most significant bit first (R187). -/
def codeBits (len code : Nat) : List Bool := (List.range len).map (fun i => bitOf code (len - 1 - i))

/-- Segment i of K symbols holds the symbols from i × ⌈K/8⌉ (R186). -/
def segments (syms : List Byte) : List (List Byte) :=
  let s := (syms.length + 7) / 8
  (List.range 8).map (fun i => (syms.drop (i * s)).take s)

/-- One plane's mode and code, constant-area byte and data (R185, R193). `tab` is the plane's table number and codes. -/
structure PlaneEnc where
  code : Nat
  const : List Byte
  data : List Byte
deriving DecidableEq, Repr

def encodePlane (tab : Option (Nat × List (Nat × Nat))) (syms : List Byte) : PlaneEnc :=
  let raw : PlaneEnc := ⟨0, [], syms⟩
  match syms with
  | [] => raw
  | s0 :: _ =>
    if syms.all (· == s0) then ⟨1, [s0], []⟩
    else match tab with
      | none => raw
      | some (t, codes) =>
        if syms.all (fun b => (codes.getD b.toNat (0, 0)).1 != 0) then
          let segs := (segments syms).map (fun seg => bytesOfBits (seg.flatMap (fun b =>
            let c := codes.getD b.toNat (0, 0); codeBits c.1 c.2)))
          let data := segs.flatMap (fun s => leBytes 2 s.length) ++ segs.flatten
          if data.length < syms.length then ⟨2 + 4 * t, [], data⟩ else raw
        else raw

/-- The 16 bytes of a block header (Table 5-8) with FORM_CRC given. -/
def blockHeader (rawCrc formCrc encLen : Nat) (rough poison zmap : Bool) (cls planes low : Nat) : List Byte :=
  leBytes 4 rawCrc ++ leBytes 4 formCrc ++
  leBytes 8 (encLen + (if rough then 2 ^ 16 else 0) + (if poison then 2 ^ 17 else 0) + (if zmap then 2 ^ 18 else 0)
    + cls * 2 ^ 19 + planes * 2 ^ 24 + low * 2 ^ 40)

/-- A block from its fields and payload, FORM_CRC computed with its field 0 (Table 5-8). -/
def sealBlock (rawCrc : Nat) (rough poison zmap : Bool) (cls planes low : Nat) (payload : List Byte) : List Byte :=
  let n := 16 + payload.length
  let crc := crc32c (blockHeader rawCrc 0 n rough poison zmap cls planes low ++ payload)
  blockHeader rawCrc crc.toNat n rough poison zmap cls planes low ++ payload

/-- The payload of a block with or without a zero map, and its plane codes (R185, R193). -/
def blockPayload (cls : Nat) (tabs : List (Option (Nat × List (Nat × Nat)))) (zmap : Bool) (elems : List (List Byte)) :
    Nat × List Byte :=
  let w := classWidth cls
  let present := if zmap then elems.filter (fun e => !elemZero e) else elems
  let planes := (List.range w).map (fun p => encodePlane (tabs.getD p none) (present.map (planeByte w p)))
  let codes := ((planes.zipIdx).map (fun q => q.1.code * 16 ^ q.2)).sum
  (codes, (if zmap then bytesOfBits (elems.map (fun e => !elemZero e)) else []) ++
    planes.flatMap (·.const) ++ planes.flatMap (·.data))

/-- A rough block (R188, R198). -/
def roughBlock (cls low : Nat) (poison : Bool) (raw : List Byte) : List Byte :=
  sealBlock (if poison then 0 else (crc32c raw).toNat) true poison false cls 0 low raw

/-- The encoding pass on one block (R193). -/
def encodeBlock (cls low : Nat) (tabs : List (Option (Nat × List (Nat × Nat)))) (poison : Bool) (raw : List Byte) :
    List Byte :=
  if poison then roughBlock cls low true raw
  else
    let w := classWidth cls
    let elems := chunks w (4096 / w) raw
    let a := blockPayload cls tabs false elems
    let b := blockPayload cls tabs true elems
    let useMap := decide (b.2.length < a.2.length)
    let k := if useMap then b else a
    if 16 + k.2.length ≥ 4112 then roughBlock cls low false raw
    else sealBlock (crc32c raw).toNat false false useMap cls k.1 low k.2

/-- Zero bytes to a multiple of `g`. -/
def padTo (g : Nat) (l : List Byte) : List Byte := l ++ List.replicate (roundUp l.length g - l.length) 0#8

/-- A 64-byte header with HDR_CRC in its last four bytes, computed with that field 0. -/
def sealHeader (words : List Byte) : List Byte :=
  let body := words.take 60
  body ++ leBytes 4 (crc32c (body ++ [0#8, 0#8, 0#8, 0#8])).toNat

/-- Running offsets of the blocks (R180). -/
def offsetsFrom : Nat → List (List Byte) → List Nat
  | _, [] => []
  | o, b :: t => o :: offsetsFrom (o + roundUp b.length 16) t

/-- A course from encoded blocks (Tables 5-5 and 5-6, R180). -/
def assembleCourse (stripe first poisonCount : Nat) (storedRaw : Bool) (tables : List (List Nat))
    (blocks : List (List Byte)) : List Byte :=
  let n := blocks.length
  let tb := tables.flatMap tableBytes
  let start := 64 + tb.length + roundUp (4 * n) 16
  let offs := offsetsFrom start blocks
  let body := blocks.flatMap (padTo 16)
  let len := start + body.length
  let hdr := leBytes 4 0x53524341 ++ leBytes 4 stripe ++ leBytes 2 first ++ leBytes 2 n ++
    leBytes 2 (tables.length + (if storedRaw then 16 else 0)) ++ leBytes 2 poisonCount ++ leBytes 4 len ++
    leBytes 4 (if tables = [] then 0 else (crc32c tb).toNat) ++ leBytes 36 0
  sealHeader hdr ++ tb ++ padTo 16 (offs.flatMap (leBytes 4)) ++ body

/-- The tables of a dressing, numbered in plane order, with their codes (R192). -/
def numberTables (d : List (Option (List Nat))) : List (Option (Nat × List (Nat × Nat))) :=
  (d.zipIdx).map (fun p => p.1.map (fun lens => (((d.take p.2).filterMap id).length, canonicalCodes lens)))

/-- The course of a stripe (R173, R181, R192, R193): none where it would exceed 2 MiB and the stripe is stored raw.
`poison` picks the poisoned blocks, numbered in the stripe. -/
def encodeStripe (cls stripe : Nat) (poison : Nat → Bool) (blocks : List (List Byte)) : Option (List Byte) :=
  let d := dressing cls blocks
  let tabs := numberTables d
  let enc := (blocks.zipIdx).map (fun p => encodeBlock cls ((stripe * 512 + p.2) % 256) tabs (poison p.2) p.1)
  let c := assembleCourse stripe 0 (((List.range blocks.length).filter poison).length) false (d.filterMap id) enc
  if c.length > 2097152 then none else some c

/-- The course of a run of rough blocks (R182), or of blocks cut from a stored course (R183). -/
def rawCourse (cls stripe first : Nat) (poison : Nat → Bool) (blocks : List (List Byte)) : List Byte :=
  assembleCourse stripe first (((List.range blocks.length).filter (fun i => poison (first + i))).length) true []
    ((blocks.zipIdx).map (fun p => roughBlock cls ((stripe * 512 + first + p.2) % 256) (poison (first + p.2)) p.1))

/-- The part of a stripe's course that a stream carries: blocks `first` to `first + count - 1` with the stored dressing
tables (R183); stored-raw stripes go as rough blocks (R182). -/
def coursePart (cls stripe first count : Nat) (poison : Nat → Bool) (blocks : List (List Byte)) : List Byte :=
  match encodeStripe cls stripe poison blocks with
  | none => rawCourse cls stripe first poison ((blocks.drop first).take count)
  | some _ =>
    let d := dressing cls blocks
    let tabs := numberTables d
    let enc := ((((blocks.zipIdx).drop first).take count)).map (fun p =>
      encodeBlock cls ((stripe * 512 + p.2) % 256) tabs (poison p.2) p.1)
    assembleCourse stripe first (((List.range count).filter (fun i => poison (first + i))).length) false (d.filterMap id) enc

/-- The slot size of a course in a stream the Aedvos writes (R177). -/
def courseSlot : Nat := 2107968

/-- The stream header (Table 5-3). -/
def streamHeader (fmt cls streamId firstBlock lengthM1 courses streamLen : Nat) (poisoned : Bool) : List Byte :=
  sealHeader (leBytes 4 0x4C485341 ++ leBytes 4 (1 + fmt * 2 ^ 16 + cls * 2 ^ 24) ++ leBytes 4 streamId ++
    leBytes 4 firstBlock ++ leBytes 6 lengthM1 ++ leBytes 3 courses ++ leBytes 1 (if poisoned then 1 else 0) ++
    leBytes 5 streamLen ++ leBytes 29 0)

/-! ### Expansion (Table 5-11, R197, R200) -/

/-- How an expansion ends (Table 5-11): the 4,096 bytes with their poison mark, or the failing kind of check. -/
inductive Expanded where
  | bytes (raw : List Byte) (poison : Bool)
  | check
  | format
deriving DecidableEq, Repr

/-- Read one code from a list of bits, most significant bit first (R191): the symbol and the rest. -/
def readCode (codes : List (Nat × Nat)) : Nat → Nat → Nat → List Bool → Option (Nat × List Bool)
  | 0, _, _, _ => none
  | _, _, _, [] => none
  | fuel + 1, len, v, b :: t =>
    let v' := 2 * v + (if b then 1 else 0)
    match codes.findIdx? (fun c => c.1 == len + 1 && c.2 == v') with
    | some s => some (s, t)
    | none => readCode codes fuel (len + 1) v' t

/-- Decode n symbols of a segment; the bits left must be 0 and lie in the last byte (R187). -/
def readSegment (codes : List (Nat × Nat)) : Nat → List Bool → Option (List Byte)
  | 0, rest => if rest.length < 8 && rest.all (!·) then some [] else none
  | n + 1, bits =>
    match readCode codes 12 0 0 bits with
    | none => none
    | some (s, rest) => (readSegment codes n rest).map (fun l => BitVec.ofNat 8 s :: l)

/-- Read the eight segments of a CODED plane of K symbols: the symbols and the rest of the payload (R186). -/
def readCoded (codes : List (Nat × Nat)) (k : Nat) (payload : List Byte) : Option (List Byte × List Byte) :=
  let lens := (List.range 8).map (fun i => leValue ((payload.drop (2 * i)).take 2))
  let s := (k + 7) / 8
  let body := payload.drop 16
  let parts := (List.range 8).map (fun i =>
    readSegment codes (min k ((i + 1) * s) - i * s) (bitsOfBytes ((body.drop ((lens.take i).sum)).take (lens.getD i 0))))
  if payload.length < 16 + lens.sum || parts.any (·.isNone) then none
  else some ((parts.filterMap id).flatten, body.drop lens.sum)

/-- Read the planes' data in ascending order (R185). -/
def readPlanes (tables : List (List Nat)) (k : Nat) : List Nat → List Byte → List Byte → Option (List (List Byte))
  | [], _, rest => if rest = [] then some [] else none
  | code :: codes, consts, payload =>
    match code % 4 with
    | 0 => if payload.length < k then none
           else (readPlanes tables k codes consts (payload.drop k)).map (payload.take k :: ·)
    | 1 => match consts with
      | [] => none
      | c :: cs => (readPlanes tables k codes cs payload).map (List.replicate k c :: ·)
    | _ => match readCoded (canonicalCodes (tables.getD (code / 4) [])) k payload with
      | none => none
      | some (syms, rest) => (readPlanes tables k codes consts rest).map (syms :: ·)

/-- Put present elements back among zero elements (R185). -/
def spread (w : Nat) : List Bool → List (List Byte) → List Byte
  | [], _ => []
  | true :: m, e :: es => e ++ spread w m es
  | true :: m, [] => List.replicate w 0#8 ++ spread w m []
  | false :: m, es => List.replicate w 0#8 ++ spread w m es

/-- Rebuild elements from their planes (R184). -/
def joinPlanes (w k : Nat) (planes : List (List Byte)) : List (List Byte) :=
  (List.range k).map (fun j => (List.range w).map (fun i => (planes.getD (w - 1 - i) []).getD j 0#8))

/-- Expand one ashlar block, checks 7 to 10 of Table 5-11. `low` is the block sought mod 256. -/
def expandBlock (cls low : Nat) (tables : List (List Nat)) (storedRaw : Bool) (b : List Byte) : Expanded :=
  let rawCrc := leValue (b.take 4)
  let formCrc := leValue ((b.drop 4).take 4)
  let h := leValue ((b.drop 8).take 8)
  let encLen := bitsOf h 12 0
  let rough := bitOf h 16
  let poison := bitOf h 17
  let zmap := bitOf h 18
  let cls' := bitsOf h 20 19
  let planes := bitsOf h 39 24
  let blk := b.take encLen
  let crc := crc32c (blk.take 4 ++ [0#8, 0#8, 0#8, 0#8] ++ blk.drop 8)
  let w := classWidth cls
  let codes := (List.range 4).map (fun p => bitsOf planes (4 * p + 3) (4 * p))
  if encLen < 16 || b.length < encLen || crc.toNat ≠ formCrc then .check
  else if bitsOf h 15 13 ≠ 0 || bitsOf h 23 21 ≠ 0 || bitsOf h 63 48 ≠ 0 || bitsOf h 47 40 ≠ low || cls' ≠ cls
    || codes.any (fun c => c % 4 == 3 || (c % 4 == 2 && decide (c / 4 ≥ tables.length)) || (c % 4 != 2 && c / 4 != 0))
    || (codes.drop w).any (· ≠ 0) || (rough && (zmap || planes != 0 || encLen != 4112)) || (poison && !rough)
    || (storedRaw && !rough) then .format
  else
    let payload := blk.drop 16
    if rough then
      if !poison && (crc32c payload).toNat ≠ rawCrc then .check else .bytes payload poison
    else
      let n := 4096 / w
      let mapBytes := if zmap then n / 8 else 0
      let present := if zmap then bitsOfBytes (payload.take mapBytes) else List.replicate n true
      let k := present.count true
      let used := codes.take w
      let nConst := used.countP (fun c => c % 4 == 1)
      let rest := payload.drop mapBytes
      match readPlanes tables k used (rest.take nConst) (rest.drop nConst) with
      | none => .format
      | some pl =>
        let raw := spread w present (joinPlanes w k pl)
        if (crc32c raw).toNat ≠ rawCrc then .check else .bytes raw false

/-- Expand block `j` of a stored course, checks 4 to 10 of Table 5-11; `stripe` and `blockNo` name the block sought. -/
def expandFromCourse (cls stripe blockNo : Nat) (c : List Byte) : Expanded :=
  let h := leValue (c.take 64)
  let tables := bitsOf h 98 96
  let count := bitsOf h 89 80
  let first := bitsOf h 72 64
  let storedRaw := bitOf h 100
  let len := bitsOf h 159 128
  let tb := (c.drop 64).take (128 * tables)
  let lens := chunks 256 tables (tableLengths tb)
  let j := blockNo % 512 - first
  let entry := fun i => leValue ((c.drop (64 + 128 * tables + 4 * i)).take 4)
  let next := if j + 1 < count then entry (j + 1) else len
  if bitsOf h 31 0 ≠ 0x53524341 || bitsOf h 79 73 ≠ 0 || bitsOf h 95 90 ≠ 0 || bitOf h 99 || bitsOf h 111 101 ≠ 0
    || bitsOf h 127 122 ≠ 0 || bitsOf h 479 192 ≠ 0 || (crc32c (c.take 60 ++ [0#8, 0#8, 0#8, 0#8])).toNat ≠ bitsOf h 511 480
    || bitsOf h 63 32 ≠ stripe || blockNo % 512 < first || first + count ≤ blockNo % 512 || tables > 4
    || (storedRaw && tables != 0) then .format
  else if (if tables = 0 then 0 else (crc32c tb).toNat) ≠ bitsOf h 191 160 || lens.any (fun l => !tableValid l) then .format
  else if entry j % 16 ≠ 0 || next ≤ entry j || len < next then .format
  else expandBlock cls (blockNo % 256) lens storedRaw ((c.drop (entry j)).take (next - entry j))

end Sys2Proof.Machine
end

