-- ==== Sys2Proof/Machine/EngineTypes.lean ====
section
/-!
DEFINITION. The state of recompute engines, recipe runs, codec lanes and glints (chapters 05 and 07).
-/
namespace Sys2Proof.Machine

/-- The fields of a recipe op record (Table 7-3). -/
structure OpRec where
  opcode : Nat
  fmt : Nat
  vd : Nat
  va : Nat
  vb : Nat
  vc : Nat
  span : Nat
  port : Nat
  acc : Nat
  round : Nat
  mode : Nat
  imm0 : Nat
  imm1 : Nat
  imm2 : Nat
deriving DecidableEq, Repr

/-- An accumulator entry (R287): `word` is an FP32 entry's encoding; an exact entry is `f` × 2^anchor, with the anchor
unset at first, or the NaN state. -/
structure AccEntry where
  word : BitVec 32
  f : Int
  anchor : Option Int
  nan : Bool
deriving DecidableEq, Repr

/-- The sticky flags OVF, UFZ and NF (R292). -/
structure Flags3 where
  ovf : Bool
  ufz : Bool
  nf : Bool
deriving DecidableEq, Repr

/-- Which run of a tile an engine makes (R264): the first, the duplicate, the third, or the rerun of R80. -/
inductive TileRole where
  | first | second | third | rerun
deriving DecidableEq, Repr

/-- An enclosing LOOP: first op of its body, its length, its count and the counter (Table 7-7). -/
structure LoopFrame where
  start : Nat
  len : Nat
  count : Nat
  counter : Nat
deriving DecidableEq, Repr

/-- A tile on an engine: the run and tile, its role, the position in the recipe, the loops, the outputs written so
far, the SIGNALs of class 1 and 2 passed and to be skipped, since when it waits, whether a poisoned input was read, and
whether it is sampled (R262). -/
structure TileRun where
  run : Nat
  tile : Nat
  role : TileRole
  wave : Nat
  pc : Nat
  loops : List LoopFrame
  outs : List (Tab Byte)
  outFlags : List Flags3
  checkWords : Nat
  check : BitVec 64
  signals : Nat
  skipSignals : Nat
  poisoned : Bool
  waiting : Option Nat
  sampled : Bool
  startCtrs : Tab (BitVec 32)
deriving DecidableEq, Repr

/-- A recompute engine (Table 7-1). Registers, flags, entries, bytes and counters not listed are 0. -/
structure Engine where
  regs : Tab (BitVec 8192)
  regFlags : Tab (BitVec 3)
  acc : Tab AccEntry
  accFlags : Tab (BitVec 3)
  work : Tab Byte
  workFlags : BitVec 3
  param : Tab Byte
  panel0 : Tab Byte
  panel1 : Tab Byte
  ctrs : Tab (BitVec 32)
  tile : Option TileRun
deriving DecidableEq, Repr

/-- What an input of a run is: its mode, shape and bytes as read from its home, with its poisoned blocks. -/
structure RunInput where
  mode : Nat
  format : Nat
  rows : Nat
  rowLen : Nat
  size : Nat
  data : Tab Byte
  poison : List Nat
  /-- Bytes per hub of each stripe, by the stripe's hub (R28, R30). -/
  hubs : List Nat
  handle : Option HKey
  ready : Bool
deriving DecidableEq, Repr

/-- An output of a run: the handle whose tiles it makes, its shape, and its host delivery address (0: none). -/
structure RunOutput where
  key : HKey
  gen : BitVec 8
  format : Nat
  rows : Nat
  rowLen : Nat
  dest : Nat
  data : Tab Byte
  poison : List Nat
  flags : Flags3
deriving DecidableEq, Repr

/-- Why a run is made. -/
inductive RunKind where
  /-- OFFLOAD_FWD, or an OFFLOAD in MODE 2 with original data: outputs are produced. -/
  | produce
  /-- OFFLOAD in MODE 2: the filled handle's tile digests come from the original data (R82). -/
  | regenerate
  /-- Materialization (Table 2-5). -/
  | materialize
  /-- Regeneration of a LATENT input of another run (R78). -/
  | input (parent idx : Nat)
  /-- Reduce-and-update tiles (chapter 12). -/
  | reduce
deriving DecidableEq, Repr

/-- A tile's recorded digests from one of its runs (R264): each output's tile digest and the check digest. -/
structure TileDigests where
  engine : Nat
  outs : List (BitVec 64)
  check : BitVec 64
  data : List (Tab Byte)
  flags : List Flags3
deriving DecidableEq, Repr

/-- A tile whose duplicate runs are being compared (R264), or whose rerun is (R80). -/
structure Dup where
  tile : Nat
  runs : List TileDigests
  poisoned : Bool
deriving DecidableEq, Repr

/-- A lane job (R201): compression of a handle's stripe, or expansion of up to 64 blocks of one; the hub whose lanes do
it, its mover priority, the request it belongs to, and whether that is a restore. -/
structure LaneJob where
  hub : Hub
  key : HKey
  stripe : Nat
  firstBlock : Nat
  blocks : Nat
  compress : Bool
  prio : Nat
  request : Nat
  restoring : Bool
deriving DecidableEq, Repr

/-- A codec lane (R201): retired or not, and the job it does. -/
structure Lane where
  retired : Bool
  job : Option LaneJob
deriving DecidableEq, Repr

/-- A glint request (Table 5-13). -/
structure GlintReq where
  base : BitVec 64
  offset : BitVec 40
  len : BitVec 24
  tag : BitVec 8
deriving DecidableEq, Repr

/-- The reply of a glint to a request (Table 5-13): bytes with their poison marks, and OUT_STATUS. -/
structure GlintReply where
  tag : BitVec 8
  bytes : List Byte
  poison : List Bool
  status : BitVec 3
deriving DecidableEq, Repr

/-- A glint (R205, R206): queued requests, the cache key under which headers are kept, and the replies given. -/
structure Glint where
  queue : List GlintReq
  cache : Option (BitVec 64 × BitVec 32 × BitVec 32)
  replies : List GlintReply
  err : Option (BitVec 3)
deriving DecidableEq, Repr

end Sys2Proof.Machine
end

