-- ==== Sys2Proof/Machine/Types.lean ====
section
/-!
DEFINITION. The types of the state held by handles, rings, plans, weight streams, contexts and tier units
(chapters 02, 03, 04 and 09).
-/
namespace Sys2Proof.Machine

/-! ### Handles (chapter 02) -/

/-- The six fates (Table 2-4). -/
inductive Fate where
  | keep | stash | press | narrow | recompute | drop
deriving DecidableEq, Repr

/-- The handle states other than FREE, whose entries are not listed (Table 2-6). -/
inductive HState where
  | registered | filling | resident | migrating | latent | regenerating | discarded | faulted | freeing
deriving DecidableEq, Repr

/-- Where a home may be placed: the tier (0 none, 2 Shade, 3 Umbra, 4 Penumbra) and the masks (Table 3-7, R129). -/
structure Placement where
  tier : Nat
  hubMask : Nat
  stackMask : Nat
  peer : Nat
deriving DecidableEq, Repr

/-- How a NARROW stripe is stored (chapter 06): narrowed, or FULL with its cause. -/
inductive StripeForm where
  | plain
  | narrowed
  | full (cause : Nat)
deriving DecidableEq, Repr

/-- The home of one stripe (R62): its unit, the form it is stored in, and the unit's epoch as it was placed (R405,
R511). -/
structure Home where
  unit : TierUnit
  form : StripeForm
  epoch : BitVec 32
deriving DecidableEq, Repr

/-- A stripe being copied by a migration (R64 step 3). -/
structure Copy where
  stripe : Nat
  target : Home
deriving DecidableEq, Repr

/-- What a command asks of its completion: the ring, and the fields of its descriptor that the completion needs. -/
structure Ticket where
  ring : Nat
  sseq : BitVec 32
  quiet : Bool
  xres : Bool
  resultAddr : Nat
deriving DecidableEq, Repr

/-- A migration under way (R64). `ticket` is none for a drain and for one the controller began (R67, R120);
`order` ranks migrations by acceptance (R146). -/
structure Mig where
  order : Nat
  fate : Fate
  place : Placement
  prio : Nat
  ticket : Option Ticket
  drain : Bool
  byController : Bool
  todo : List Nat
  copies : List Copy
  committed : Nat
  old : List (Nat × Home)
  ending : Option (BitVec 8)
deriving DecidableEq, Repr

/-- An input recorded with a recipe: its handle and the update count at production (R76). -/
structure RecInput where
  handle : BitVec 64
  updates : BitVec 32
deriving DecidableEq, Repr

/-- The recipe recorded in a handle entry (R76): its operations as the plan held them, its number, inputs,
the handle's output number, the tile count and the dropout key. -/
structure RecipeRef where
  number : Nat
  ops : List (BitVec 256)
  outputs : Nat
  inputs : List RecInput
  outIdx : Nat
  tiles : Nat
  key0 : BitVec 64
  key1 : BitVec 64
deriving DecidableEq, Repr

/-- A fill under way (FILLING): its source and readiness counter, the blocks asked for and read so far, and the recipe run
or the CKPT_RESTORE that fills it. -/
structure Fill where
  ticket : Ticket
  prio : Nat
  ringCtx : Nat
  source : Nat
  readyBlocks : Nat
  readyBase : BitVec 32
  readyHub : Hub
  readyCtr : Nat
  nextBlock : Nat
  blocksIn : Nat
  run : Option Nat
  op : Option Nat
deriving DecidableEq, Repr

/-- A restore that waits for a fill or an UPDATE (R59, R61). -/
structure WaitingRestore where
  ticket : Ticket
  ringCtx : Nat
  offset : Nat
  length : Nat
  dest : Nat
  glint : Bool
  release : Bool
  prio : Nat
  batch : Option (Nat × Nat)
deriving DecidableEq, Repr

/-- The counts of a narrow report (Table 6-7). -/
structure NarrowReport where
  levels : List Nat
  widens : Nat
  classes : List Nat
  unframeable : Nat
  narrowed : Nat
  full : List Nat
  poisonedThrough : Nat
  exhausted : Bool
deriving DecidableEq, Repr

/-- The permissions of a handle entry (Table 9-11, offset 21) and its narrow fields (Table 3-7). -/
structure Perms where
  narrow : Bool
  tolerant : Bool
  mutable : Bool
  producer : Bool
  adaptNarrow : Bool
  pinTier : Bool
  noSwap : Bool
  planned : Bool
  narrowFormat : Nat
  errorBound : Nat
  widenBudget : Nat
deriving DecidableEq, Repr

/-- The size and shape of an object as registered (Table 2-2). -/
structure Shape where
  size : Nat
  format : Nat
  rows : Nat
  rowLen : Nat
  tag : BitVec 16
  set : Nat
deriving DecidableEq, Repr

/-- The digests and sticky flags of a handle (R88, R292, R294). -/
structure Marks where
  digest : BitVec 64
  received : BitVec 64
  tiles : List (BitVec 64)
  tilesKnown : Bool
  ovf : Bool
  ufz : Bool
  nf : Bool
  poison : List Nat
deriving DecidableEq, Repr

/-- A handle entry (Table 2-2). -/
structure Handle where
  key : HKey
  gen : BitVec 8
  shape : Shape
  fate : Fate
  perms : Perms
  place : Placement
  keepAddr : Nat
  state : HState
  readers : Nat
  updates : BitVec 32
  homes : List Home
  recipe : Option RecipeRef
  marks : Marks
  chargeShade : Nat
  chargeUmbra : Nat
  chargePenumbra : Nat
  report : NarrowReport
  content : Tab Byte
  frames : List (Nat × List (List Byte))
  fill : Option Fill
  mig : Option Mig
  waiting : List WaitingRestore
  pendingValue : Option (Tab Byte)
deriving DecidableEq, Repr

/-! ### Rings (chapter 09) -/

/-- The states of a ring pair (Table 9-18); an UNUSED ring is not listed. -/
inductive RingState where
  | active | stopped
deriving DecidableEq, Repr

/-- A descriptor fetched and not yet completed (R309). -/
structure Fetched where
  sseq : BitVec 32
  slot : BitVec 512
  payload : BitVec 1536
deriving DecidableEq, Repr

/-- A ring pair (R301, R304, Table 9-18). -/
structure Ring where
  id : Nat
  ctx : Nat
  state : RingState
  sqOrder : Nat
  cqOrder : Nat
  limit : Nat
  ctrlAddr : Nat
  sqAddr : Nat
  cqAddr : Nat
  sqHead : BitVec 32
  sqTail : BitVec 32
  lastSseq : BitVec 32
  cqTail : BitVec 32
  cqHead : BitVec 32
  held : List (BitVec 128)
  lost : BitVec 32
  lostQueued : Bool
  inflight : List Fetched
  suspect : Option (BitVec 32 × Nat)
  deaf : Bool
  destroying : Option Ticket
deriving DecidableEq, Repr

/-- A completion that waits for fences of more than one host port (R31): `fences` are those not yet answered, `writes`
the tags of the writes each port carried for it. -/
structure FenceWait where
  ticket : Ticket
  status : BitVec 8
  flags : BitVec 3
  kind : BitVec 4
  result : BitVec 64
  xbytes : List Byte
  fences : List (Hub × BitVec 32)
  writes : List (Hub × BitVec 16)
deriving DecidableEq, Repr

/-! ### Plans (chapter 03) -/

/-- A TENSOR record with its FATE record (Tables 3-6 and 3-7). -/
structure PlanTensor where
  obj : Nat
  shape : Shape
  producer : Bool
  mutable : Bool
  fate : Fate
  place : Placement
  perms : Perms
deriving DecidableEq, Repr

/-- A RECIPE record with its op records (Table 3-8). -/
structure PlanRecipe where
  number : Nat
  inputs : Nat
  outputs : Nat
  cost : Nat
  ops : List (BitVec 256)
deriving DecidableEq, Repr

/-- A RESTORE record (Table 3-9). -/
structure PlanRestore where
  obj : Nat
  offset : Nat
  length : Nat
  dest : Nat
  glint : Bool
  release : Bool
deriving DecidableEq, Repr

/-- A batch: its DEADLINE record, its WINDOW's lookahead and its restores (Tables 3-9 to 3-11). -/
structure PlanBatch where
  deadline : Nat
  openTicks : Nat
  openMax : Nat
  afterMark : Nat
  look : Nat
  lookMax : Nat
  restores : List PlanRestore
deriving DecidableEq, Repr

/-- A STREAM record (Table 3-12). -/
structure PlanStream where
  number : Nat
  kind : Nat
  hubMask : Nat
  depth : Nat
  chain : Bool
  prio : Nat
  layerBlocks : Nat
  layers : Nat
deriving DecidableEq, Repr

/-- A policy rule (Table 3-14). -/
structure Rule where
  number : Nat
  priority : Nat
  enable : Bool
  producerSel : Nat
  mutableSel : Nat
  format : Nat
  hsetMask : Nat
  sizeMin : Nat
  sizeMax : Nat
  tagValue : Nat
  tagMask : Nat
  fate : Fate
  place : Placement
deriving DecidableEq, Repr

/-- An accepted plan (R90 to R92): the header fields it is run by, and its records. -/
structure Plan where
  planId : BitVec 64
  stepTicks : Nat
  markCounter : Option (Hub × Nat)
  basePrio : Nat
  prioMax : Nat
  controllerEn : Bool
  guardTicks : Nat
  fillTicks : Nat
  migrateBudget : Nat
  imageBytes : Nat
  tensors : List PlanTensor
  recipes : List PlanRecipe
  batches : List PlanBatch
  streams : List PlanStream
  rules : List Rule
deriving DecidableEq, Repr

/-- A batch of the running step: issued or not, its restores' ends, its mover priority, whether it is widened, the
actions taken on it and the stage of its last evaluation (R108 to R123). -/
structure BatchRun where
  issued : Bool
  done : Bool
  prio : Nat
  widened : Bool
  actions : BitVec 5
  stage : Nat
  /-- The status of each restore that has ended, by its place in the batch. -/
  ended : List (Nat × BitVec 8)
deriving DecidableEq, Repr

/-- The step counters of a context (R124). -/
structure StepCounts where
  completed : Nat
  late : Nat
  lateSum : Nat
  lateWorst : Nat
  priority : Nat
  widen : Nat
  faster : Nat
  unpress : Nat
  narrow : Nat
  none : Nat
  exhausted : Nat
  ties : Nat
deriving DecidableEq, Repr

/-- The running step of a context (R94). `ending` holds STEP_END's ticket and the batches it cancelled. -/
structure StepRun where
  number : BitVec 32
  start : Nat
  batches : List BatchRun
  calm : Nat
  ending : Option (Ticket × Nat)
deriving DecidableEq, Repr

/-! ### Weight streams (chapter 04) -/

/-- An arm entry in a stream's queue (Table 4-6), with the layers fetched, delivery begun and ended so far. -/
structure ArmEntry where
  ticket : Ticket
  sourceObject : Nat
  objectStride : Int
  sourceOffset : Nat
  sourceStride : Int
  dest : Nat
  destStride : Int
  destSlots : Nat
  length : Nat
  count : Nat
  glint : Bool
  stepEn : Bool
  stepLow : Nat
  perLayer : Bool
  signal : Option (Hub × Nat)
  deliverMark : Nat
  markStride : Nat
  releaseMark : Nat
  releaseStride : Nat
  afterUpdate : Nat
  serial : Nat
  fetched : Nat
  started : List Nat
  ended : List (Nat × BitVec 8)
  delivered : Nat
  /-- The entry has ended with ABORTED; it stays listed while deliveries that had started go on (R167). -/
  flushed : Bool
  /-- STEP has been met once (R163): the gate stays open. -/
  gateOpen : Bool
deriving DecidableEq, Repr

/-- The states of a window slot (Table 4-8). -/
inductive SlotState where
  | empty | fetching | ready | delivering | held
deriving DecidableEq, Repr

/-- A slot of a stream's window: its state, the arm entry and layer it holds, its source with the range, size, format
and fate it had, the layer's bytes from its first, and the ports of the hubs that hold it. -/
structure StreamSlot where
  state : SlotState
  entry : Nat
  layer : Nat
  source : Option HKey
  offset : Nat
  size : Nat
  format : Nat
  press : Bool
  ports : List Nat
  data : Tab Byte
  poison : List Nat
  releaseMark : Nat
  flushed : Bool
deriving DecidableEq, Repr

/-- A stream of the context's active plan (R158, R159). -/
structure Stream where
  spec : PlanStream
  queue : List ArmEntry
  nextSerial : Nat
  slots : List StreamSlot
deriving DecidableEq, Repr

/-! ### Contexts -/

/-- One tier's ledger of a context (R135). -/
structure Ledger where
  quota : Nat
  charge : Nat
  peak : Nat
deriving DecidableEq, Repr

/-- A live context: its seed, ledgers, plans, policy table, step, streams, job binding and counters. -/
structure Ctx where
  id : Nat
  seedLo : BitVec 64
  seedHi : BitVec 64
  shade : Ledger
  umbra : Ledger
  penumbra : Ledger
  spills : Nat
  active : Option Plan
  staged : Option Plan
  planRing : Nat
  rules : List Rule
  step : Option StepRun
  counts : StepCounts
  exhausted : List Nat
  streams : List Stream
  binding : Option (BitVec 64 × BitVec 32)
  /-- The mark (R94, R96, R168), and the number of the last step begun (R163). -/
  mark : BitVec 32
  lastStep : Option (BitVec 32)
deriving DecidableEq, Repr

/-! ### Units of the tiers (R148) -/

/-- The states of a unit (Table 4-5). -/
inductive UnitState where
  | inService | reduced | frozen | emptied | out
deriving DecidableEq, Repr

end Sys2Proof.Machine
end

