-- ==== Sys2Proof/Machine/CollTypes.lean ====
section
/-!
DEFINITION. The state of collective groups (chapter 12).
-/
namespace Sys2Proof.Machine

/-- The states of a group slot in use (R423). -/
inductive GState where
  | forming | ready | broken
deriving DecidableEq, Repr


/-- Elements held for a collective: the message kind, the rank they come from (this member's own included), the codes by
element index as they travel, and the poisoned slabs. -/
structure CollBuf where
  kind : Nat
  rank : Nat
  elems : List (Nat × Nat)
  poison : List Nat
deriving DecidableEq, Repr

/-- A move table entry (Table 12-10). -/
structure MoveEntry where
  srcRank : Nat
  dstRank : Nat
  srcT : Nat
  dstT : Nat
  srcOffset : Nat
  dstOffset : Nat
  length : Nat
deriving DecidableEq, Repr

/-- The pending value a REDUCE_UPDATE left for one handle, and its pending stripes (R444). -/
structure Pend where
  key : HKey
  homes : List Home
  bytes : Tab Byte
deriving DecidableEq, Repr

/-- A REDUCE_UPDATE of a step not yet sealed: its pending values, its weight handle and DEST, the digest of the pending
weights, and whether it met a non-finite value or failed (R444 to R447). -/
structure PendUpdate where
  seq : BitVec 32
  step : BitVec 32
  values : List Pend
  w : Option HKey
  dest : Nat
  digest : BitVec 64
  nf : Bool
  failed : Bool
deriving DecidableEq, Repr

/-- A collective of a group, queued or started (R425 to R457): its operands, its sources and handles as received, what
has come in, the slabs done at each stage, and for PERMUTE the move table, the pieces landed and who is done. -/
structure Coll where
  seq : BitVec 32
  opcode : Nat
  ticket : Ticket
  ctx : Nat
  prio : Nat
  ops : BitVec 384
  payload : BitVec 1536
  started : Bool
  chk : BitVec 16
  handles : List (Option HKey)
  reads : List HKey
  src : List (Tab Byte)
  srcPoison : List Nat
  bufs : List CollBuf
  partials : List Nat
  totals : List Nat
  results : List (Nat × Nat)
  resultSlabs : List Nat
  resultPoison : List Nat
  flags : BitVec 3
  table : List MoveEntry
  landed : List (Nat × Nat)
  received : Nat
  doneRanks : List Nat
  seals : List SealRecord
  since : Nat
deriving DecidableEq, Repr

/-- A message of a collective that this member has not started: the rank that sent it, and its record where it is a
COLL_SEAL. -/
structure EarlyMsg where
  rank : Nat
  msg : CollMsg
  record : Option SealRecord
deriving DecidableEq, Repr

/-- A formation record that came before GROUP_CREATE: its slot, its sender and its round. -/
structure EarlyForm where
  slot : Nat
  pkg : BitVec 64
  round2 : Bool
  record : FormRecord
deriving DecidableEq, Repr

/-- A group slot in use (R418 to R424). `round1` and `round2` hold the records received, `sent1` and `sent2` the ranks
told; `seen` every COLL_SEQ received (R426) and `aborted` those aborted, with the reason; `sealedSteps` the steps sealed
(R446). -/
structure Group where
  slot : Nat
  state : GState
  ctx : Nat
  ticket : Option Ticket
  since : Nat
  timeoutMs : Nat
  key : BitVec 64
  d1 : Nat
  d2 : Nat
  split : Nat
  seedLo : BitVec 64
  seedHi : BitVec 64
  members : List (BitVec 64)
  rank : Nat
  digest : BitVec 64
  minor : Nat
  round1 : List FormRecord
  round2 : List (Nat × Nat)
  sent1 : List Nat
  sent2 : List Nat
  seen : List (BitVec 32)
  lastStarted : BitVec 32
  colls : List Coll
  early : List EarlyMsg
  openStep : Option (BitVec 32)
  sealedSteps : List (BitVec 32)
  pend : List PendUpdate
  aborted : List (BitVec 32 × BitVec 8)
deriving DecidableEq, Repr

end Sys2Proof.Machine
end

