-- ==== Sys2Proof/Machine/LinkTypes.lean ====
section
/-!
DEFINITION. The state of the chip-to-chip links, of the peers they reach, and of the requests sent over them
(chapters 11 and 14).
-/
namespace Sys2Proof.Machine

/-- The states of a link, in the order of Table 11-4. -/
inductive LState where
  | off | training | hello | up | reduced | retrain | l1 | downVersion | failed | quenched
deriving DecidableEq, Repr

/-- A message waiting to be sent or not yet acknowledged (Tables 11-2 and 11-3). `wseq` is given when a PN_WR is
queued (R399, R406). -/
structure LMsg where
  typ : Nat
  addr : BitVec 48
  arg : BitVec 64
  tag : BitVec 16
  status : Nat
  poison : Bool
  prio : Nat
  wseq : BitVec 32
  bcrc : BitVec 32
  /-- The bytes a PN_RD asks for, which its LEN_M1 names; 0 in any other message. -/
  readLen : Nat
  data : List Byte
deriving DecidableEq, Repr

/-- A frame kept until an ACK covers it (R394): the message header it carries, how many of its data flits hold that
message's data, its resends and whether LANE_SWAP is set. -/
structure UFrame where
  seq : BitVec 16
  msg : Option LMsg
  flits : Nat
  resends : Nat
  swap : Bool
  power : Bool
deriving DecidableEq, Repr

/-- What a peer's last HELLO said (Table 11-6). -/
structure PeerHello where
  pkg : BitVec 64
  hub : BitVec 8
  link : BitVec 8
  major : BitVec 8
  compat : BitVec 8
  minorMax : BitVec 8
  minorCap : BitVec 8
  epoch : BitVec 32
  session : BitVec 32
  slot : BitVec 8
  patch : BitVec 16
deriving DecidableEq, Repr

/-- The error counts of a link (Table 11-12). -/
structure LinkCounts where
  corrected : Nat
  uncorrectable : Nat
  resent : Nat
  retrains : Nat
  dataSent : Nat
  dataReceived : Nat
  refused : Nat
deriving DecidableEq, Repr

/-- A chip-to-chip link (R384 to R417). `map` holds the physical lanes of the rotation, logical lane 0 first;
`spareState` is the code of Table 11-12. -/
structure Link where
  state : LState
  map : List Nat
  bad : List Nat
  spare : Nat
  spareState : Nat
  localTrained : Bool
  peerTrained : Bool
  ber : Tab (BitVec 32)
  txSeq : BitVec 16
  queue : List LMsg
  unacked : List UFrame
  nakSeen : Bool
  swapPending : Bool
  rxExpect : BitVec 16
  ackOut : BitVec 16
  nakOut : Bool
  laneBadOut : BitVec 3
  session : BitVec 32
  wseq : BitVec 32
  landed : BitVec 32
  landedAhead : List Nat
  peer : Option PeerHello
  major : Nat
  minor : Nat
  trainFails : Nat
  trainFirst : Nat
  trainSince : Nat
  idleSince : Nat
  l1Us : Nat
  counts : LinkCounts
  countsAt : LinkCounts
  credits : List (Nat × Nat)
deriving DecidableEq, Repr

/-- What this Aedvos keeps about a peer reached over links, by the peer's package identity (R133, R137, R402, R405):
grants given and received, the window frames mapped here and their bytes, the epoch its Penumbra homes were placed
under, the stripes placed there, and since when no link of its bundle has been up. -/
structure Peer where
  pkg : BitVec 64
  grantGiven : Nat
  grantHeld : Nat
  frozen : Bool
  out : Bool
  epoch : BitVec 32
  lost : Bool
  frames : List Nat
  frameStacks : List (Nat × Nat)
  window : Tab Byte
  poison : List Nat
  downSince : Option Nat
deriving DecidableEq, Repr

/-- A remote signal sent and not yet done (R406 to R409). -/
structure TxSignal where
  number : BitVec 32
  pkg : BitVec 64
  addr : BitVec 48
  increment : BitVec 32
  marks : List (BitVec 64)
  link : Nat
  since : Nat
  ticket : Option Ticket
deriving DecidableEq, Repr

/-- A SIGNAL received and held until its marks have landed (R407). -/
structure RxSignal where
  pkg : BitVec 64
  number : BitVec 32
  hub : Nat
  ctr : Nat
  increment : BitVec 32
  marks : List (BitVec 64)
deriving DecidableEq, Repr

/-- A Penumbra-type request sent and not yet answered: read or write, where to, and the command it belongs to. -/
structure PnReq where
  tag : BitVec 16
  link : Nat
  write : Bool
  addr : BitVec 48
  len : Nat
  prio : Nat
  poison : Bool
  data : List Byte
  since : Nat
  op : Nat
  /-- A check value failed once, and the request is out again (R523). -/
  again : Bool
deriving DecidableEq, Repr

/-! ### Vault images and the commands that reach a holder (chapter 14) -/

/-- The states of a vault slot (Table 14-9); a FREE slot is not listed. -/
inductive ImgState where
  | writing | sealed
deriving DecidableEq, Repr

/-- An image held in the vault (R490 to R503): `data` by image offset, its poisoned blocks, the peer that created it, the
tick its last block came, and the rank of its seal. -/
structure Image where
  slot : Nat
  state : ImgState
  kind : Nat
  key : BitVec 64
  rank : BitVec 16
  ckptNo : BitVec 32
  frames : Nat
  incomplete : Bool
  orphan : Bool
  poison : List Nat
  creator : BitVec 64
  lastBlock : Nat
  order : Nat
  data : Tab Byte
deriving DecidableEq, Repr

/-- A request block's fields (R499). -/
structure VaultReq where
  op : Nat
  kind : Nat
  retain : Nat
  rank : BitVec 16
  key : BitVec 64
  ckptNo : BitVec 32
  frames : Nat
  slot : Nat
deriving DecidableEq, Repr

/-- How far a command of chapter 14 that works at a holder has come: its request block is on its way, or its result is;
image blocks, or the manifest, are on their way out; the manifest's first block, all of it, or the stripes are on their
way in. -/
inductive RemotePhase where
  | ask | result | write | manifest | readHead | readMan | readAll
deriving DecidableEq, Repr

/-- A command that works at a holder, or the poll of R504: its request and where it goes, the image as captured or as read
with the image offsets of its blocks to send, its readers, and the requests it has out. -/
structure RemoteOp where
  id : Nat
  phase : RemotePhase
  opcode : Nat
  ticket : Option Ticket
  ctx : Nat
  pkg : BitVec 64
  prio : Nat
  vtag : Nat
  vlink : Nat
  req : VaultReq
  slot : Option Nat
  image : Tab Byte
  imagePoison : List Nat
  blocks : List Nat
  readers : List HKey
  status : BitVec 8
  address : Nat
  count : Nat
  allow : Bool
  setSeed : Bool
  outstanding : List (BitVec 16)
deriving DecidableEq, Repr

/-- An image this Aedvos's contexts wrote at a holder since RST_N (R504). -/
structure OwnImage where
  pkg : BitVec 64
  ctx : Nat
  slot : Nat
  ckptNo : BitVec 32
  reported : Bool
deriving DecidableEq, Repr

end Sys2Proof.Machine
end

