-- ==== Sys2Proof/Machine/MoverTypes.lean ====
section
/-!
DEFINITION. The state of mover channels and of the sync block (chapters 10 and 13).
-/
namespace Sys2Proof.Machine

/-! ### Mover channels -/

/-- The states of a channel (Table 10-5). -/
inductive ChanState where
  | idle | running | halted | waiting
deriving DecidableEq, Repr

/-- A mover channel (Tables 10-2 to 10-5). `shadow` and `active` hold the register sets by word offset (0 to 6 source,
8 to 14 destination, 16 MOV_CTRL, 17 and 18 the fill constant). `done` is the position of the next burst in the stream
and `passed` how many arbiters that burst has passed; `asked` and `got` hold the reads of the peer's window it has out and
has back; `fence` is the fence of SYNC HOST; `time` and `since` serve RATE (R368, R374); `aborting` and `halting` say what
happens at the end of the burst in progress (R365, R376). -/
structure Channel where
  shadow : Tab (BitVec 32)
  active : Tab (BitVec 32)
  state : ChanState
  shadowValid : Bool
  last : BitVec 3
  cfgErr : BitVec 4
  lateWrite : Bool
  poisonSeen : Bool
  progress : BitVec 64
  err : BitVec 64
  errInfo : BitVec 32
  cmpCount : BitVec 32
  cmpFirst : BitVec 64
  checkFail : BitVec 32
  prio : BitVec 3
  done : Nat
  passed : Nat
  asked : Option (BitVec 16)
  got : List (List Byte × Bool)
  fence : Option (BitVec 32)
  time : Nat
  since : Nat
  aborting : Bool
  halting : Bool
deriving DecidableEq, Repr

/-- A block of a Shade bank or stack as the movers reach it: bytes and the poisoned blocks, by byte and block number
within the unit (R357 to R360). -/
structure UnitMem where
  bytes : Tab Byte
  poison : List Nat
deriving DecidableEq, Repr

/-- The movers of a hub: 64 logical channels, which physical channel serves each, retired and spare ones, direct mode,
and the arbiters' pointers by port and priority (R347, R366, R378 to R382). -/
structure Movers where
  chans : Tab Channel
  phys : Tab Nat
  spares : List Nat
  lost : List Nat
  directReq : BitVec 4
  directGranted : BitVec 4
  directDenied : Bool
  directWanted : Option (BitVec 4)
  evtHalt : BitVec 8
  evtDone : BitVec 8
deriving DecidableEq, Repr

/-! ### The sync block (chapter 13) -/

/-- A hardware lock (R486). -/
inductive LockState where
  | free
  | held (by_ : BitVec 8)
  | abandoned (by_ : BitVec 8)
deriving DecidableEq, Repr

/-- The sync block of a hub. Host-visible counters, their SYN_CTR_CFG (unlisted: the reset value, REALIGN 1),
realignment counts and last post totals; core counters by core × 32 + number; event routes; locks; and the counters
whose mirror word is to be written. -/
structure Sync where
  ctrs : Tab (BitVec 32)
  cfg : Tab (BitVec 32)
  realigns : Tab Nat
  lastPost : Tab (BitVec 32)
  coreCtrs : Tab (BitVec 32)
  routes : Tab Route
  emptyPulses : Nat
  dirty : List Nat
  locks : Tab LockState
  badReleases : Nat
  foreign : Nat
  ctrl : BitVec 32
  baseLo : BitVec 32
  baseHi : BitVec 32
  sel : BitVec 32
deriving DecidableEq, Repr

/-- What a hub does with a beacon line (R475, R476). -/
inductive BeaconPhase where
  /-- The hub takes no part, or is off: the line stays released. -/
  | out
  /-- Asserted, not yet arrived. -/
  | asserting
  /-- Released: the hub has arrived. -/
  | released
  /-- Within the hold time after a completion. -/
  | hold
deriving DecidableEq, Repr

/-- The states of SYN_BAR_STATUS (Table 13-10). -/
inductive BarState where
  | disabled | waiting | arrived | fault
deriving DecidableEq, Repr

/-- A barrier slot (R478 to R483): its registers, state, generation count, when its package arrived, the ranks heard
from for the current generation and the next, and each hub's beacon phase. -/
structure BarSlot where
  cfg : BitVec 32
  cfg2 : BitVec 32
  state : BarState
  cause : BitVec 2
  gen : Nat
  arrivedAt : Nat
  arrive0 : List Nat
  arrive1 : List Nat
  line0 : List Nat
  line1 : List Nat
  lineDoneSent : Bool
  beacon : Vector BeaconPhase 4
deriving DecidableEq, Repr

end Sys2Proof.Machine
end

