-- ==== Sys2Proof/Machine/SupportTypes.lean ====
section
/-!
DEFINITION. The state of the support blocks: reliability and self-test, power and timing, start-up and signals, the
event recorder and history store, and the register access paths (chapters 15 to 20).
-/
namespace Sys2Proof.Machine

/-! ### Reliability and self-test (chapters 15 and 16) -/

/-- A finding kept for the decision of R531: signature (unit and class), tick, and whether the store held it. -/
structure Finding where
  unit : UnitName
  cls : Nat
  tick : Nat
  stored : Bool
deriving DecidableEq, Repr

/-- A unit out of service for a test: targeted (R530) or in-field (R564), since when, under which pack, and the
finding's class. -/
structure UnderTest where
  unit : UnitName
  field : Bool
  since : Nat
  pack : Nat
  packVersion : BitVec 32
  cls : Nat
deriving DecidableEq, Repr

/-- A unit due for its in-field test (R564, R565). -/
structure Due where
  unit : UnitName
  since : Nat
deriving DecidableEq, Repr

/-- The ECC and repair state of a hub's Shade and of the stacks (R514 to R541), sparse by unit number: rows replaced,
slices replaced or retired, frames retired, pseudo-channels in erasure mode, and correction counts. -/
structure Repair where
  rowMap : List (Nat × Nat × Nat)
  sliceUsed : List (Nat × Nat × Nat)
  sliceRetired : List (Nat × Nat × Nat)
  frameMap : List (Nat × Nat × Nat)
  erasure : List (Nat × Nat × Nat)
  corrected : List (UnitName × Nat)
  locations : Tab Nat
  retired : List UnitName
deriving DecidableEq, Repr

/-- A CPER vendor section in the store (R545, Table 15-10). -/
structure Cper where
  seq : BitVec 32
  section_ : List Byte
  severity : Nat
deriving DecidableEq, Repr

/-- A self-test slice by its row of Table 16-1: hub, row (0 CORE to 9 STACK) and unit number within the row. -/
structure Slice where
  hub : Nat
  row : Nat
  unit : Nat
deriving DecidableEq, Repr

/-- A slice running: since which tick it runs (R554). -/
structure RunningSlice where
  slice : Slice
  since : Nat
  pace : Nat
  /-- It runs for a transient decision, not in cursor order (R558). -/
  asDue : Bool
deriving DecidableEq, Repr

/-- A unit record of a run (Table 16-2). -/
structure UnitRecord where
  run : BitVec 32
  unit : UnitName
  result : Nat
  decision : Nat
  pack : Nat
  packVersion : BitVec 32
  coverage : Nat
  fails : Nat
  durationUs : Nat
  pace : Nat
deriving DecidableEq, Repr

/-- A run summary (Table 16-3). -/
structure RunSummary where
  run : BitVec 32
  kind : Nat
  endCause : Nat
  budgetMs : Nat
  usedMs : Nat
  slices : Nat
  passes : Nat
  fails : Nat
  timeouts : Nat
  left : Nat
  dueRun : Nat
  hubCursors : List Nat
  stackCursors : List Nat
  coverage : List Nat
deriving DecidableEq, Repr

/-- A failing-address entry (Table 16-4). -/
abbrev FailEntry := BitVec 128

/-- The self-test of the package: registers, cursors, the present run and the records kept (R549 to R569). -/
structure Bist where
  budgetMs : Nat
  en : Bool
  umbraEn : Bool
  state : BitVec 2
  refused : Bool
  slices : Nat
  failed : Nat
  run : BitVec 32
  hubCursor : List Nat
  stackCursor : List Nat
  ranThisRun : List Slice
  running : List RunningSlice
  due : List Slice
  dueRan : Nat
  c5Missed : List Nat
  kind : Nat
  runBudgetMs : Nat
  since : Nat
  records : List UnitRecord
  summaries : List RunSummary
  fails : List FailEntry
  timedOut : List UnitName
  passes : Nat
  runFails : Nat
  runTimeouts : Nat
  stopCause : Nat
  /-- The summary of the last run has been appended. -/
  closed : Bool
  /-- Units found permanent by the last run, whose records are written at the next start (R562). -/
  decided : List UnitName
  /-- The budget of a shut-down under way: the one that held when it began (R550). -/
  shutBudgetMs : Nat
deriving DecidableEq, Repr

/-- The reliability state of a hub: working cores, roles, scrubber registers, in-field test and spares in use. -/
structure HubHealth where
  coresRetired : List Nat
  roles : List (Nat × Nat)
  degraded : Bool
  lost : Bool
  lostCause : Nat
  scrub : BitVec 32
  field : BitVec 32
  due : List Due
  testing : List UnderTest
  enginesRetired : List Nat
  engineSpare : Option Nat
  splice : Option Nat
  hours : List (UnitName × Nat)
deriving DecidableEq, Repr

/-! ### Power and timing (chapter 17) -/

/-- The states of a power domain (R585): 0 OFF, 1 RAMPING, 2 RETAIN, 3 ON. -/
inductive DState where
  | off | ramping | retain | on
deriving DecidableEq, Repr

/-- A power domain of a hub: its state, whether it is restoring after its ramp, since when it has been idle, and the
values the power manager keeps for it in 1/8 W (R590 to R596). -/
structure Domain where
  state : DState
  restoring : Bool
  idleSince : Option Nat
  power : Nat
  base : Nat
  allowance : Nat
  lent : Nat
  longWaiting : Bool
  demand : Nat
  stalled : Nat
deriving DecidableEq, Repr

/-- The power and pace state of a hub (R572 to R596, Tables 17-10 and 17-11). Domains are numbered as PWR_DOMAIN
numbers them. -/
structure HubPower where
  domains : List Domain
  silicon : List (BitVec 16)
  delivered : List (BitVec 16)
  status : BitVec 2
  capping : Bool
  overCap : Bool
  thermal : Bool
  tbclkOk : Bool
  aligned : Bool
  slips : Nat
  slipCap : Bool
  clean : Nat
  scale : Nat
  idle : BitVec 32
  idleStack : BitVec 32
  trip : BitVec 8
  throttle : BitVec 8
  hottest : BitVec 8
  hottestStack : BitVec 8
  tickHi : BitVec 32
  hubSlot : List Nat
  stackSlot : List Nat
  pllLocked : Bool
  lowSilicon : List Nat
  lowDelivered : List Nat
  sumDelivered : List Nat
  windows : Nat
  periodSlips : Nat
deriving DecidableEq, Repr

/-- The package's power manager (R579, R590 to R597): the modes in force and those written for the next window. -/
structure PowerMgr where
  mode : BitVec 32
  modeInForce : BitVec 32
  cap : BitVec 32
  capInForce : Nat
  power : Nat
  lentTotal : Nat
  budget : Int
  windows : Nat
  withdrawn : Bool
deriving DecidableEq, Repr

/-- The calibration of a stack PHY, link lane or host-port module (R598 to R600), by the unit code of R647: flagged
provisional, or drifted. -/
inductive CalState where
  | confirmed | provisional | drift
deriving DecidableEq, Repr

/-! ### Start-up and signals (chapter 18) -/

/-- The start levels of Table 18-3 below UMBRA and LINKS, which are kept apart (R606). -/
inductive Level where
  | off | reset | core | ring
deriving DecidableEq, Repr

/-- The stages of an orderly shut-down (R614, R615). -/
inductive ShutState where
  | none
  | grace (until_ : Nat)
  | draining (warm : Bool) (until_ : Nat) (ticket : Option Ticket)
  /-- The shut-down test, which has still to begin while `due` holds (R549). -/
  | testing (warm : Bool) (due : Bool)
  | offReady
deriving DecidableEq, Repr

/-- The quench logic (R619 to R624, Table 18-12): levels, timer, cause (0 none to 4, 5 SUPPLY, 6 RESET). -/
structure Quench where
  state : BitVec 2
  cause : BitVec 3
  wiringFault : Bool
  aHigh : Bool
  bHigh : Bool
  aSince : Nat
  bSince : Nat
  timerFrom : Option Nat
  timerMs : Nat
  clearReady : Bool
  clearRefused : Bool
  events : Nat
  discMs : BitVec 6
  highSince : Nat
deriving DecidableEq, Repr

/-- The sideband pins the Aedvos drives and the registers that drive them (R601, R625, R632). MF pins are listed with
their function and, while releasing, the tick at which the release may end. -/
structure Pins where
  pgood : Bool
  rstN : Bool
  shdnReqLow : Bool
  alertCause : BitVec 8
  alertMask : BitVec 8
  ibiEn : Bool
  /-- The in-band interrupts raised, each by the data byte hub 0 carries with it (R603, R658). -/
  ibis : List (BitVec 8)
  offReady : Bool
  mfSel : BitVec 48
  mfOut : BitVec 12
  mfReleasing : List (Nat × Nat)
  wakePulses : Nat
  spiActive : Bool
  shdnCfg : BitVec 32
  paceOut : Bool
deriving DecidableEq, Repr

/-- A firmware slot's states (R630). -/
inductive SlotSt where
  | empty | valid | activeTrial | active | bad
deriving DecidableEq, Repr

/-- A firmware slot of the history store with its signed image (Table 18-8, R630). -/
structure FwSlot where
  state : SlotSt
  tries : Nat
  keyId : BitVec 8
  version : BitVec 32
  svn : BitVec 16
  payloadLen : BitVec 32
  digest8 : BitVec 64
  image : List Byte
deriving DecidableEq, Repr

/-- A pattern pack (R543, R544). -/
structure Pack where
  id : BitVec 16
  version : BitVec 32
  kinds : BitVec 32
  image : List Byte
  order : Nat
deriving DecidableEq, Repr

/-- The firmware of the package: slots, packs, fuse counters, revoked keys, and which cores have switched their patch
bank (R628 to R631). -/
structure Firmware where
  slotA : FwSlot
  slotB : FwSlot
  packs : List Pack
  svnFuse : BitVec 16
  packFuse : BitVec 16
  revoked : List Nat
  inUse : Option Nat
  switched : List (Nat × Nat)
  patchLevel : BitVec 16
  hubPatch : List (BitVec 16)
  fellBack : Bool
deriving DecidableEq, Repr

/-! ### The event recorder and the history store (chapter 19) -/

/-- An event before it is recorded: CODE, CLASS, UNIT_KIND, UNIT_INDEX and DETAIL (Table 19-1). -/
structure Event where
  code : Nat
  cls : Nat
  kind : Nat
  index : Nat
  detail : BitVec 64
deriving DecidableEq, Repr

/-- An event in a recorder's queue: the drops since the event accepted before it, and the tick it was received. -/
structure Queued where
  drops : Nat
  tick : Nat
  event : Event
deriving DecidableEq, Repr

/-- An event record (Table 19-1); RCRC follows from the rest. -/
structure EvRecord where
  seq : BitVec 32
  event : Event
  hub : Nat
  repeats : Nat
  first : Nat
  last : Nat
deriving DecidableEq, Repr

/-- The recorder of a hub (R633 to R639): records by slot, the counter, how many records since RST_N or a full clear,
the queue of events not yet recorded, and its registers. -/
structure Recorder where
  slots : Tab EvRecord
  newest : BitVec 32
  newestSlot : Nat
  count : Nat
  circ : Nat
  queue : List Queued
  written : Nat
  dropped : Nat
  droppedSince : Nat
  repeatEn : Bool
  en : Bool
  authFail : Bool
  readSlot : BitVec 12
  latched : List Byte
  ctxSel : BitVec 12
deriving DecidableEq, Repr

/-- A journal entry (R646, Table 19-5): TYPE, JSEQ, package epoch, the key under which a later entry replaces it, and
its payload. -/
structure JEntry where
  typ : Nat
  jseq : BitVec 32
  epoch : BitVec 32
  block : Nat
  torn : Bool
  key : Nat
  hub : Nat
  records : List EvRecord
  payload : List Byte
deriving DecidableEq, Repr

/-- The history store (R642 to R650, R678, R679): superblock, token, journal and its head. -/
structure Store where
  readable : Bool
  valid : Bool
  ready : Bool
  empty : Bool
  fault : Bool
  faults : Nat
  stopped : Bool
  token : Option (BitVec 256)
  journal : List JEntry
  jseq : BitVec 32
  head : Nat
  used : Nat
  erased : Nat
  erases : Tab Nat
  bytesInBlock : Nat
deriving DecidableEq, Repr

/-- The authority checks (R643): the nonce and when it was given, the failures of the last hour, the lock-out. -/
structure Authority where
  nonce : Option (BitVec 64 × Nat)
  fails : List Nat
  lockedAt : Option Nat
deriving DecidableEq, Repr

/-- A latched telemetry snapshot of one page and index: its 128 bytes (R651). -/
structure Snapshot where
  page : Nat
  index : Nat
  bytes : List Byte
deriving DecidableEq, Repr

/-! ### Register access paths and JTAG (chapters 20 and 21) -/

/-- The register access state of a hub (Tables 20-4 to 20-9): plain registers, flags, the mailbox's last request, and
the I3C offset. -/
structure HubRegs where
  scratch : BitVec 32
  mboxEn : Bool
  watchEn : Bool
  badAccess : Bool
  notHere : Bool
  crcFails : Nat
  regErr : BitVec 32
  mbSeq : BitVec 32
  mbCrc : BitVec 32
  i3cOffset : Option (BitVec 16)
  i3cOut : List Byte
  laneBer : BitVec 32
  lnkIdle : BitVec 16
  startEn : BitVec 8
  startLatched : BitVec 8
deriving DecidableEq, Repr

/-- A TAP of the JTAG chain (R692, R693). -/
structure Tap where
  ir : BitVec 8
  boundary : List Bool
deriving DecidableEq, Repr

end Sys2Proof.Machine
end

