-- ==== Sys2Proof/Machine/RunTypes.lean ====
section
/-!
DEFINITION. The state of recipe runs, of the codec and of the host ports (chapters 05, 07 and 09), and the groups of
fields State is made of.
-/
namespace Sys2Proof.Machine

/-- A tile that waits for an engine of its hub (R237), in the role it is to run, the engines it may not run on, and the
SIGNALs a retired run of it had issued (R269, R462). -/
structure TileWait where
  hub : Hub
  tile : Nat
  role : TileRole
  notOn : List Nat
  skip : Nat
deriving DecidableEq, Repr

/-- A recipe run (R234 to R264): its recipe, key, inputs and outputs as taken at acceptance, the tiles still to start
and those that stand, and how it ends. -/
structure Run where
  id : Nat
  kind : RunKind
  ticket : Option Ticket
  ctx : Nat
  prio : Nat
  number : Nat
  ops : List (BitVec 256)
  key0 : BitVec 64
  key1 : BitVec 64
  inputs : List RunInput
  outputs : List RunOutput
  tiles : Nat
  tolerant : Bool
  todo : List TileWait
  standing : List Nat
  dups : List Dup
  disagreed : Nat
  sampled : Nat
  status : BitVec 8
  restore : Option WaitingRestore
  target : Option HKey
deriving DecidableEq, Repr

/-! ### The host ports (R338 to R346) -/

/-- What a host-port read is for. -/
inductive ReadUse where
  | readyBlock (k : HKey) (block : Nat)
  /-- The exchange of a word of the summary bitmap, by its number. -/
  | summary (word : Nat)
  | other
deriving DecidableEq, Repr

/-- A message sent at a host port: TYPE, address, tag, ARG and length (Table 9-20). Its bytes have reached host memory
as it was sent. -/
structure HMsg where
  typ : Nat
  addr : Nat
  tag : BitVec 16
  arg : BitVec 32
  len : Nat
deriving DecidableEq, Repr

/-- A control flit kept until it is acknowledged (R344). -/
structure HFlit where
  seq : BitVec 16
  msg : HMsg
  resends : Nat
deriving DecidableEq, Repr

/-- A request out at a host port: its tag, address and when it was sent. -/
structure PortReq where
  tag : BitVec 16
  addr : Nat
  len : Nat
  since : Nat
  use : ReadUse
deriving DecidableEq, Repr

/-- A fence out at a host port, with the ticket of the request whose data it was sent behind (R31, R346). -/
structure PortFence where
  number : BitVec 32
  since : Nat
deriving DecidableEq, Repr

/-- The tag of the writes a mover channel's transfer sent, and whether the transfer's pulse has been raised (R376). -/
structure PortWrite where
  tag : BitVec 16
  ch : Nat
  late : Bool
deriving DecidableEq, Repr

/-- A hub's host port. -/
structure HostPort where
  modules : BitVec 16
  retraining : Bool
  txSeq : BitVec 16
  unacked : List HFlit
  waiting : List HMsg
  msgCredits : Nat
  dataCredits : Nat
  rxExpect : BitVec 16
  ackOut : BitVec 16
  nakOut : Bool
  nakSeen : Bool
  reads : List PortReq
  writes : List PortWrite
  swaps : List PortReq
  fences : List PortFence
  nextTag : BitVec 16
  nextFence : BitVec 32
deriving DecidableEq, Repr

/-! ### Groups of fields -/

/-- Host memory as the surroundings hold it, and the marks of poisoned bytes (R342, R343). -/
structure HostSide where
  mem : Tab Byte
  poison : Tab Bool
deriving DecidableEq, Repr

/-- Handle entries and the last generation issued to each object (R38, R41). -/
structure HandleStore where
  list : List Handle
  gens : List (HKey × BitVec 8)
deriving DecidableEq, Repr

/-- A completion entry in a hub's written window (R332): its ring, CSEQ and 16 bytes. -/
structure Written where
  ring : Nat
  cseq : BitVec 32
  entry : BitVec 128
deriving DecidableEq, Repr

/-- Rings, completions and host ports. `attaching` is HUB_STATUS.ATTACH_BUSY, with the CQ_TAIL that the last accepted write
of HUB_ADMIN_ATTACH wrote (R337, R671). -/
structure RingStore where
  list : List Ring
  windows : Vector (List Written) 4
  fenceWaits : List FenceWait
  ports : Vector HostPort 4
  adminReg : BitVec 57
  adminUsed : BitVec 57
  attaching : Option (BitVec 32)
deriving DecidableEq, Repr

/-- Units of the tiers (R148) and unit epochs (R511). -/
structure UnitStore where
  shade : Vector UnitState 64
  stack : Vector UnitState 8
  bankPtr : Vector Nat 4
  epochs : List (UnitName × BitVec 32)
  markers : Vector (Option (BitVec 32)) 8
  selfRefresh : Vector Bool 8
deriving DecidableEq, Repr

/-- A restore whose blocks the lanes expand before they are delivered (R197): its number, how many of its lane jobs
remain, and how many blocks were expanded again. -/
structure LaneRequest where
  id : Nat
  key : HKey
  restore : WaitingRestore
  retries : Nat
deriving DecidableEq, Repr

/-- Codec lanes, the jobs that wait for them in order, the requests they expand for, the request that last had its turn
at each hub (R201), stripes whose narrow form failed its verifier twice (R227), and glints. -/
structure CodecStore where
  streamId : BitVec 32
  lanes : Vector (Vector Lane 18) 4
  jobs : List LaneJob
  requests : List LaneRequest
  nextRequest : Nat
  turn : Vector Nat 4
  unverified : List (HKey × Nat)
  glints : Tab Glint
deriving DecidableEq, Repr

/-- Engines (numbered hub × 13 + engine), runs, the engine after which the next wave starts (R238), and waves. -/
structure EngineStore where
  engines : Tab Engine
  runs : List Run
  nextRun : Nat
  lastFirst : Vector Nat 4
  waves : Vector Nat 4
deriving DecidableEq, Repr

/-- Movers, the raw bytes of banks (0 to 63) and stacks (64 to 71) as they reach them, and arbiter pointers (R366). -/
structure MoverStore where
  hubs : Vector Movers 4
  mem : Tab UnitMem
  pointers : List ((MovPort × Nat) × Nat)
deriving DecidableEq, Repr

/-- Links and what is sent over them. -/
structure LinkStore where
  links : Vector Link 32
  peers : List Peer
  cap : BitVec 8
  txSignals : List TxSignal
  rxSignals : List RxSignal
  raised : List (BitVec 64 × BitVec 32)
  nextSignal : BitVec 32
  reqs : List PnReq
  nextTag : BitVec 16
  epoch : BitVec 32
deriving DecidableEq, Repr

/-- The vault and the commands that work at holders. -/
structure VaultStore where
  images : List Image
  requests : List ((Nat × Nat) × VaultReq)
  results : List ((Nat × Nat) × List Byte)
  ops : List RemoteOp
  nextOp : Nat
  order : Nat
  own : List OwnImage
deriving DecidableEq, Repr

/-- Sync blocks and barrier slots. -/
structure SyncStore where
  hubs : Vector Sync 4
  bars : Vector BarSlot 8
deriving DecidableEq, Repr

/-- Reliability and self-test. -/
structure Reliability where
  hubs : Vector HubHealth 4
  repair : Repair
  findings : List Finding
  cpers : List Cper
  cperSeq : BitVec 32
  bist : Bist
deriving DecidableEq, Repr

/-- Power, pace and calibration. -/
structure PowerStore where
  mgr : PowerMgr
  hubs : Vector HubPower 4
  cal : List (BitVec 16 × CalState)
  alignTries : Nat
deriving DecidableEq, Repr

/-- Start-up, pins, quench and shut-down. -/
structure StartStore where
  level : Level
  umbra : Bool
  links : Bool
  warm : Bool
  storeCold : Bool
  started : Int
  umbraMs : BitVec 12
  linksMs : BitVec 12
  umbraOut : BitVec 8
  notices : List (Nat × Nat)
  positionsBad : Bool
  pins : Pins
  quench : Quench
  shut : ShutState
deriving DecidableEq, Repr

/-- The recorder, the history store, telemetry and authority. -/
structure RecordStore where
  hubs : Vector Recorder 4
  store : Store
  waiting : List JEntry
  auth : Authority
  snaps : Vector (List Snapshot) 4
deriving DecidableEq, Repr

/-- Register windows and the JTAG chain. -/
structure RegStore where
  hubs : Vector HubRegs 4
  dupRate : BitVec 4
  lastCounts : List (Nat × List Byte)
  taps : Vector Tap 4
  tdo : List Bool
deriving DecidableEq, Repr

end Sys2Proof.Machine
end

