-- ==== Sys2Proof/Machine/State.lean ====
section
/-!
DEFINITION. The state of the Aedvos, the reasons a step stops, and the state right after reset. INVENTORY.md lists
each piece of state with the rule that names it and its reset value.
-/
namespace Sys2Proof.Machine

/-- Why a step faults. -/
inductive Fault where
  /-- Raised by SCRUB_PASS, TARGETED_TEST, TEST_DECISION, FIELD_TEST_DUE, FIELD_TEST_START, DEFER_TIMEOUT and
  FIELD_TEST_END when the unit named is none of the package's (Table 15-11): there is no such part to act on. Safe. -/
  | noSuchUnit
deriving DecidableEq, Repr

/-- Why a step is refused. -/
inductive Refusal where
  /-- Raised by a command that has no meaning yet, named by its mnemonic. Safe. -/
  | notModelled (mnemonic : String)
deriving DecidableEq, Repr

/-- The machine. -/
structure State where
  /-- The commands that wait, first in, first out. -/
  pending : List Instr
  /-- TBCLK ticks since the tick counts were set (R577). -/
  tick : Nat
  /-- The model's own counter of free values (assumption 2). -/
  freeCount : Nat
  host : HostSide
  hs : HandleStore
  rg : RingStore
  ctxs : List Ctx
  units : UnitStore
  codec : CodecStore
  eng : EngineStore
  mov : MoverStore
  lnk : LinkStore
  vault : VaultStore
  groups : List Group
  forms : List EarlyForm
  syn : SyncStore
  rel : Reliability
  pwr : PowerStore
  start : StartStore
  fw : Firmware
  evt : RecordStore
  regs : RegStore
deriving DecidableEq, Repr

/-! ### Reset -/

/-- A host port after RST_N (R338, R344, R345). -/
def HostPort.reset (h : Hub) : HostPort :=
  { modules := Config.hportModules h, retraining := false, txSeq := 0, unacked := [], waiting := [],
    msgCredits := 256, dataCredits := 4096, rxExpect := 0, ackOut := 0xFFFF, nakOut := false, nakSeen := false,
    reads := [], writes := [], swaps := [], fences := [], nextTag := 0, nextFence := 0 }

/-- Ring 0 after RST_N (R303): its structures lie in the admin region (Table 9-2). -/
def Ring.admin (base : Nat) : Ring :=
  { id := 0, ctx := 0, state := .active, sqOrder := 2, cqOrder := 2, limit := 64, ctrlAddr := base + 0x2000,
    sqAddr := base + 0x3000, cqAddr := base + 0x7000, sqHead := 0, sqTail := 0, lastSseq := 0, cqTail := 0,
    cqHead := 0, held := [], lost := 0, lostQueued := false, inflight := [], suspect := none, deaf := false,
    destroying := none }

/-- The mover state of a hub after RST_N (R347, Tables 10-3 to 10-5). -/
def Movers.reset : Movers :=
  { chans := [], phys := [], spares := [64, 65, 66, 67], lost := [], directReq := 0, directGranted := 0,
    directDenied := false, directWanted := none, evtHalt := 0, evtDone := 0 }

/-- The sync block of a hub after RST_N (R459, Tables 13-7 to 13-9). -/
def Sync.reset : Sync :=
  { ctrs := [], cfg := [], realigns := [], lastPost := [], coreCtrs := [], routes := [], emptyPulses := 0, dirty := [],
    locks := [], badReleases := 0, foreign := 0, ctrl := 0x00140800, baseLo := 0, baseHi := 0, sel := 0 }

/-- A barrier slot after RST_N (Table 13-10). -/
def BarSlot.reset : BarSlot :=
  { cfg := 0, cfg2 := 0x1000, state := .disabled, cause := 0, gen := 0, arrivedAt := 0, arrive0 := [], arrive1 := [],
    line0 := [], line1 := [], lineDoneSent := false, beacon := Vector.replicate 4 .out }

/-- Counts at 0. -/
def LinkCounts.zero : LinkCounts :=
  { corrected := 0, uncorrectable := 0, resent := 0, retrains := 0, dataSent := 0, dataReceived := 0, refused := 0 }

/-- A link after RST_N (Tables 11-4 and 20-9, R384). -/
def Link.reset : Link :=
  { state := .off, map := [0, 1, 2, 3], bad := [], spare := 4, spareState := 0, localTrained := false,
    peerTrained := false, ber := [], txSeq := 0, queue := [], unacked := [], nakSeen := false, swapPending := false,
    rxExpect := 0, ackOut := 0xFFFF, nakOut := false, laneBadOut := 0, session := 0, wseq := 1, landed := 0,
    landedAhead := [], peer := none, major := 0, minor := 0, trainFails := 0, trainFirst := 0, trainSince := 0,
    idleSince := 0, l1Us := 0,
    counts := LinkCounts.zero, countsAt := LinkCounts.zero,
    credits := [(0, 0), (0, 0), (0, 0), (0, 0)] }

/-- The reliability state of a hub after RST_N (Tables 15-5, 16-6 and 20-7). -/
def HubHealth.reset : HubHealth :=
  { coresRetired := [], roles := [], degraded := false, lost := false, lostCause := 0, scrub := 0x8008003C,
    field := 0x1814000F, due := [], testing := [], enginesRetired := [], engineSpare := none,
    splice := none, hours := [] }

/-- The self-test registers and cursors after RST_N (Table 16-6). -/
def Bist.reset : Bist :=
  { budgetMs := 0, en := true, umbraEn := true, state := 0, refused := false, slices := 0, failed := 0,
    run := Config.bistRunInit, hubCursor := [0, 0, 0, 0], stackCursor := [0, 0, 0, 0, 0, 0, 0, 0], ranThisRun := [],
    running := [], due := [], dueRan := 0, c5Missed := [], kind := 0, runBudgetMs := 0, since := 0, records := [],
    summaries := [], fails := [], timedOut := [], passes := 0, runFails := 0, runTimeouts := 0, stopCause := 0, closed := true,
    decided := [], shutBudgetMs := 0 }

/-- A power domain after RST_N (Table 17-11: PWR_DOMAIN resets to 0, OFF). -/
def Domain.reset : Domain :=
  { state := .off, restoring := false, idleSince := none, power := 0, base := 0, allowance := 0, lent := 0,
    longWaiting := false, demand := 0, stalled := 0 }

/-- The power state of a hub after RST_N (Tables 17-10 and 17-11). -/
def HubPower.reset : HubPower :=
  { domains := List.replicate 10 Domain.reset, silicon := [0, 0, 0, 0, 0, 0], delivered := [0, 0, 0, 0, 0, 0],
    status := 0, capping := false, overCap := false, thermal := false, tbclkOk := false, aligned := false, slips := 0,
    slipCap := false, clean := 0, scale := 2 ^ 24, idle := 0x00C803E8, idleStack := 0, trip := 115, throttle := 100,
    hottest := 0, hottestStack := 0, tickHi := 0, hubSlot := [], stackSlot := [], pllLocked := true,
    lowSilicon := [], lowDelivered := [], sumDelivered := [], windows := 0, periodSlips := 0 }

/-- The recorder of a hub after RST_N (R633, Table 19-10). -/
def Recorder.reset : Recorder :=
  { slots := [], newest := 0, newestSlot := 0, count := 0, circ := 0, queue := [], written := 0, dropped := 0, droppedSince := 0,
    repeatEn := true, en := true, authFail := false, readSlot := 0, latched := List.replicate 32 0, ctxSel := 0 }

/-- An empty firmware slot (R630). -/
def FwSlot.none : FwSlot :=
  { state := .empty, tries := 0, keyId := 0, version := 0, svn := 0, payloadLen := 0, digest8 := 0, image := [] }

/-- The registers of a hub after RST_N (Tables 20-4 to 20-9). -/
def HubRegs.reset : HubRegs :=
  { scratch := 0, mboxEn := true, watchEn := Config.watchPresent, badAccess := false, notHere := false, crcFails := 0,
    regErr := 0, mbSeq := 0, mbCrc := 0, i3cOffset := Option.none, i3cOut := [], laneBer := 0x3727C5AC, lnkIdle := 0,
    startEn := 0xFF, startLatched := 0xFF }

/-- A TAP at its reset: IDCODE is selected; the boundary register holds one cell for each sideband ball of hub 0 but the
JTAG balls, in the order of Table 18-1, and one cell on each other hub (R692, R693). -/
def Tap.reset (h : Hub) : Tap := { ir := 1, boundary := List.replicate (if h.val = 0 then 37 else 1) false }

/-- The history store with nothing written to it (assumption 9). -/
def Store.blank : Store :=
  { readable := true, valid := false, ready := false, empty := false, fault := false, faults := 0, stopped := false,
    token := Option.none, journal := [], jseq := 0, head := 0, used := 0, erased := 0, erases := [],
    bytesInBlock := 0 }

/-- The admin base of the tie-offs (R303, Table 18-2). -/
def adminTieOff : BitVec 57 := BitVec.ofNat 57 (Config.adminBasePage.toNat * 4096)

/-- The machine right after RST_N has taken effect with the supplies good: level RESET (Table 18-3, R612). -/
def State.reset : State :=
  { pending := [], tick := 0, freeCount := 0,
    host := { mem := [], poison := [] },
    hs := { list := [], gens := [] },
    rg := { list := [Ring.admin adminTieOff.toNat], windows := Vector.replicate 4 [], fenceWaits := [],
            ports := Vector.ofFn HostPort.reset, adminReg := adminTieOff, adminUsed := adminTieOff,
            attaching := Option.none },
    ctxs := [],
    units := { shade := Vector.replicate 64 .out, stack := Vector.replicate 8 .out, bankPtr := Vector.replicate 4 0,
               epochs := [], markers := Vector.replicate 8 Option.none, selfRefresh := Vector.replicate 8 false },
    codec := { streamId := 0, lanes := Vector.replicate 4 (Vector.replicate 18 { retired := false, job := Option.none }),
               jobs := [], requests := [], nextRequest := 0, turn := Vector.replicate 4 0, unverified := [],
               glints := [] },
    eng := { engines := [], runs := [], nextRun := 0, lastFirst := Vector.replicate 4 12,
             waves := Vector.replicate 4 0 },
    mov := { hubs := Vector.replicate 4 Movers.reset, mem := [], pointers := [] },
    lnk := { links := Vector.replicate 32 Link.reset, peers := [], cap := 0xFF, txSignals := [], rxSignals := [],
             raised := [], nextSignal := 1, reqs := [], nextTag := 0, epoch := Config.epochAtStart },
    vault := { images := [], requests := [], results := [], ops := [], nextOp := 0, order := 0, own := [] },
    groups := [], forms := [],
    syn := { hubs := Vector.replicate 4 Sync.reset, bars := Vector.replicate 8 BarSlot.reset },
    rel := { hubs := Vector.replicate 4 HubHealth.reset,
             repair := { rowMap := [], sliceUsed := [], sliceRetired := [], frameMap := [], erasure := [],
                         corrected := [], locations := [], retired := [] },
             findings := [], cpers := [], cperSeq := 0, bist := Bist.reset },
    pwr := { mgr := { mode := 0x000A0002, modeInForce := 0x000A0002, cap := 0x800002EE, capInForce := 750, power := 0,
                      lentTotal := 0, budget := 0, windows := 0, withdrawn := false },
             hubs := Vector.replicate 4 HubPower.reset, cal := [], alignTries := 0 },
    start := { level := .reset, umbra := false, links := false, warm := false, storeCold := false, started := 0,
               umbraMs := 0, linksMs := 0, umbraOut := 0, notices := [], positionsBad := false,
               pins := { pgood := true, rstN := false, shdnReqLow := false, alertCause := 0, alertMask := 0x0F,
                         ibiEn := false, ibis := [], offReady := true, mfSel := 0, mfOut := 0,
                         mfReleasing := [], wakePulses := 0, spiActive := false, shdnCfg := 0x03E800C8,
                         paceOut := false },
               quench := { state := 0, cause := 0, wiringFault := false, aHigh := false, bHigh := false, aSince := 0,
                           bSince := 0, timerFrom := Option.none, timerMs := 5, clearReady := false,
                           clearRefused := false, events := 0, discMs := 5, highSince := 0 },
               shut := .none },
    fw := { slotA := FwSlot.none, slotB := FwSlot.none, packs := [], svnFuse := 0, packFuse := 0, revoked := [],
            inUse := Option.none, switched := [], patchLevel := 0, hubPatch := [0, 0, 0, 0], fellBack := false },
    evt := { hubs := Vector.replicate 4 Recorder.reset, store := Store.blank, waiting := [],
             auth := { nonce := Option.none, fails := [], lockedAt := Option.none },
             snaps := Vector.replicate 4 [] },
    regs := { hubs := Vector.replicate 4 HubRegs.reset, dupRate := 6, lastCounts := [],
              taps := Vector.ofFn Tap.reset, tdo := [] } }

end Sys2Proof.Machine
end

