-- ==== Sys2Proof/Machine/Ops.lean ====
section
/-!
DEFINITION. The operations the meanings share: lists of records by key, host memory, events, alerts, CPER records,
completions and notices, the checks of a descriptor, ledgers, messages sent over links, and sync counters.
-/
namespace Sys2Proof.Machine

/-! ### One unit of a fixed list replaced -/

/-- A hub's recorder replaced. -/
def State.setRecorder (s : State) (h : Hub) (r : Recorder) : State :=
  { s with evt := { s.evt with hubs := Vector.set s.evt.hubs h.val r } }

/-- A hub's sync block replaced. -/
def State.setSync (s : State) (h : Hub) (y : Sync) : State :=
  { s with syn := { s.syn with hubs := Vector.set s.syn.hubs h.val y } }

/-- A hub's host port replaced. -/
def State.setPort (s : State) (h : Hub) (p : HostPort) : State :=
  { s with rg := { s.rg with ports := Vector.set s.rg.ports h.val p } }

/-- A link replaced. -/
def State.setLink (s : State) (l : LinkNo) (k : Link) : State :=
  { s with lnk := { s.lnk with links := Vector.set s.lnk.links l.val k } }

/-- A hub's movers replaced. -/
def State.setMovers (s : State) (h : Hub) (m : Movers) : State :=
  { s with mov := { s.mov with hubs := Vector.set s.mov.hubs h.val m } }

/-- A hub's reliability state replaced. -/
def State.setHealth (s : State) (h : Hub) (x : HubHealth) : State :=
  { s with rel := { s.rel with hubs := Vector.set s.rel.hubs h.val x } }

/-- A hub's power state replaced. -/
def State.setPower (s : State) (h : Hub) (x : HubPower) : State :=
  { s with pwr := { s.pwr with hubs := Vector.set s.pwr.hubs h.val x } }

/-- A hub's plain registers replaced. -/
def State.setRegs (s : State) (h : Hub) (x : HubRegs) : State :=
  { s with regs := { s.regs with hubs := Vector.set s.regs.hubs h.val x } }

/-- A barrier slot replaced. -/
def State.setBar (s : State) (b : Fin 8) (x : BarSlot) : State :=
  { s with syn := { s.syn with bars := Vector.set s.syn.bars b.val x } }

/-- A hub's window of written completions replaced. -/
def State.setWindow (s : State) (h : Hub) (w : List Written) : State :=
  { s with rg := { s.rg with windows := Vector.set s.rg.windows h.val w } }

/-! ### Hubs and times -/

/-- The hub that serves, or holds, a number (R27, R47, R135). -/
def hubOf (n : Nat) : Hub := Fin.ofNat 4 n

/-- The hub a link belongs to (Table 1-1). -/
def linkHub (l : LinkNo) : Hub := Fin.ofNat 4 (l.val / 8)

/-- Saturating count of 16 bits. -/
def sat16 (n : Nat) : Nat := min n 65535

/-- One millisecond, in ticks of 6.4 ns (R577, Table 17-2). -/
def msTicks : Nat := 156250

/-! ### Host memory (R28, R29, R343) -/

/-- `len` bytes of host memory at `addr`; a byte nothing has written reads 0 (assumption 1). -/
def State.hostRead (s : State) (addr len : Nat) : List Byte :=
  (List.range len).map (fun i => tabGet 0 s.host.mem (addr + i))

/-- The little-endian number of `len` bytes of host memory. -/
def State.hostNum (s : State) (addr len : Nat) : Nat := leValue (s.hostRead addr len)

/-- Bytes written one by one from `addr` on. -/
def putBytes : Tab Byte → Nat → List Byte → Tab Byte
  | m, _, [] => m
  | m, a, b :: bs => putBytes (tabPut 0 m a b) (a + 1) bs

/-- Marks set or cleared for `len` bytes from `addr` on. -/
def putMarks : Tab Bool → Nat → Nat → Bool → Tab Bool
  | m, _, 0, _ => m
  | m, a, n + 1, v => putMarks (tabPut false m a v) (a + 1) n v

/-- Bytes written to host memory, unpoisoned. -/
def State.hostWrite (s : State) (addr : Nat) (bytes : List Byte) : State :=
  { s with host := { mem := putBytes s.host.mem addr bytes, poison := putMarks s.host.poison addr bytes.length false } }

/-- `len` bytes of sparse data delivered to host memory; the data flits of 256 bytes that hold bytes of a poisoned
4 KiB block of the data, which begins `skip` bytes into its first block, are marked (R343). -/
def State.hostDeliver (s : State) (addr len : Nat) (data : Tab Byte) (skip : Nat) (poison : List Nat) : State :=
  let flit (p : Nat) : Bool := poison.any (fun b => decide (b * 4096 < skip + min len (p * 256 + 256)
    ∧ skip + p * 256 < b * 4096 + 4096))
  let marks := (List.range ((len + 255) / 256)).foldl
    (fun m p => if flit p then putMarks m (addr + p * 256) (min 256 (len - p * 256)) true else m)
    (tabPaste s.host.poison addr len [])
  let mem := data.foldl (fun m e => if e.1 < len then tabPut 0 m (addr + e.1) e.2 else m) (tabPaste s.host.mem addr len [])
  { s with host := { mem := mem, poison := marks } }

/-- The bytes of host memory in a range, as sparse data from 0. -/
def State.hostSlice (s : State) (addr len : Nat) : Tab Byte := tabSlice s.host.mem addr len

/-- The 4 KiB blocks of a host range that hold a byte of a poisoned flit (R198, R343). -/
def State.hostPoisonBlocks (s : State) (addr len : Nat) : List Nat :=
  ((tabSlice s.host.poison addr len).map (fun e => e.1 / 4096)).dedup

/-! ### Free values -/

/-- The next free value of `w` bits, and the state with the counter advanced (assumption 2). -/
def State.fresh (s : State) (w : Nat) : BitVec w × State :=
  (Config.freeValue w s.freeCount, { s with freeCount := s.freeCount + 1 })

/-! ### Events, alerts and CPER records -/

/-- An event reaches a hub's recorder: it joins the queue of 64, or is dropped (R634, R637); EVR_CTRL.EN 0 keeps out
CLASS 0 and 1 (Table 19-10). -/
def State.event (s : State) (h : Hub) (e : Event) : State :=
  let r := s.evt.hubs[h]
  if !r.en && e.cls ≤ 1 then s
  else if r.queue.length < 64 then
    s.setRecorder h { r with queue := r.queue ++ [{ drops := r.droppedSince, tick := s.tick, event := e }], droppedSince := 0 }
  else s.setRecorder h { r with dropped := sat16 (r.dropped + 1), droppedSince := r.droppedSince + 1 }

/-- An event of no unit. -/
def ev (code cls : Nat) (detail : Nat) : Event :=
  { code := code, cls := cls, kind := 0, index := 0, detail := BitVec.ofNat 64 detail }

/-- An event that names a unit. -/
def evU (code cls kind index detail : Nat) : Event :=
  { code := code, cls := cls, kind := kind, index := index, detail := BitVec.ofNat 64 detail }

/-- A package-wide event, recorded by every hub (R634). -/
def State.eventAll (s : State) (e : Event) : State :=
  (((s.event 0 e).event 1 e).event 2 e).event 3 e

/-- ALERT_N is low: a masked cause is set, or a quench lasts (R632). -/
def State.alertN (s : State) : Bool :=
  (s.start.pins.alertCause &&& s.start.pins.alertMask) != 0 || s.start.quench.state == 2

/-- An in-band interrupt where ALERT_N has just become asserted and IBI_EN is 1, with CAUSE as its data byte (R603, R658). -/
def State.interrupt (s : State) (was : Bool) : State :=
  let p := s.start.pins
  if p.ibiEn && !was && s.alertN then
    { s with start := { s.start with pins := { p with ibis := p.ibis ++ [p.alertCause] } } }
  else s

/-- A cause of PIN_ALERT is set, with an in-band interrupt where that asserts ALERT_N (R632, R603). -/
def State.alert (s : State) (bit : Fin 8) : State :=
  let p := s.start.pins
  let s' := { s with start := { s.start with pins := { p with alertCause := p.alertCause ||| (1#8 <<< bit.val) } } }
  s'.interrupt s.alertN

/-- An entry waits to be appended to the journal (R646). -/
def State.journal (s : State) (typ key : Nat) (hub : Nat) (records : List EvRecord) (payload : List Byte) : State :=
  let e : JEntry := { typ := typ, jseq := 0, epoch := s.lnk.epoch, block := 0, torn := false, key := key, hub := hub
                      records := records, payload := payload }
  { s with evt := { s.evt with waiting := s.evt.waiting ++ [e] } }

/-- A unit's name as one number, the key of its journal entries. -/
def unitCode (u : UnitName) : Nat := ((u.hub * 32 + u.kind) * 65536 + u.index) * 2 ^ 32 + u.sub

/-- A unit's epoch as its hub keeps it (R511). -/
def State.unitEpoch (s : State) (u : UnitName) : BitVec 32 :=
  ((s.units.epochs.find? (fun e => e.1 = u)).map Prod.snd).getD 0

/-- A unit's epoch rises by 1 and is journaled (R512, Table 19-5). -/
def State.bumpEpoch (s : State) (u : UnitName) : State :=
  let e := s.unitEpoch u + 1
  let es : List (UnitName × BitVec 32) := s.units.epochs.filter (fun x => decide (x.1 ≠ u))
  let s := { s with units := { s.units with epochs := es ++ [(u, e)] } }
  s.journal 3 (unitCode u) u.hub [] (leBytes 4 e.toNat)

/-! ### Rings and contexts -/

/-- A ring that is not UNUSED. -/
def State.ring? (s : State) (id : Nat) : Option Ring := s.rg.list.find? (fun r => r.id == id)

/-- A ring's entry replaced. -/
def State.setRing (s : State) (r : Ring) : State :=
  { s with rg := { s.rg with list := s.rg.list.map (fun x => if x.id = r.id then r else x) } }

/-- A live context. -/
def State.ctx? (s : State) (id : Nat) : Option Ctx := s.ctxs.find? (fun c => c.id == id)

/-- A context's entry replaced. -/
def State.setCtx (s : State) (c : Ctx) : State :=
  { s with ctxs := s.ctxs.map (fun x => if x.id = c.id then c else x) }

/-- A handle entry that is not FREE. -/
def State.handle? (s : State) (k : HKey) : Option Handle := s.hs.list.find? (fun h => h.key == k)

/-- A handle's entry replaced. -/
def State.setHandle (s : State) (h : Handle) : State :=
  { s with hs := { s.hs with list := s.hs.list.map (fun x => if x.key = h.key then h else x) } }

/-- A handle entry that becomes FREE is no longer listed (R57). -/
def State.dropHandle (s : State) (k : HKey) : State :=
  { s with hs := { s.hs with list := s.hs.list.filter (fun x => x.key ≠ k) } }

/-- A group slot in use. -/
def State.group? (s : State) (slot : Nat) : Option Group := s.groups.find? (fun g => g.slot == slot)

/-- A group's entry replaced. -/
def State.setGroup (s : State) (g : Group) : State :=
  { s with groups := s.groups.map (fun x => if x.slot = g.slot then g else x) }

/-! ### Completions (R319 to R332) -/

/-- A completion entry (Table 9-12). -/
def cqEntry (cseq : BitVec 32) (ssl : Nat) (status : BitVec 8) (flags : BitVec 3) (xres : Bool) (kind : Nat)
    (result : BitVec 64) : BitVec 128 :=
  cseq ++ (BitVec.ofNat 16 ssl) ++ status ++ flags ++ (BitVec.ofBool xres) ++ (BitVec.ofNat 4 kind) ++ result

/-- An entry with the CSEQ and RESULT replaced. -/
def cqReplace (e : BitVec 128) (cseq : BitVec 32) (result : BitVec 64) : BitVec 128 :=
  cseq ++ e.extractLsb' 64 32 ++ result

/-- The number of CQ entries of a ring, or SQ slots, from its order (R301). -/
def ringSize (order : Nat) : Nat := 2 ^ (6 + order)

/-- Whether the CQ has room for the ring's next completion, by the CQ_HEAD last read (R329). -/
def Ring.room (r : Ring) : Bool := decide ((r.cqTail - r.cqHead).toNat < ringSize r.cqOrder)

/-- How many entries a hub's hold store carries for held completions (R331). -/
def State.heldOn (s : State) (h : Hub) : Nat :=
  ((s.rg.list.filter (fun r => hubOf r.id == h)).map (fun r => r.held.length)).sum

/-- One completion entry is written into the ring's CQ at CQ_TAIL, and joins the replay window; the oldest written
entries leave when the hub's hold store runs short (R304, R329, R332). -/
def State.cqWrite (s : State) (r : Ring) (e : BitVec 128) : State :=
  let idx := r.cqTail.toNat % ringSize r.cqOrder
  let s := s.hostWrite (r.cqAddr + 16 * idx) (leBytes 16 e.toNat)
  let s := s.hostWrite (r.ctrlAddr + 72) (leBytes 8 (r.cqTail + 1).toNat)
  let h := hubOf r.id
  let w := s.rg.windows[h] ++ [{ ring := r.id, cseq := r.cqTail, entry := e }]
  let room := 262144 - s.heldOn h
  let w := w.drop (w.length - room)
  (s.setWindow h w).setRing { r with cqTail := r.cqTail + 1 }

/-- A completion of a ring is written, or held when the CQ has no room; an unsolicited one that finds no room in the
hold store is discarded and counted, and the first discard queues a LOST entry (R329, R331). -/
def State.post (s : State) (ring : Nat) (unsolicited : Bool) (ssl : Nat) (status : BitVec 8) (flags : BitVec 3)
    (xres : Bool) (kind : Nat) (result : BitVec 64) : State :=
  match s.ring? ring with
  | none => s
  | some r =>
    let cseq := r.cqTail + BitVec.ofNat 32 r.held.length
    let e := cqEntry cseq ssl status flags xres kind result
    if r.held.isEmpty && r.room then s.cqWrite r e
    else if unsolicited && (65536 ≤ r.held.length || 262144 ≤ s.heldOn (hubOf ring)) then
      let lost := r.lost + 1
      if r.lostQueued then s.setRing { r with lost := lost }
      else
        let l := cqEntry cseq 0 0x08 0 false 4 (lost ++ (cseq - 1))
        (s.setRing { r with lost := lost, lostQueued := true, held := r.held ++ [l] }).event (hubOf ring)
          (ev 0x00A1 1 (ring + lost.toNat * 2 ^ 32))
    else s.setRing { r with held := r.held ++ [e] }

/-- What a command's completion says. -/
structure Done where
  status : BitVec 8
  flags : BitVec 3 := 0
  result : BitVec 64 := 0
  xbytes : List Byte := List.replicate 64 0

/-- A ring's in-flight entry of an SSEQ is gone (R309). -/
def Ring.ended (r : Ring) (sseq : BitVec 32) : Ring := { r with inflight := r.inflight.filter (fun f => f.sseq ≠ sseq) }

/-- The extended result, then the completion entry of a command (R321 to R324). -/
def State.answer (s : State) (t : Ticket) (d : Done) : State :=
  let s := if t.xres then s.hostWrite t.resultAddr d.xbytes else s
  if t.quiet && d.status == 0 then s
  else s.post t.ring false (t.sseq.toNat % 65536) d.status d.flags t.xres 0 d.result

/-- The end of a destroyed ring, once none of its commands is in flight: its held completions are discarded and
RING_DESTROY completes (Table 9-17). -/
def State.endDestroy (s : State) (ring : Nat) : State :=
  match s.ring? ring with
  | some r =>
    match r.destroying with
    | some t =>
      if r.inflight.isEmpty then
        let s := { s with rg := { s.rg with list := s.rg.list.filter (fun x => x.id ≠ ring) } }
        let s := s.setWindow (hubOf ring) (s.rg.windows[hubOf ring].filter (fun w => w.ring ≠ ring))
        let s := match s.ring? t.ring with
          | some a => s.setRing (a.ended t.sseq)
          | none => s
        s.answer t { status := 0, result := BitVec.ofNat 64 r.held.length }
      else s
    | none => s
  | none => s

/-- A command ends: its descriptor is no longer in flight and its completion is formed (R309, R323). -/
def State.complete (s : State) (t : Ticket) (d : Done) : State :=
  match s.ring? t.ring with
  | none => s
  | some r => ((s.setRing (r.ended t.sseq)).answer t d).endDestroy t.ring

/-- A message leaves at a host port in a control flit of its own, kept until it is acknowledged (R344, R345). -/
def HostPort.push (p : HostPort) (m : HMsg) : HostPort :=
  { p with unacked := p.unacked ++ [{ seq := p.txSeq, msg := m, resends := 0 }], txSeq := p.txSeq + 1,
           msgCredits := p.msgCredits - 1 }

/-- Whether a message may leave: the port is not retraining, a credit is at hand, and fewer than 128 flits are
unacknowledged (R344, R345). -/
def HostPort.maySend (p : HostPort) : Bool := !p.retraining && 0 < p.msgCredits && p.unacked.length < 128

/-- A message is sent, or waits (R345). -/
def HostPort.send (p : HostPort) (m : HMsg) : HostPort :=
  if p.maySend && p.waiting.isEmpty then p.push m else { p with waiting := p.waiting ++ [m] }

/-- Messages that wait leave while they may. -/
def HostPort.pumpN : Nat → HostPort → HostPort
  | 0, p => p
  | n + 1, p => match p.waiting with
    | m :: rest => if p.maySend then HostPort.pumpN n (({ p with waiting := rest } : HostPort).push m) else p
    | [] => p

/-- Messages that wait leave while they may. -/
def HostPort.pump (p : HostPort) : HostPort := p.pumpN p.waiting.length

/-- A fence is sent through a host port, behind writes that carried one tag (R31). -/
def State.sendFence (s : State) (h : Hub) : State :=
  let p := s.rg.ports[h]
  let m : HMsg := { typ := 4, addr := 0, tag := 0, arg := p.nextFence, len := 0 }
  let q : PortFence := { number := p.nextFence, since := s.tick }
  let p := { p with fences := p.fences ++ [q], nextFence := p.nextFence + 1, nextTag := p.nextTag + 1 }
  s.setPort h (p.send m)

/-- What a completion says waits for fences through the ports that carried its data (R31). -/
def State.behind (s : State) (ports : List Hub) (w : FenceWait) : State :=
  let ports := ports.dedup
  let w := { w with fences := ports.map (fun h => (h, s.rg.ports[h].nextFence)),
                    writes := ports.map (fun h => (h, s.rg.ports[h].nextTag)) }
  let s := ports.foldl State.sendFence s
  { s with rg := { s.rg with fenceWaits := s.rg.fenceWaits ++ [w] } }

/-- An RD is sent at a host port (Table 9-21); its tag names it in the answer. -/
def State.sendRead (s : State) (h : Hub) (addr len : Nat) (use : ReadUse) : State :=
  let p := s.rg.ports[h]
  let m : HMsg := { typ := 1, addr := addr, tag := p.nextTag, arg := 0, len := len }
  let q : PortReq := { tag := p.nextTag, addr := addr, len := len, since := s.tick, use := use }
  let p := { p with reads := p.reads ++ [q], nextTag := p.nextTag + 1 }
  s.setPort h (p.send m)

/-- A command whose data was written through the ports named ends: at once when no other port than the serving hub's
carried data, else once each contributing port's fence is answered (R31, R324). -/
def State.completeVia (s : State) (t : Ticket) (ports : List Hub) (d : Done) : State :=
  if ports.all (fun h => h == hubOf t.ring) then s.complete t d
  else s.behind ports { ticket := t, status := d.status, flags := d.flags, kind := 0, result := d.result,
                        xbytes := d.xbytes, fences := [], writes := [] }

/-- A NOTICE to the admin ring (Table 9-13, kind 5); one that comes before RING waits for it (R608). -/
def State.notice (s : State) (code detail : Nat) : State :=
  if s.start.level == .ring then s.post 0 true 0 0 0 false 5 (BitVec.ofNat 64 (code * 2 ^ 48 + detail % 2 ^ 48))
  else { s with start := { s.start with notices := s.start.notices ++ [(code, detail)] } }

/-- The reserve frames of a stack taken by page retirement (R540). -/
def State.reserveUsed (s : State) (k : Stack) : Nat := (s.rel.repair.frameMap.filter (fun f => f.1 == k.val)).length

/-- The storage kinds of Table 15-11: rows, slices, frames, devices, stacks, regions and banks. -/
def isStorage (kind : Nat) : Bool := (5 ≤ kind && kind ≤ 9) || kind == 13 || kind == 16

/-- The SYNDROME of a CPER section: for Umbra the syndrome bytes, which no command shows, then the free reserve frames
and zeros; for other kinds the spec gives no content (Table 15-10, assumption 2). -/
def State.syndrome (s : State) (u : UnitName) : List Byte × State :=
  if u.kind = 7 ∨ u.kind = 8 ∨ u.kind = 9 then
    let (v, s) := s.fresh 64
    (leBytes 8 v.toNat ++ leBytes 4 (960 - s.reserveUsed (Fin.ofNat 8 u.index)) ++ leBytes 4 0, s)
  else
    let (v, s) := s.fresh 128
    (leBytes 16 v.toNat, s)

/-- A CPER record is written: kept in the store of 512, journaled, recorded as an event and announced (R545, R641). The
ADDRESS of a storage unit, and which unit a poison mark of no named unit concerns, are free values (assumption 2). -/
def State.cper (s : State) (severity cls : Nat) (u : UnitName) (code : Nat) (handle : Nat)
    (decision test findings spares hist : Nat) (pack : Nat := 0) (version : BitVec 32 := 0) : State :=
  let q := s.rel.cperSeq + 1
  let blind := cls = 2 ∧ u.kind = 0
  let (id, s) := if blind then s.fresh 56 else (0, s)
  let name := if blind then leBytes 7 id.toNat else leBytes 1 u.kind ++ leBytes 2 u.index ++ leBytes 4 u.sub
  let (addr, s) := if blind ∨ isStorage u.kind then s.fresh 64 else (0, s)
  let (syn, s) := s.syndrome u
  let sect := leBytes 2 1 ++ leBytes 2 cls ++ leBytes 1 u.hub ++ name
    ++ leBytes 4 code ++ leBytes 8 addr.toNat ++ leBytes 8 handle ++ leBytes 8 s.tick
    ++ leBytes 4 s.lnk.epoch.toNat ++ leBytes 4 (s.unitEpoch u).toNat ++ leBytes 1 decision ++ leBytes 1 test
    ++ leBytes 2 pack ++ leBytes 4 version.toNat ++ leBytes 4 findings ++ leBytes 2 spares ++ leBytes 2 hist ++ syn
    ++ leBytes 1 (s.fw.inUse.getD 0) ++ leBytes 1 0 ++ leBytes 2 s.fw.patchLevel.toNat ++ leBytes 4 q.toNat
    ++ leBytes 8 0
  let c : Cper := { seq := q, section_ := sect, severity := severity }
  let l := s.rel.cpers ++ [c]
  let s := { s with rel := { s.rel with cperSeq := q, cpers := l.drop (l.length - 512) } }
  let s := s.journal 7 q.toNat 0 [] sect
  let s := s.event 0 (ev 0x004B 0 q.toNat)
  s.notice 0x0160 q.toNat

/-- A new poison mark: one event and one CPER record (R526). -/
def State.poisonCreated (s : State) (h : Hub) (handle : Nat) : State :=
  let s := s.event h (ev 0x0041 2 handle)
  s.cper 0 2 { hub := h.val, kind := 0, index := 0, sub := 0 } 0x0041 handle 0 0 0 0 0

/-- What a meaning answers. -/
abbrev Out := Host.Outcome State Fault Refusal

/-! ### Descriptors (R311 to R315) -/

end Sys2Proof.Machine

namespace Sys2Proof

/-- Operand bits `[hi:lo]` of a descriptor, numbered as Table 9-3 numbers them. -/
def Desc.f (d : Desc) (hi lo : Nat) : Nat := Machine.bitsOf d.ops.toNat (hi - 64) (lo - 64)

/-- The number at payload byte `off`, `len` bytes long. -/
def Desc.p (d : Desc) (off len : Nat) : Nat := Machine.bitsOf d.payload.toNat (8 * (off + len) - 1) (8 * off)

/-- The ticket of a descriptor. -/
def Desc.ticket (d : Desc) : Machine.Ticket :=
  { ring := d.ring.toNat, sseq := d.sseq, quiet := d.quiet, xres := d.xres, resultAddr := d.resultAddr.toNat }

end Sys2Proof

namespace Sys2Proof.Machine

/-- The mask of bits `[hi:lo]`. -/
def bitMask (hi lo : Nat) : Nat := (2 ^ (hi + 1 - lo) - 1) * 2 ^ lo

/-- Whether a number has bits outside the ranges listed. -/
def strayBits (n : Nat) (used : List (Nat × Nat)) : Bool :=
  n != used.foldl (fun a r => a ||| (n &&& bitMask r.1 r.2)) 0

/-- What the checks of R313 need to know of an opcode: the rings it is allowed on, its EXT, whether it moves data
(PRIO), whether it needs XRES, the operand bits and payload bytes in use, its range checks and its addresses with the
multiple each must be of. -/
structure DescSpec where
  job : Bool
  admin : Bool
  ext : Bool := false
  moves : Bool := false
  needX : Bool := false
  used : List (Nat × Nat) := []
  payload : List (Nat × Nat) := []
  range : Bool := true
  addrs : List (Nat × Nat) := []

/-- Whether a descriptor has a reserved field that is not zero (R313 step 4). -/
def reservedSet (d : Desc) (x : DescSpec) : Bool :=
  d.rsvd != 0 || (d.context != 0 && !(d.ring == 0 && x.job))
    || strayBits (d.ops.toNat * 2 ^ 64) x.used
    || (d.ext && strayBits d.payload.toNat (x.payload.map (fun r => (8 * (r.1 + r.2) - 1, 8 * r.1))))
    || (!d.xres && d.resultAddr != 0) || (!x.moves && d.prio != 0)

/-- The first failing check of R313 steps 2 to 6, as its status. -/
def descCheck (sqOrder : Nat) (d : Desc) (x : DescSpec) : Option (BitVec 8) :=
  if (d.ring == 0 && !x.admin) || (d.ring != 0 && !x.job) then some 0x04
  else if d.ext != x.ext || (d.ext && ringSize sqOrder < d.sseq.toNat % ringSize sqOrder + 4) then some 0x06
  else if reservedSet d x then some 0x02
  else if 6 < d.prio.toNat || !x.range || (x.needX && !d.xres) then some 0x03
  else if x.addrs.any (fun a => a.1 % a.2 != 0 || 2 ^ 57 ≤ a.1)
      || (d.xres && (d.resultAddr == 0 || d.resultAddr.toNat % 64 != 0 || 2 ^ 57 ≤ d.resultAddr.toNat)) then some 0x05
  else none

/-- Whether ORDER lets a descriptor start: none with a lower SSEQ is in flight when it carries ORDER, and no ORDER
descriptor with a lower SSEQ is in flight (R327). -/
def Ring.mayStart (r : Ring) (d : Desc) : Bool :=
  let earlier := r.inflight.filter (fun f => decide ((d.sseq - f.sseq).toNat - 1 < 2 ^ 31 ∧ f.sseq ≠ d.sseq))
  (!d.order || earlier.isEmpty) && earlier.all (fun f => !f.slot.getLsbD 54)

/-- A quench lasts: every clockless domain but CORE and HPORT stalls at its issue gates (R621). -/
def State.stalled (s : State) : Bool := s.start.quench.state == 2

/-- A shut-down has begun (R615). -/
def State.shutting (s : State) : Bool :=
  match s.start.shut with
  | .none => false
  | .grace _ => false
  | _ => true

/-- Whether the requests in flight have been ended by a shut-down (R615, R616). -/
def State.shutDone (s : State) : Bool :=
  match s.start.shut with
  | .testing _ _ => true
  | .offReady => true
  | _ => false

/-- Whether the hub that serves a ring serves commands: the package has reached RING, the hub is not lost and a shut-down
has not ended every request (R606, R536, R615). -/
def State.serves (s : State) (ring : Nat) : Bool :=
  s.start.level == .ring && !s.rel.hubs[hubOf ring].lost && !s.shutDone

/-! ### Commands of one ring that write the same host address (R33) -/

/-- The size of the object a handle word names, 0 where none is live. -/
def State.sizeNamed (s : State) (w : Nat) : Nat :=
  ((s.handle? { ctx := w / 2 ^ 48, obj := w / 2 ^ 8 % 2 ^ 40 }).map (fun h => h.shape.size)).getD 0

/-- The bytes of a command's extended result, from its opcode and operands (R321, Tables 9-11, 9-17 and those of the admin
commands of other chapters). -/
def xresLen (d : Desc) (op : Nat) : Nat :=
  let many (n : Nat) : Nat := if n = 0 then 256 else n
  match op with
  | 0x09 => if d.f 129 128 = 0 then 256 else 128
  | 0x84 => 64 * many (d.f 127 120)
  | 0xB1 => 32 * many (d.f 79 72)
  | 0xC1 => 64 + 32 * d.f 127 112
  | 0xC2 => 16 * d.f 127 112
  | 0xC8 => 32 * d.f 111 96
  | 0xC9 => 320 * d.f 103 96
  | 0xCD => 128
  | 0xE0 => 64 * d.f 133 128
  | _ => 64

/-- The host ranges a command's data goes to: where each begins and its bytes. A glint stream counts whole
(Table 5-10), and a SNAPSHOT_READ to its segment's end counts as the largest object. -/
def State.dataRanges (s : State) (d : Desc) (op : Nat) : List (Nat × Nat) :=
  match op with
  | 0x05 => (List.range 4).map (fun j => (d.p (96 + 8 * j) 8, s.sizeNamed (d.p (64 + 8 * j) 8)))
  | 0x06 =>
    let len := if d.f 231 192 = 0 then s.sizeNamed (d.f 127 64) - d.f 167 128 else d.f 231 192
    let courses := (d.f 167 128 + len + 2097151) / 2097152 - d.f 167 128 / 2097152
    [(d.f 319 256, if d.f 320 320 = 1 then 64 + (8 * courses + 63) / 64 * 64 + courses * courseSlot else len)]
  | 0x09 => [(d.f 255 192, 8 * d.f 319 288)]
  | 0x40 | 0x41 | 0x42 | 0x44 =>
    [(d.f 447 384, (d.f 215 176 + 1) * 8 / max 1 (elemBits (d.f 175 168)) * elemBits (d.f 167 160) / 8)]
  | 0x54 => [(d.f 447 384, 32 * d.f 159 148)]
  | 0x55 => [(d.f 447 384, if d.f 215 176 = 0 then 2 ^ 40 else d.f 215 176)]
  | _ => []

/-- Every host range a command writes but its completion entry. -/
def State.writeRanges (s : State) (d : Desc) (op : Nat) : List (Nat × Nat) :=
  (if d.xres then [(d.resultAddr.toNat, xresLen d op)] else [])
    ++ (s.dataRanges d op).filter (fun r => r.1 != 0)

/-- Two ranges share an address. -/
def rangesMeet (a b : Nat × Nat) : Bool := decide (a.1 < b.1 + b.2 ∧ b.1 < a.1 + a.2)

/-- A fetched slot read as a descriptor. -/
def Fetched.desc (ring : Nat) (f : Fetched) : Desc :=
  { ring := BitVec.ofNat 16 ring, sseq := f.sseq, context := f.slot.extractLsb' 32 12, rsvd := f.slot.extractLsb' 44 4
    prio := f.slot.extractLsb' 48 4, xres := f.slot.getLsbD 52, quiet := f.slot.getLsbD 53, order := f.slot.getLsbD 54
    ext := f.slot.getLsbD 55, ops := f.slot.extractLsb' 64 384, resultAddr := f.slot.extractLsb' 448 64
    payload := f.payload }

/-- The ranges a fetched slot's command writes. -/
def State.slotWrites (s : State) (ring : Nat) (f : Fetched) : List (Nat × Nat) :=
  s.writeRanges (f.desc ring) (f.slot.extractLsb' 56 8).toNat

/-- A command waits while an earlier command of its ring, not yet ended, writes an address that it writes too, so that
the later data is what the surroundings see last (R33). -/
def State.writeWaits (s : State) (r : Ring) (d : Desc) : Bool :=
  match r.inflight.find? (fun f => f.sseq == d.sseq) with
  | none => false
  | some me =>
    let mine := s.slotWrites r.id me
    r.inflight.any (fun f => decide ((d.sseq - f.sseq).toNat - 1 < 2 ^ 31 ∧ f.sseq ≠ d.sseq)
      && (s.slotWrites r.id f).any (fun a => mine.any (rangesMeet a)))

/-- A descriptor's command: it starts when its ring is in use and ORDER and R33 let it, ends with the first failing
check of R313, and is acted on otherwise; one that moves data waits while a quench lasts (R621). -/
def State.withDesc (s : State) (d : Desc) (x : DescSpec) (act : Ticket → State → State) : State :=
  match s.ring? d.ring.toNat with
  | none => s
  | some r =>
    if !s.serves d.ring.toNat || !r.mayStart d || s.writeWaits r d then s
    else match descCheck r.sqOrder d x with
      | some e => s.complete { d.ticket with xres := false } { status := e }
      | none => if x.moves && s.stalled then s else act d.ticket s

/-- The context a job descriptor acts on: the ring's, or on the admin ring the one CONTEXT names (R45, R314). -/
def State.descCtx (s : State) (d : Desc) : Nat :=
  if d.ring == 0 then d.context.toNat else ((s.ring? d.ring.toNat).map Ring.ctx).getD 0

/-! ### Handles as words (R38) -/

/-- The handle word of an entry: context, object, generation (R38). -/
def handleWord (k : HKey) (gen : BitVec 8) : Nat := k.ctx * 2 ^ 48 + k.obj * 2 ^ 8 + gen.toNat

/-! ### Ledgers (R135) -/

/-- A context's ledger in a tier (2 Shade, 3 Umbra, 4 Penumbra). -/
def Ctx.ledger (c : Ctx) (tier : Nat) : Ledger :=
  if tier = 2 then c.shade else if tier = 3 then c.umbra else c.penumbra

/-- A context's ledger in a tier replaced. -/
def Ctx.setLedger (c : Ctx) (tier : Nat) (l : Ledger) : Ctx :=
  if tier = 2 then { c with shade := l } else if tier = 3 then { c with umbra := l } else { c with penumbra := l }

/-- A charge taken, or given back, in a context's ledger; the peak follows (R135, R651). -/
def State.charge (s : State) (ctx tier : Nat) (n : Int) : State :=
  match s.ctx? ctx with
  | none => s
  | some c =>
    let l := c.ledger tier
    let v := ((l.charge : Int) + n).toNat
    s.setCtx (c.setLedger tier { l with charge := v, peak := max l.peak v })

/-! ### Sync counters (R459, R465) -/

/-- A host-visible counter of a hub. -/
def State.hostCtr (s : State) (h : Hub) (c : Nat) : BitVec 32 := tabGet 0 s.syn.hubs[h].ctrs c

/-- The reset value of SYN_CTR_CFG: REALIGN 1 (Table 13-9). -/
def ctrCfgReset : BitVec 32 := 0x08000000

/-- SYN_CTR_CFG of a counter. -/
def State.ctrCfg (s : State) (h : Hub) (c : Nat) : BitVec 32 := tabGet ctrCfgReset s.syn.hubs[h].cfg c

/-- Whether a context owns a host-visible counter (R468). -/
def State.ownsCtr (s : State) (h : Hub) (c ctx : Nat) : Bool :=
  let w := (s.ctrCfg h c).toNat
  bitOf w 31 && bitsOf w 11 0 == ctx

/-- WAKE is driven high for a pulse, where WAKE_OUT_EN of the hub is 1 (R472). -/
def State.wakeOut (s : State) (h : Hub) : State :=
  if s.syn.hubs[h].ctrl.getLsbD 3 then
    { s with start := { s.start with pins := { s.start.pins with wakePulses := s.start.pins.wakePulses + 1 } } }
  else s

/-- A host-visible counter takes a value; its mirror word is to be written, and WAKE is pulsed where SYN_CTR_CFG.WAKE is
1 (R459, R465, R472). -/
def State.setHostCtr (s : State) (h : Hub) (c : Nat) (v : BitVec 32) : State :=
  let s := if (s.ctrCfg h c).getLsbD 29 then s.wakeOut h else s
  let y := s.syn.hubs[h]
  s.setSync h { y with ctrs := tabPut 0 y.ctrs c v, dirty := if c ∈ y.dirty then y.dirty else y.dirty ++ [c] }

/-- A raise of a context's mark counter during a step raises the mark by 1 (R96). -/
def State.markRaise (s : State) (h : Hub) (c : Nat) : State :=
  { s with ctxs := s.ctxs.map (fun x => match x.active.bind Plan.markCounter, x.step with
    | some m, some st => if m = (h, c) then { x with mark := x.mark + 1, step := some st } else x
    | _, _ => x) }

/-- A host-visible counter rises by an increment, modulo 2^32; where it is a running step's mark counter the mark rises
with it (R96, R459). -/
def State.raiseHost (s : State) (h : Hub) (c : Nat) (n : BitVec 32) : State :=
  (s.setHostCtr h c (s.hostCtr h c + n)).markRaise h c

/-- Whether a counter has reached a target, compared as WAIT compares (R265). -/
def reached (v target : BitVec 32) : Bool := decide ((v - target).toNat < 2 ^ 31)

end Sys2Proof.Machine
end

