-- ==== Sys2Proof/Machine/Basic.lean ====
section
/-!
DEFINITION. NOP (R312, Table 9-4).
-/
namespace Sys2Proof.Machine

/-- What R313 checks of NOP. -/
def nopSpec : DescSpec :=
  { job := true, admin := true }

/-- NOP completes without acting. -/
def execNop (d : Desc) (s : State) : Out :=
  .next (s.withDesc d nopSpec (fun t s => s.complete t { status := 0 }))

end Sys2Proof.Machine
end

