-- ==== Sys2Proof/Machine/LinkOps.lean ====
section
/-!
DEFINITION. What links, bundles and peers share (R386 to R417): states, bundles, sending and resending messages, and
raising the counters of remote signals.
-/
namespace Sys2Proof.Machine

/-- A link state's number (Table 11-4). -/
def LState.code : LState → Nat
  | .off => 0 | .training => 1 | .hello => 2 | .up => 3 | .reduced => 4 | .retrain => 5 | .l1 => 6
  | .downVersion => 7 | .failed => 8 | .quenched => 9

/-- Whether a link counts for its peer's bundle (Table 11-4). -/
def LState.counts : LState → Bool
  | .up | .reduced | .l1 => true
  | _ => false

/-- Whether a link in a state sends messages of a type (Table 11-4). -/
def LState.carries (st : LState) (typ : Nat) : Bool :=
  match st with
  | .up | .reduced => true
  | .hello => typ == 1 || typ == 2
  | .downVersion => typ == 1
  | _ => false

/-- The links of the bundle to a peer, ascending (R401). -/
def State.bundle (s : State) (pkg : BitVec 64) : List LinkNo :=
  (List.finRange 32).filter (fun l => s.lnk.links[l].state.counts && (s.lnk.links[l].peer.map PeerHello.pkg) == some pkg)

/-- The peer whose bundle a link is in. -/
def State.bundlePeer (s : State) (l : LinkNo) : Option (BitVec 64) :=
  if s.lnk.links[l].state.counts then s.lnk.links[l].peer.map PeerHello.pkg else none

/-- What is kept of a peer. -/
def State.peer? (s : State) (pkg : BitVec 64) : Option Peer := s.lnk.peers.find? (fun p => p.pkg == pkg)

/-- A peer nothing is kept of yet. -/
def Peer.fresh (pkg : BitVec 64) (epoch : BitVec 32) : Peer :=
  { pkg := pkg, grantGiven := 0, grantHeld := 0, frozen := false, out := false, epoch := epoch, lost := false,
    frames := [], frameStacks := [], window := [], poison := [], downSince := none }

/-- A peer's entry written. -/
def State.setPeer (s : State) (p : Peer) : State :=
  let ps := if s.lnk.peers.any (fun x => x.pkg == p.pkg) then s.lnk.peers.map (fun x => if x.pkg = p.pkg then p else x)
    else s.lnk.peers ++ [p]
  { s with lnk := { s.lnk with peers := ps } }

/-- Since when no link of a peer's bundle has been up follows the links' states (R156, R424); as its bundle goes down, the
SEALED images it wrote here become orphans (R502). -/
def State.peerUp (s : State) (pkg : BitVec 64) : State :=
  match s.peer? pkg with
  | none => s
  | some p =>
    if (s.bundle pkg).isEmpty then
      if p.downSince.isSome then s
      else
        let imgs := s.vault.images.map (fun i : Image =>
          ({ i with orphan := i.orphan || (i.creator == pkg && i.state == ImgState.sealed) } : Image))
        ({ s with vault := { s.vault with images := imgs } }).setPeer { p with downSince := some s.tick }
    else s.setPeer { p with downSince := none }

/-- A link takes a state: a LINK_STATE event is recorded, and its bundle grows or shrinks (R400, R401). -/
def State.linkState (s : State) (l : LinkNo) (st : LState) : State :=
  let k := s.lnk.links[l]
  let s := s.setLink l { k with state := st }
  let s := s.event (linkHub l) (evU 0x0050 0 15 l.val st.code)
  match k.peer with
  | some p => s.peerUp p.pkg
  | none => s

/-- The data flits of each frame a message takes: nine at most, the header in the first (R389). -/
def frameFlits (bytes : Nat) : List Nat :=
  let f := (bytes + 255) / 256
  if f ≤ 9 then [f] else (List.range ((f + 8) / 9)).map (fun i => min 9 (f - 9 * i))

/-- A message put into frames, which wait for their acknowledgement (R389, R394). -/
def Link.frame (k : Link) (m : LMsg) : Link :=
  let fs := (frameFlits m.data.length).zipIdx.map (fun x =>
    ({ seq := k.txSeq + BitVec.ofNat 16 x.2, msg := if x.2 = 0 then some m else none, flits := x.1, resends := 0,
       swap := false, power := false } : UFrame))
  { k with unacked := k.unacked ++ fs, txSeq := k.txSeq + BitVec.ofNat 16 fs.length,
           counts := { k.counts with dataSent := k.counts.dataSent + m.data.length } }

/-- Messages that wait go into frames, in order, while the state carries them and fewer than 128 frames are
unacknowledged (R394, Table 11-4). -/
def Link.pump (k : Link) : Link :=
  (k.queue.foldl (fun (a : Link × Bool) m =>
    if a.2 && k.state.carries m.typ && decide (a.1.unacked.length + (frameFlits m.data.length).length ≤ 128) then
      ({ (a.1.frame m) with queue := a.1.queue.drop 1 }, true)
    else (a.1, false)) (k, true)).1

/-- A message is queued on a link; a PN_WR takes the next write sequence (R399, R406). -/
def State.sendMsg (s : State) (l : LinkNo) (m : LMsg) : State :=
  let k := s.lnk.links[l]
  let m := if m.typ = 9 then { m with wseq := k.wseq } else m
  let k := { k with queue := k.queue ++ [m], wseq := if m.typ = 9 then k.wseq + 1 else k.wseq,
                    idleSince := s.tick, l1Us := s.regs.hubs[linkHub l].lnkIdle.toNat }
  s.setLink l k.pump

/-- A message with no data. -/
def lmsg (typ : Nat) (addr : BitVec 48) (arg : BitVec 64) : LMsg :=
  { typ := typ, addr := addr, arg := arg, tag := 0, status := 0, poison := false, prio := 0, wseq := 0, bcrc := 0,
    readLen := 0, data := [] }

/-- The HELLO data this Aedvos sends on a link (Table 11-6). -/
def State.helloData (s : State) (l : LinkNo) : List Byte :=
  leBytes 8 Config.packageId.toNat ++ [BitVec.ofNat 8 (l.val / 8), BitVec.ofNat 8 l.val, 1, 1, 3, s.lnk.cap]
    ++ leBytes 2 0 ++ leBytes 4 s.lnk.epoch.toNat ++ leBytes 4 s.lnk.links[l].session.toNat
    ++ [BitVec.ofNat 8 (s.fw.inUse.getD 0)] ++ leBytes 2 s.fw.patchLevel.toNat ++ [0] ++ List.replicate 36 0

/-- A HELLO is sent on a link (R399, R413). -/
def State.sendHello (s : State) (l : LinkNo) : State :=
  s.sendMsg l { lmsg 1 0 0 with data := s.helloData l }

/-- A link comes up to HELLO: a new session begins, write sequences restart, and HELLO is sent first (R399). -/
def State.linkHello (s : State) (l : LinkNo) : State :=
  let k := s.lnk.links[l]
  let s := s.setLink l { k with session := k.session + 1, wseq := 1, txSeq := 0, rxExpect := 0, ackOut := 0xFFFF,
                                landed := 0, landedAhead := [], unacked := [], nakSeen := false, nakOut := false,
                                laneBadOut := 0, localTrained := false, peerTrained := false, queue := [],
                                swapPending := false, idleSince := s.tick,
                                l1Us := s.regs.hubs[linkHub l].lnkIdle.toNat }
  (s.linkState l .hello).sendHello l

/-- A link begins to train (R400). -/
def State.linkTrain (s : State) (l : LinkNo) : State :=
  let k := s.lnk.links[l]
  (s.setLink l { k with trainFails := 0, trainFirst := s.tick, trainSince := s.tick }).linkState l .training

/-- A link retrains (R394, R395): its state, its count and its event. -/
def State.linkRetrainNow (s : State) (l : LinkNo) (cause : Nat) : State :=
  let k := s.lnk.links[l]
  let s := s.setLink l { k with trainFails := 0, trainSince := s.tick,
                                counts := { k.counts with retrains := k.counts.retrains + 1 } }
  (s.event (linkHub l) (evU 0x0054 1 15 l.val cause)).linkState l .retrain

/-- The state a link has by its rotation: UP on four lanes, REDUCED on three (Table 11-5). -/
def Link.running (k : Link) : LState := if k.map.length = 4 then .up else .reduced

/-! ### Remote signals (R406 to R408) -/

/-- Whether every mark of a signal has landed in the session it names (R407). -/
def State.marksLanded (s : State) (marks : List (BitVec 64)) : Bool :=
  marks.all (fun m =>
    let l : LinkNo := Fin.ofNat 32 (bitsOf m.toNat 7 0)
    let k := s.lnk.links[l]
    (k.peer.map (fun p => p.session.toNat % 65536)) == some (bitsOf m.toNat 31 16)
      && decide (bitsOf m.toNat 63 32 ≤ k.landed.toNat))

/-- Every held SIGNAL whose marks have landed raises its counter, once per signal number (R407, R408). -/
def State.raiseSignals (s : State) : State :=
  s.lnk.rxSignals.foldl (fun s x =>
    if s.marksLanded x.marks then
      let s := { s with lnk := { s.lnk with rxSignals := s.lnk.rxSignals.filter (fun y => y ≠ x) } }
      if (x.pkg, x.number) ∈ s.lnk.raised then s
      else ({ s with lnk := { s.lnk with raised := s.lnk.raised ++ [(x.pkg, x.number)] } }).raiseHost (hubOf x.hub) x.ctr
        x.increment
    else s) s

/-- A link leaves its session: signals that name it in a mark and are not raised are discarded (R408). -/
def State.leaveSession (s : State) (l : LinkNo) : State :=
  let keep := s.lnk.rxSignals.filter (fun x => x.marks.all (fun m => bitsOf m.toNat 7 0 ≠ l.val))
  { s with lnk := { s.lnk with rxSignals := keep } }

end Sys2Proof.Machine
end

