-- ==== Sys2Proof/Machine/GroupOps.lean ====
section
/-!
DEFINITION. Groups of members (chapter 12): lines, slabs and owners, messages to members, pending values of handles, and
the barrier slots a broken group faults.
-/
namespace Sys2Proof.Machine

/-! ### Lines (R420) -/

/-- The line peers of a member: the other members with its y, then those with its x (R420). -/
def Group.linePeers (g : Group) : List Nat :=
  (List.range (g.d1 * g.d2)).filter (fun r => r ≠ g.rank && (r / g.d1 == g.rank / g.d1 || r % g.d1 == g.rank % g.d1))

/-- The members of the dimension-1 line and of the dimension-2 line of a member, itself included. -/
def Group.line1 (g : Group) : List Nat := (List.range (g.d1 * g.d2)).filter (fun r => r / g.d1 == g.rank / g.d1)
def Group.line2 (g : Group) : List Nat := (List.range (g.d1 * g.d2)).filter (fun r => r % g.d1 == g.rank % g.d1)

/-- The package of a rank. -/
def Group.pkg (g : Group) (rank : Nat) : BitVec 64 := g.members.getD rank 0

/-- The rank a package has in a group. -/
def Group.rankOf? (g : Group) (pkg : BitVec 64) : Option Nat := g.members.findIdx? (fun p => p == pkg)

/-! ### Slabs and owners (R428, R429) -/

/-- The piece of `k` slabs split into `m` that holds slab `j`: its number, the slab's place in it, and its length. -/
def pieceOf (k m j : Nat) : Nat × Nat × Nat :=
  let i := ((j + 1) * m + k - 1) / k - 1
  (i, j - i * k / m, (i + 1) * k / m - i * k / m)

/-- A slab: whether it is in part A, and its owner's coordinates along the dimension it takes first and the other. -/
structure Slab where
  partA : Bool
  o1 : Nat
  o2 : Nat

/-- The slab `j` of `u` (R428, R429). -/
def Group.slab (g : Group) (u j : Nat) : Slab :=
  let ka := u * g.split / 65536
  let a := decide (j < ka)
  let (first, second) := if a then (g.d1, g.d2) else (g.d2, g.d1)
  let (c1, j1, len) := pieceOf (if a then ka else u - ka) first (if a then j else j - ka)
  { partA := a, o1 := c1, o2 := (pieceOf len second j1).1 }

/-- A rank's coordinates along a part's first and second dimensions. -/
def Group.coords (g : Group) (partA : Bool) (rank : Nat) : Nat × Nat :=
  if partA then (rank % g.d1, rank / g.d1) else (rank / g.d1, rank % g.d1)

/-- The rank at coordinates along a part's first and second dimensions. -/
def Group.at_ (g : Group) (partA : Bool) (a b : Nat) : Nat := if partA then b * g.d1 + a else a * g.d1 + b

/-- The members along a part's first dimension and along its second. -/
def Group.dims (g : Group) (partA : Bool) : Nat × Nat := if partA then (g.d1, g.d2) else (g.d2, g.d1)

/-- The owner of a slab (R429). -/
def Group.owner (g : Group) (x : Slab) : Nat := g.at_ x.partA x.o1 x.o2

/-! ### Messages to members (R436, R438, Tables 12-6 and 12-7) -/

/-- A message goes to a package over link L[i mod m] of its bundle; with no bundle it is not sent. -/
def State.sendPkg (s : State) (pkg : BitVec 64) (i : Nat) (m : LMsg) : State :=
  let ls := s.bundle pkg
  match ls[i % ls.length]? with
  | some l => s.sendMsg l m
  | none => s

/-- A collective message (Table 12-7). -/
def collMsg (typ slot kind chk reason : Nat) (seq : BitVec 32) (addr prio : Nat) (poison : Bool) (data : List Byte) : LMsg :=
  { lmsg typ (BitVec.ofNat 48 addr)
      (BitVec.ofNat 64 (seq.toNat + reason * 2 ^ 32 + kind * 2 ^ 40 + slot * 2 ^ 44 + chk * 2 ^ 48)) with
    prio := prio, poison := poison, data := data }

/-- COLL_ABORT over both of a member's lines (R424, R427). -/
def State.sendAbort (s : State) (g : Group) (seq : BitVec 32) (reason : Nat) : State :=
  g.linePeers.foldl (fun (s : State) r => s.sendPkg (g.pkg r) 0 (collMsg 0x13 g.slot 10 0 reason seq 0 0 false [])) s

/-- The bytes of a formation record, a record of our own layout (assumption 20). -/
def formBytes (r : FormRecord) : List Byte :=
  leBytes 2 r.rank ++ leBytes 8 r.key.toNat ++ leBytes 8 r.digest.toNat ++ leBytes 8 r.seedCheck.toNat ++ leBytes 2 r.d1
    ++ leBytes 2 r.d2 ++ leBytes 4 r.split ++ leBytes 1 r.major ++ leBytes 4 r.epoch.toNat ++ leBytes 1 r.minor
    ++ List.replicate 24 0

/-- The bytes of a seal record, in a layout of our own (assumption 20). -/
def sealBytes (r : SealRecord) : List Byte :=
  leBytes 2 r.rank ++ [BitVec.ofNat 8 (r.nf.toNat + 2 * r.failed.toNat)] ++ leBytes 4 r.count ++ leBytes 8 r.digests.toNat
    ++ List.replicate 17 0

/-! ### Pending values (R444, R445) -/

/-- The handles whose values a REDUCE_UPDATE is making: W, M and V. -/
def Coll.updates (c : Coll) : List HKey := if c.opcode = 0x44 then c.handles.filterMap id else []

/-- Whether a handle has pending values, or a REDUCE_UPDATE received makes them (R439, R445). -/
def State.hasPending (s : State) (k : HKey) : Bool :=
  s.groups.any (fun g : Group => g.colls.any (fun c : Coll => c.updates.contains k)
    || g.pend.any (fun p : PendUpdate => p.values.any (fun v : Pend => v.key == k)))

/-- Whether a PERMUTE received writes a handle (R454). -/
def State.permuting (s : State) (k : HKey) : Bool :=
  s.groups.any (fun g : Group => g.colls.any (fun c : Coll => c.opcode == 0x43
    && ((c.table.isEmpty && c.handles.contains (some k))
      || c.table.any (fun e : MoveEntry => e.dstRank == g.rank && c.handles.getD e.dstT none == some k))))

/-- FREE discards the pending stripes of a handle, and the seal record then reports FAILED (R445). -/
def State.freePending (s : State) (k : HKey) : State :=
  let hit (p : PendUpdate) : Bool := p.values.any (fun v : Pend => v.key == k)
  let f (p : PendUpdate) : PendUpdate :=
    if hit p then { p with values := p.values.filter (fun v : Pend => v.key ≠ k), failed := true } else p
  { s with groups := s.groups.map (fun g : Group => ({ g with pend := g.pend.map f } : Group)) }

/-! ### Barrier slots of a broken group (R483) -/

/-- A barrier slot enters FAULT with a cause (R483, Table 13-10). -/
def State.barFault (s : State) (b : Fin 8) (cause : BitVec 2) : State :=
  (s.setBar b { s.syn.bars[b] with state := .fault, cause := cause }).event 0 (ev 0x0063 2 (b.val + cause.toNat * 16))

/-- The slots of a group enter FAULT as it breaks (R483). -/
def State.barsBroken (s : State) (slot : Nat) : State :=
  (List.finRange 8).foldl (fun (s : State) (b : Fin 8) =>
    let x := s.syn.bars[b]
    let live := x.state == BarState.waiting || x.state == BarState.arrived
    if live && x.cfg.getLsbD 30 && bitsOf x.cfg.toNat 29 26 == slot then s.barFault b 2 else s) s

end Sys2Proof.Machine
end

