-- ==== Sys2Proof/Machine/Place.lean ====
section
/-!
DEFINITION. The tiers: unit states, what lies in each unit, assignable capacity, placement of stripes and quotas
(R127 to R145, R148).
-/
namespace Sys2Proof.Machine

/-! ### Units and their states -/

/-- A bank's place in the list of all 64. -/
def bankIdx (h : Hub) (b : Fin 16) : Fin 64 := Fin.ofNat 64 (16 * h.val + b.val)

/-- The peer whose Penumbra a link carries. -/
def State.linkPeer (s : State) (l : LinkNo) : Option Peer :=
  match s.lnk.links[l].peer with
  | some p => s.peer? p.pkg
  | none => none

/-- A unit's state (Table 4-5); the Penumbra of a peer that is not known is OUT. -/
def State.unitState (s : State) : TierUnit → UnitState
  | .shade h b => s.units.shade[bankIdx h b]
  | .umbra k => s.units.stack[k]
  | .penumbra l => match s.linkPeer l with
    | some p => if p.out then .out else if p.frozen then .frozen else .inService
    | none => .out

/-- A unit takes new stripes (Table 4-5). -/
def UnitState.takes : UnitState → Bool
  | .inService | .reduced => true
  | _ => false

/-- A unit serves reads (Table 4-5). -/
def UnitState.readable : UnitState → Bool
  | .inService | .reduced | .frozen => true
  | _ => false

/-- A unit state's number (Table 4-5 in order). -/
def UnitState.code : UnitState → Nat
  | .inService => 0 | .reduced => 1 | .frozen => 2 | .emptied => 3 | .out => 4

/-- Whether two units are one, Penumbra being one unit per peer (R73). -/
def State.sameUnit (s : State) (a b : TierUnit) : Bool :=
  match a, b with
  | .penumbra l, .penumbra m =>
    (s.lnk.links[l].peer.map PeerHello.pkg) == (s.lnk.links[m].peer.map PeerHello.pkg) && s.lnk.links[l].peer.isSome
      || l == m
  | a, b => a == b

end Sys2Proof.Machine

namespace Sys2Proof

/-- The tier of a unit. -/
def TierUnit.tier : TierUnit → Nat
  | .shade _ _ => 2 | .umbra _ => 3 | .penumbra _ => 4

/-- The hub whose port serves a stripe's bytes (R28, R134). -/
def TierUnit.hub : TierUnit → Hub
  | .shade h _ => h
  | .umbra k => Fin.ofNat 4 (k.val / 2)
  | .penumbra l => Machine.linkHub l

/-- The name a unit has in records (Table 15-11): kinds 16, 9 and 17. -/
def TierUnit.name : TierUnit → UnitName
  | .shade h b => { hub := h.val, kind := 16, index := b.val, sub := 0 }
  | .umbra k => { hub := k.val / 2, kind := 9, index := k.val, sub := 0 }
  | .penumbra l => { hub := l.val / 8, kind := 17, index := l.val, sub := 0 }

end Sys2Proof

namespace Sys2Proof.Machine

/-- A unit takes a state; a UNIT_STATE event is recorded (Table 19-2). -/
def State.setUnit (s : State) (u : TierUnit) (st : UnitState) : State :=
  let old := s.unitState u
  let s := match u with
    | .shade h b => { s with units := { s.units with shade := Vector.set s.units.shade (bankIdx h b).val st } }
    | .umbra k => { s with units := { s.units with stack := Vector.set s.units.stack k.val st } }
    | .penumbra l => match s.linkPeer l with
      | some p => s.setPeer { p with out := st == UnitState.out, frozen := st == UnitState.frozen || st == UnitState.emptied }
      | none => s
  s.event u.hub (evU 0x0031 1 u.name.kind u.name.index (st.code + old.code * 8))

/-! ### What lies where -/

/-- Stripes of an object (R37). -/
def stripeCount (size : Nat) : Nat := (size + 2097151) / 2097152

/-- 4 KiB blocks of an object (R36). -/
def blockCount (size : Nat) : Nat := (size + 4095) / 4096

/-- The bytes of stripe `k`. -/
def stripeBytes (size k : Nat) : Nat := min 2097152 (size - k * 2097152)

/-- A tier's granule (R53). -/
def granule (tier : Nat) : Nat := if tier = 2 then 65536 else 2097152

/-- The bytes a stripe takes of its unit (R130, R131). -/
def stripeTakes (tier size k : Nat) : Nat := if tier = 2 then roundUp (stripeBytes size k) 65536 else 2097152

/-- Every location a handle holds: its homes, the targets of its copies and old locations not yet released. -/
def Handle.locations (h : Handle) : List (Nat × Home) :=
  (h.homes.zipIdx.map (fun x => (x.2, x.1)))
    ++ (match h.mig with
        | some m => m.copies.map (fun c => (c.stripe, c.target)) ++ m.old
        | none => [])

/-- A unit's epoch; for Penumbra, the epoch the peer's HELLO named (R405, R511). -/
def State.epochOf (s : State) (u : TierUnit) : BitVec 32 :=
  match u with
  | .penumbra l => ((s.linkPeer l).map Peer.epoch).getD 0
  | _ => s.unitEpoch u.name

/-- A home placed in a unit now. -/
def State.homeIn (s : State) (u : TierUnit) (f : StripeForm) : Home := { unit := u, form := f, epoch := s.epochOf u }

/-- Whether a home can be read: its unit serves reads, and holds what it held when the home was placed (R405, R512). -/
def State.homeReadable (s : State) (x : Home) : Bool := (s.unitState x.unit).readable && x.epoch == s.epochOf x.unit

/-- The pending stripes of a handle, by stripe (R444). -/
def State.pendHomes (s : State) (k : HKey) : List (Nat × Home) :=
  s.groups.flatMap (fun g : Group => g.pend.flatMap (fun p : PendUpdate =>
    (p.values.filter (fun v : Pend => v.key == k)).flatMap (fun v : Pend => v.homes.zipIdx.map (fun x => (x.2, x.1)))))

/-- The bytes handles hold in a unit, their pending stripes included. -/
def State.homeUse (s : State) (u : TierUnit) : Nat :=
  (s.hs.list.map (fun h => ((h.locations ++ s.pendHomes h.key).map (fun x =>
    if s.sameUnit x.2.unit u && x.2.epoch == s.epochOf u then stripeTakes u.tier h.shape.size x.1 else 0)).sum)).sum

/-- The 2 MiB frames of a stack that peers' windows and vault images take; the stack of an image's frame is not
visible, so images are spread evenly (assumption 13). -/
def State.guestFrames (s : State) (k : Stack) : Nat :=
  ((s.lnk.peers.map (fun p => (p.frameStacks.filter (fun f => f.2 == k.val)).length)).sum)
    + ((s.vault.images.map Image.frames).sum + 7 - k.val) / 8

/-- The bytes a unit offers to homes: 14 MiB a bank, 62 GiB a stack with the free reserve above its last 128 frames for
drains, a peer's grant (R67, R127, R128, R137, R541). -/
def State.unitRoom (s : State) (u : TierUnit) (reserve : Bool) : Nat :=
  match u with
  | .shade _ _ => 14680064
  | .umbra k => (31744 - s.guestFrames k + (if reserve then 832 - s.reserveUsed k else 0)) * 2097152
  | .penumbra l => ((s.linkPeer l).map Peer.grantHeld).getD 0

/-- Whether a unit can take `n` more bytes besides `taken`, the bytes the present request has already placed there. -/
def State.canTake (s : State) (u : TierUnit) (n taken : Nat) (reserve : Bool) : Bool :=
  (s.unitState u).takes && decide (s.homeUse u + taken + n ≤ s.unitRoom u reserve)

/-- Whether any handle has a location in a unit as it is now. -/
def State.holdsHome (s : State) (u : TierUnit) : Bool :=
  s.hs.list.any (fun h => h.locations.any (fun x => s.sameUnit x.2.unit u && x.2.epoch == s.epochOf u))

/-! ### Placement (R129 to R133) -/

/-- The places already chosen by one request, the bank pointers and the spills. -/
structure Placing where
  chosen : List TierUnit
  sizes : List Nat
  ptr : Vector Nat 4
  spills : Nat

/-- The bytes the request has already placed in a unit. -/
def Placing.taken (p : Placing) (s : State) (u : TierUnit) : Nat :=
  ((List.zip p.chosen p.sizes).map (fun x => if s.sameUnit x.1 u then x.2 else 0)).sum

/-- The bank of a hub for the next stripe, from its pointer on (R130). -/
def State.nextBank (s : State) (p : Placing) (h : Hub) (n : Nat) : Option (Fin 16) :=
  ((List.range 16).map (fun i => Fin.ofNat 16 (p.ptr[h] + i))).find? (fun b =>
    s.canTake (.shade h b) n (p.taken s (.shade h b)) false)

/-- A stripe put in one entry of the unit list: a hub, a stack or a link. -/
def State.placeIn (s : State) (tier : Nat) (i n : Nat) (reserve : Bool) (p : Placing) : Option Placing :=
  if tier = 2 then
    match s.nextBank p (hubOf i) n with
    | some b => some { p with chosen := p.chosen ++ [.shade (hubOf i) b], sizes := p.sizes ++ [n],
                              ptr := Vector.set p.ptr (hubOf i).val ((b.val + 1) % 16) }
    | none => none
  else
    let u : TierUnit := if tier = 3 then .umbra (Fin.ofNat 8 i) else .penumbra (Fin.ofNat 32 i)
    if s.canTake u n (p.taken s u) reserve then
      some { p with chosen := p.chosen ++ [u], sizes := p.sizes ++ [n] }
    else none

/-- The unit list L of R129: hubs, stacks, or the links of the bundle. -/
def State.unitList (s : State) (pl : Placement) : List Nat :=
  if pl.tier = 2 then maskList 4 pl.hubMask
  else if pl.tier = 3 then maskList 8 pl.stackMask
  else match s.bundlePeer (Fin.ofNat 32 pl.peer) with
    | some pkg => (s.bundle pkg).map Fin.val
    | none => []

/-- The units of a tier outside L that a spilled stripe may take (R132); none for Penumbra, whose PEER names one grant
(R145). -/
def outsideList (pl : Placement) (l : List Nat) : List Nat :=
  (List.range (if pl.tier = 2 then 4 else if pl.tier = 3 then 8 else 0)).filter (fun i => i ∉ l)

/-- The first entry of a list that takes the stripe, with its place in the list. -/
def State.tryUnits (s : State) (tier n : Nat) (reserve : Bool) (p : Placing) : List Nat → Nat → Option (Placing × Nat)
  | [], _ => none
  | i :: rest, j => match s.placeIn tier i n reserve p with
    | some p' => some (p', j)
    | none => s.tryUnits tier n reserve p rest (j + 1)

/-- Stripe `k` of object `o` placed (R129, R132). -/
def State.placeOne (s : State) (pl : Placement) (o size k : Nat) (reserve : Bool) (p : Placing) : Option Placing :=
  let l := s.unitList pl
  if l.isEmpty then none
  else
    let start := (k + o % l.length) % l.length
    let order := l.drop start ++ l.take start ++ outsideList pl l
    match s.tryUnits pl.tier (stripeTakes pl.tier size k) reserve p order 0 with
    | some (p', j) => some { p' with spills := p'.spills + (if j = 0 then 0 else 1) }
    | none => none

/-- Every stripe of a list placed, or none. -/
def State.placeAll (s : State) (pl : Placement) (o size : Nat) (stripes : List Nat) : Option Placing :=
  stripes.foldl (fun a k => a.bind (s.placeOne pl o size k false))
    (some { chosen := [], sizes := [], ptr := s.units.bankPtr, spills := 0 })

/-- The pending stripes of a handle placed: in its home's tier, in free space or else in the reserve (R24, R444). -/
def State.placePending (s : State) (pl : Placement) (o size : Nat) : Option Placing :=
  let none_ : Placing := { chosen := [], sizes := [], ptr := s.units.bankPtr, spills := 0 }
  let all (reserve : Bool) : Option Placing :=
    (List.range (stripeCount size)).foldl (fun a k => a.bind (s.placeOne pl o size k reserve)) (some none_)
  match all false with
  | some p => some p
  | none => all true

/-- The bank pointers and spill counts after a placement (R130, R132). -/
def State.placed (s : State) (ctx : Nat) (p : Placing) : State :=
  let s := { s with units := { s.units with bankPtr := p.ptr } }
  match s.ctx? ctx with
  | some c => s.setCtx { c with spills := c.spills + p.spills }
  | none => s

/-! ### Capacity and quotas (R127, R128, R135 to R145) -/

/-- A stack counts toward assignable capacity: it takes stripes (Table 4-5), or UMBRA is not reached yet and nothing
stored says that the stack will not serve (DEDUCED from R128 and R607: a stack becomes OUT only when its training has
failed; assumption 16). -/
def State.stackCounts (s : State) (k : Fin 8) : Bool :=
  if s.start.umbra then s.units.stack[k].takes
  else !(s.rel.hubs[hubOf (k.val / 2)].lost || s.rel.repair.retired.any (fun u => u.kind == 9 && u.index == k.val)
      || s.rel.repair.erasure.any (fun e => e.1 == k.val))

/-- A tier's assignable capacity in bytes. -/
def State.capacity (s : State) (tier : Nat) : Nat :=
  if tier = 2 then (s.units.shade.toList.filter UnitState.takes).length * 14680064
  else if tier = 3 then
    ((List.finRange 8).filter s.stackCounts).length * 66571993088 - (s.lnk.peers.map Peer.grantGiven).sum
  else (s.lnk.peers.map (fun p => if p.out || p.frozen then 0 else p.grantHeld)).sum

/-- The sum of all contexts' quotas in a tier. -/
def State.quotaSum (s : State) (tier : Nat) : Nat := (s.ctxs.map (fun c => (c.ledger tier).quota)).sum

/-- Whether a context's ledger takes a charge (R140, R142). -/
def State.ledgerTakes (s : State) (ctx tier n : Nat) : Bool :=
  match s.ctx? ctx with
  | some c => decide ((c.ledger tier).charge + n ≤ (c.ledger tier).quota)
  | none => false

/-- A handle's charge in a tier. -/
def Handle.charged (h : Handle) (tier : Nat) : Nat :=
  if tier = 2 then h.chargeShade else if tier = 3 then h.chargeUmbra else h.chargePenumbra

/-- A handle's charge in a tier replaced. -/
def Handle.setCharged (h : Handle) (tier n : Nat) : Handle :=
  if tier = 2 then { h with chargeShade := n } else if tier = 3 then { h with chargeUmbra := n }
  else { h with chargePenumbra := n }

/-- What a handle is charged for a home in a tier (R53). -/
def chargeFor (tier size : Nat) : Nat := roundUp size (granule tier)

/-- Every charge of a handle returned (Table 2-7). -/
def State.returnCharges (s : State) (h : Handle) : State :=
  ((s.charge h.key.ctx 2 (-(h.chargeShade : Int))).charge h.key.ctx 3 (-(h.chargeUmbra : Int))).charge h.key.ctx 4
    (-(h.chargePenumbra : Int))

/-- TIER_SHRUNK after a freeze: recorded, and reported on the admin ring by a NOTICE whose code the spec does not give
(R144, assumption 14). -/
def State.checkShrunk (s : State) (tier before : Nat) (h : Hub) : State :=
  let now := s.capacity tier
  if now < s.quotaSum tier then
    let s := s.event h (ev 0x0030 2 (tier + ((before - now) / 1048576) * 2 ^ 32))
    let (v, s) := s.fresh 64
    if s.start.level == .ring then s.post 0 true 0 0 0 false 5 v else s
  else s

end Sys2Proof.Machine
end

