-- ==== Sys2Proof/Machine/LaneOps.lean ====
section
/-!
DEFINITION. The work codec lanes have: which stripes of a fill or a migration are compressed or expanded, and the jobs
that wait (R197, R201 to R203, R225).
-/
namespace Sys2Proof.Machine

/-- The number of blocks of stripe `k` of an object (R36). -/
def stripeLen (size k : Nat) : Nat := (min (size - k * 2097152) 2097152 + 4095) / 4096

/-- A new number for a request to the lanes. -/
def State.nextLaneRequest (s : State) : Nat × State :=
  (s.codec.nextRequest, { s with codec := { s.codec with nextRequest := s.codec.nextRequest + 1 } })

/-- Jobs join those that wait. -/
def State.addJobs (s : State) (js : List LaneJob) : State :=
  { s with codec := { s.codec with jobs := s.codec.jobs ++ js } }

/-- The compression of one stripe (R201, R202). -/
def compressJob (key : HKey) (size stripe : Nat) (hub : Hub) (prio request : Nat) : LaneJob :=
  { hub := hub, key := key, stripe := stripe, firstBlock := 0, blocks := stripeLen size stripe, compress := true,
    prio := prio, request := request, restoring := false }

/-- The expansion of blocks `first` to `last` of a stripe, 64 to a job (R201). -/
def expandJobs (key : HKey) (stripe first last : Nat) (hub : Hub) (prio request : Nat) (restoring : Bool) : List LaneJob :=
  (List.range ((last + 64 - first) / 64)).map (fun i =>
    { hub := hub, key := key, stripe := stripe, firstBlock := first + 64 * i,
      blocks := min 64 (last + 1 - (first + 64 * i)), compress := false, prio := prio, request := request,
      restoring := restoring })

/-- The jobs of one hub's lanes and those that wait. -/
def State.laneJobs (s : State) : List LaneJob :=
  s.codec.jobs ++ s.codec.lanes.toList.flatMap (fun v => v.toList.filterMap Lane.job)

/-- Whether a stripe of a fill or migration still has lane work. -/
def State.onLanes (s : State) (k : HKey) (stripe : Nat) : Bool :=
  s.laneJobs.any (fun j => !j.restoring && j.key == k && j.stripe == stripe)

/-- Whether any stripe of a handle's fill or migration still has lane work. -/
def State.anyOnLanes (s : State) (k : HKey) : Bool := s.laneJobs.any (fun j => !j.restoring && j.key == k)

/-- Lane work of a kind is given up: it leaves the queue and the lanes. -/
def State.dropJobs (s : State) (p : LaneJob → Bool) : State :=
  let clear (l : Lane) : Lane := match l.job with
    | some j => if p j then { l with job := none } else l
    | none => l
  { s with codec := { s.codec with jobs := s.codec.jobs.filter (fun j => !p j),
                                   lanes := s.codec.lanes.map (fun v => v.map clear) } }

/-- The lane work of a handle's fill or migration is given up. -/
def State.dropLaneWork (s : State) (k : HKey) : State :=
  let s := s.dropJobs (fun j => !j.restoring && j.key == k)
  { s with codec := { s.codec with unverified := s.codec.unverified.filter (fun x => x.1 ≠ k) } }

end Sys2Proof.Machine
end

