-- ==== Sys2Proof/Machine/Narrow.lean ====
section
/-!
DEFINITION. The narrow stage (chapter 06): groups, levels, frames, the error measure's ladder, and the widening that
every delivery does (R86, R212 to R231).
-/
namespace Sys2Proof.Machine

/-- The block format a narrow format code stands for at level 0 (Table 6-1): MXFP4, SX-INT4 or MASK1. -/
def levelZeroFmt (nf : Nat) : Nat := if nf = 1 then 8 else if nf = 2 then 0x0A else 0x0B

/-- The top level of a source format (R213). -/
def topLevel (fmt : Nat) : Nat := if fmt = 2 then 2 else 3

/-- Record bytes of a group at a level (Table 6-2). -/
def recordBytes (fmt nf level : Nat) : Nat :=
  match level with
  | 0 => if nf = 1 then 17 else if nf = 2 then 18 else 4
  | 1 => 33
  | 2 => 64
  | _ => if fmt = 1 then 128 else 64

/-- A group as stored: its level, record, delivered encodings, flags and class. -/
structure NGroup where
  level : Nat
  record : List Byte
  out : List Nat
  ovf : Bool
  ufz : Bool
  cls : Nat
deriving DecidableEq, Repr

/-- The encoding of a stored value in the registered format, none where it is not exactly representable (R217);
a zero is stored with sign 0 (R216). -/
def widenVal (fmt : Nat) (v : Val) : Option Nat :=
  match scalarFmt fmt, v with
  | some f, .fin neg m e =>
    if m = 0 then some 0
    else
      let r := roundExact f ⟨neg, m, e, false⟩ none
      if r.ovf || r.ufz then none
      else match decodeFloat f r.bits with
        | .fin _ m' e' =>
          let e0 := min e e'
          if m * 2 ^ (e - e0).toNat = m' * 2 ^ (e' - e0).toNat then some r.bits else none
        | _ => none
  | _, _ => none

/-- Convert a group to level 0, 1 or 2 (Table 6-5): stored values, record, saturation of any element. -/
def convertGroup (nf level : Nat) (xs : List Val) : List Val × List Byte × Bool :=
  if level = 2 then
    let rs := xs.map (fun v => roundVal fmtBF16 v none)
    (rs.map (fun r => decodeFloat fmtBF16 r.bits),
     rs.flatMap (fun r => leBytes 2 (if r.bits = 0x8000 then 0 else r.bits)), rs.any (·.ovf))
  else
    let bf := if level = 1 then 6 else levelZeroFmt nf
    if bf = 0x0B then
      let half : Val := .fin false 1 (-1)
      let bits := xs.map (fun v => vLt half v)
      (bits.map (fun b => .fin false (if b then 1 else 0) 0),
       leBytes 4 ((bits.zipIdx.map (fun p => if p.1 then 2 ^ p.2 else 0)).sum), false)
    else
      let q := quantGroup bf xs (fun _ => none)
      let eb := elemBits bf
      let clean := q.elems.map (fun w => if vIsZero (elemVal bf w 127) then 0 else w)
      let packed := ((clean.zipIdx).map (fun p => p.1 * 2 ^ (eb * p.2))).sum
      (clean.map (fun w => elemVal bf w q.scale),
       leBytes 1 q.scale ++ leBytes (32 * eb / 8) packed, q.ovf)

/-- The level, record and delivered values of a group (R220). -/
def narrowGroup (fmt nf bound : Nat) (codes : List Nat) : NGroup :=
  let xs := codes.map (fun w => elemVal fmt w 0)
  let eb := elemBits fmt / 8
  let top : NGroup := ⟨topLevel fmt, codes.flatMap (leBytes eb), codes, false, false, 0⟩
  if xs.any (fun v => !vFinite v) then top
  else
    let attempt := fun level =>
      let (qs, rcd, sat) := convertGroup nf level xs
      let outs := qs.map (widenVal fmt)
      let ms := groupMeasure xs qs
      if outs.any (·.isNone) then none
      else if measurePasses bound ms.1 ms.2 then
        let cls := if level = 0 && nf == 2 then errorClass ms.1 ms.2 else 0
        let rcd' := if level = 0 && nf == 2 then rcd.take 1 ++ [BitVec.ofNat 8 cls] ++ rcd.drop 1 else rcd
        some (⟨level, rcd', outs.filterMap id, sat,
          (xs.zip qs).any (fun p => !vIsZero p.1 && vIsZero p.2), cls⟩ : NGroup)
      else none
    match attempt 0 with
    | some g => g
    | none => match attempt 1 with
      | some g => g
      | none =>
        if fmt = 2 then top
        else match attempt 2 with
          | some g => g
          | none => top

/-- The groups of a 4 KiB block: 64 of a 2-byte format, 32 of FP32 (R212). -/
def blockGroups (fmt : Nat) (raw : List Byte) : List (List Nat) :=
  let eb := elemBits fmt / 8
  (chunks (32 * eb) (4096 / (32 * eb)) raw).map (fun g => (chunks eb 32 g).map leValue)

/-- Content bytes of a frame (R214). -/
def frameContent (gs : List NGroup) : Nat := 16 + (gs.map (fun g => g.record.length)).sum

/-- A frame (Table 6-3). -/
def frameBytes (gs : List NGroup) : List Byte :=
  let map := ((gs.zipIdx).map (fun p => p.1.level * 4 ^ p.2)).sum
  let body := leBytes 16 map ++ gs.flatMap (·.record)
  body ++ List.replicate (4096 - body.length) 0#8

/-- The delivered bytes of a framed block (R86). -/
def widenedBytes (fmt : Nat) (gs : List NGroup) : List Byte :=
  gs.flatMap (fun g => g.out.flatMap (leBytes (elemBits fmt / 8)))

/-- What the narrow stage makes of a stripe: its form, delivered blocks, frames, flags and report counts. -/
structure NStripe where
  cause : Nat
  frames : List (List Byte)
  delivered : List (List Byte)
  ovf : Bool
  ufz : Bool
  widens : Nat
  levels : List Nat
  classes : List Nat
  unframeable : Nat
  poisonedThrough : Nat
deriving DecidableEq, Repr

/-- The narrow stage on a stripe (R220 to R222, R228). `exhausted` is cause 1, `verifierFailed` cause 4. -/
def narrowStripe (fmt nf bound budget : Nat) (exhausted verifierFailed : Bool) (poison : Nat → Bool)
    (blocks : List (List Byte)) : NStripe :=
  let gs := (blocks.zipIdx).map (fun p => if poison p.2 then [] else (blockGroups fmt p.1).map (narrowGroup fmt nf bound))
  let all := gs.flatten
  let widens := all.countP (fun g => g.level != 0)
  let groups := blocks.length * (4096 / (4 * elemBits fmt))
  let unfr := gs.countP (fun b => decide (frameContent b > 4096))
  let cause := if exhausted then 1 else if unfr > 0 then 2 else if widens > budget * groups / 65536 then 3
    else if verifierFailed then 4 else 0
  let levels := (List.range 4).map (fun l => all.countP (fun g => g.level == l))
  let classes := (List.range 16).map (fun k => if nf = 2 then all.countP (fun g => g.level == 0 && g.cls == k) else 0)
  let thru := (List.range blocks.length).countP poison
  if cause = 0 then
    ⟨0, (gs.zip blocks).map (fun p => if p.1 = [] then p.2 else frameBytes p.1),
     (gs.zip blocks).map (fun p => if p.1 = [] then p.2 else widenedBytes fmt p.1),
     all.any (·.ovf), all.any (·.ufz), widens, levels, classes, unfr, thru⟩
  else ⟨cause, blocks, blocks, false, false, widens, levels, classes, unfr, thru⟩

/-! ### Widening a stored frame (R86, R214, R217, R229) -/

/-- The values a record delivers, as encodings of the registered format; none where it holds what is never written
(Table 6-4, R229). -/
def widenRecord (fmt nf level : Nat) (r : List Byte) : Option (List Nat) :=
  let w := leValue r
  let scale := w % 256
  let widen (bf off eb : Nat) (never : Nat → Bool) : Option (List Nat) :=
    let cs := (List.range 32).map (fun e => bitsOf w (off + eb * e + eb - 1) (off + eb * e))
    if scale = 255 || cs.any never then none
    else
      let vs := cs.map (fun c => widenVal fmt (elemVal bf c scale))
      if vs.any Option.isNone then none else some (vs.filterMap id)
  if level = 3 then some ((chunks (elemBits fmt / 8) 32 r).map leValue)
  else if level = 2 then
    let cs := (chunks 2 32 r).map leValue
    let vs := cs.map (fun c => if fmt = 2 then some c else widenVal fmt (decodeFloat fmtBF16 c))
    if vs.any Option.isNone then none else some (vs.filterMap id)
  else if level = 1 then widen 6 8 8 (fun c => c % 128 == 127)
  else if nf = 1 then widen 8 8 4 (fun _ => false)
  else if nf = 2 then if bitsOf w 15 12 ≠ 0 then none else widen 0x0A 16 4 (fun c => c == 8)
  else
    let one := (widenVal fmt (.fin false 1 0)).getD 0
    some ((List.range 32).map (fun e => if bitOf w e then one else 0))

/-- The records of a frame from its levels: the bytes left over must be zero (Table 6-3, R229). -/
def widenRecords (fmt nf : Nat) : List Nat → List Byte → Option (List Nat)
  | [], rest => if rest.all (· == 0#8) then some [] else none
  | l :: ls, bytes =>
    let n := recordBytes fmt nf l
    if topLevel fmt < l || bytes.length < n then none
    else match widenRecord fmt nf l (bytes.take n), widenRecords fmt nf ls (bytes.drop n) with
      | some a, some b => some (a ++ b)
      | _, _ => none

/-- The delivered bytes of a frame; none where it breaks Table 6-3 or 6-4 (R229). -/
def widenFrame (fmt nf : Nat) (frame : List Byte) : Option (List Byte) :=
  let eb := elemBits fmt / 8
  let groups := 4096 / (32 * eb)
  let map := leValue (frame.take 16)
  if map ≥ 4 ^ groups then none
  else (widenRecords fmt nf ((List.range groups).map (fun g => bitsOf map (2 * g + 1) (2 * g))) (frame.drop 16)).map
    (fun cs => cs.flatMap (leBytes eb))

end Sys2Proof.Machine
end

