-- ==== Sys2Proof/Machine/Handles.lean ====
section
/-!
DEFINITION. Handles: registration, classification, freeing, and what ends a fill or stops a migration (chapters 02, 03
and 06).
-/
namespace Sys2Proof.Machine

/-! ### Codes -/

/-- A fate of a code (Table 2-4). -/
def Fate.ofCode (n : Nat) : Fate :=
  if n = 0 then .keep else if n = 1 then .stash else if n = 2 then .press else if n = 3 then .narrow
  else if n = 4 then .recompute else .drop

/-- A fate's code. -/
def Fate.code : Fate → Nat
  | .keep => 0 | .stash => 1 | .press => 2 | .narrow => 3 | .recompute => 4 | .drop => 5

/-- A fate with a home in the Aedvos (Table 2-4). -/
def Fate.stored : Fate → Bool
  | .stash | .press | .narrow => true
  | _ => false

/-- A state's code (Table 2-6). -/
def HState.code : HState → Nat
  | .registered => 1 | .filling => 2 | .resident => 3 | .migrating => 4 | .latent => 5 | .regenerating => 6
  | .discarded => 7 | .faulted => 8 | .freeing => 9


end Sys2Proof.Machine

namespace Sys2Proof

/-- The hub that holds a handle's entry (R47). -/
def HKey.entry (k : HKey) : Hub := Machine.hubOf k.obj

end Sys2Proof

namespace Sys2Proof.Machine

/-- A handle's word (R38). -/
def Handle.word (h : Handle) : Nat := handleWord h.key h.gen

/-- The last generation issued to an object number, 0 when none (R41). -/
def State.genOf (s : State) (k : HKey) : BitVec 8 :=
  ((s.hs.gens.find? (fun g => g.1 == k)).map Prod.snd).getD 0

/-- The generation after one: 255 is followed by 1 (R41). -/
def nextGen (g : BitVec 8) : BitVec 8 := if g = 255 then 1 else g + 1

/-- The pins on a handle: RECOMPUTE handles in LATENT, REGENERATING, or FREEING and not yet released, that list it as an
input (Tables 2-6 and 2-7). -/
def State.pins (s : State) (k : HKey) : Nat :=
  (s.hs.list.filter (fun x => x.fate == .recompute && (x.state == .latent || x.state == .regenerating || x.state == .freeing)
    && (match x.recipe with
        | some r => r.inputs.any (fun i => decide (i.handle.toNat / 2 ^ 8 = k.ctx * 2 ^ 40 + k.obj))
        | none => false))).length

/-- The three sticky flags as a completion carries them (R292). -/
def Marks.bits (m : Marks) : BitVec 3 := BitVec.ofBool m.nf ++ BitVec.ofBool m.ufz ++ BitVec.ofBool m.ovf

/-- The key a handle word names. -/
def wordKey (w : Nat) : HKey := { ctx := w / 2 ^ 48, obj := w / 2 ^ 8 % 2 ^ 40 }

/-- A handle that a command names, checked in the order of R698: BAD_HANDLE, CONTEXT_MISMATCH, STALE_HANDLE. -/
def State.named (s : State) (ctx w : Nat) : Except (BitVec 8) Handle :=
  if 4095 < w / 2 ^ 48 || w / 2 ^ 8 % 2 ^ 40 = 0 then .error 0x10
  else if w / 2 ^ 48 ≠ ctx then .error 0x12
  else match s.handle? (wordKey w) with
    | none => .error 0x11
    | some h => if h.gen.toNat ≠ w % 256 || h.state == .freeing then .error 0x11 else .ok h

/-- No marks and nothing recorded. -/
def Marks.none : Marks :=
  { digest := 0, received := 0, tiles := [], tilesKnown := false, ovf := false, ufz := false, nf := false, poison := [] }

/-- A narrow report of nothing (Table 6-7). -/
def NarrowReport.none : NarrowReport :=
  { levels := [0, 0, 0, 0], widens := 0, classes := List.replicate 16 0, unframeable := 0, narrowed := 0,
    full := [0, 0, 0, 0], poisonedThrough := 0, exhausted := false }

/-! ### Registration (R46 to R55, R101 to R107, R702) -/

/-- What a REGISTER asks for, from its descriptor and the plan. -/
structure Reg where
  shape : Shape
  producer : Bool
  mutable : Bool
  fate : Nat
  place : Placement
  perms : Perms
  keep : Nat
  planned : Bool

/-- Permissions of an unplanned object. -/
def Perms.plain (producer mutable : Bool) : Perms :=
  { narrow := false, tolerant := false, mutable := mutable, producer := producer, adaptNarrow := false, pinTier := false,
    noSwap := false, planned := false, narrowFormat := 0, errorBound := 0, widenBudget := 0 }

/-- The fields of a REGISTER descriptor (Table 9-5). -/
def regOf (d : Desc) : Reg :=
  { shape := { size := d.f 167 128 + 1, format := d.f 127 120, rows := d.f 223 192, rowLen := d.f 255 224,
               tag := BitVec.ofNat 16 (d.f 191 176), set := d.f 119 116 }
    producer := d.f 114 114 == 1, mutable := d.f 115 115 == 1, fate := d.f 106 104
    place := { tier := d.f 323 320, hubMask := d.f 339 336, stackMask := d.f 351 344, peer := d.f 359 352 }
    perms := Perms.plain (d.f 114 114 == 1) (d.f 115 115 == 1), keep := d.f 319 256, planned := false }

/-- Whether a rule matches a registration (R105). -/
def Rule.matches (r : Rule) (g : Reg) : Bool :=
  r.enable && (r.producerSel == 0 || (r.producerSel == 2) == g.producer)
    && (r.mutableSel == 0 || (r.mutableSel == 2) == g.mutable)
    && (r.format == 0xFF || r.format == g.shape.format) && bitOf r.hsetMask g.shape.set
    && decide (2 ^ r.sizeMin ≤ g.shape.size ∧ g.shape.size ≤ 2 ^ r.sizeMax)
    && (g.shape.tag.toNat &&& r.tagMask) == r.tagValue && (r.fate != .keep || g.keep != 0)

/-- The default placement: Umbra over all eight stacks (R107). -/
def defaultPlace : Placement := { tier := 3, hubMask := 0, stackMask := 0xFF, peer := 0 }

/-- The result of the policy table and whether it was a tie: the highest priority, then the lowest number; the default
when no rule matches (R106, R107). -/
def classify (rules : List Rule) (g : Reg) : (Fate × Placement) × Bool :=
  let ms := rules.filter (fun r => r.matches g)
  let top := ms.foldl (fun a r => max a r.priority) 0
  let best := ms.filter (fun r => r.priority == top)
  match best.foldl (fun (a : Option Rule) r => match a with
      | none => some r
      | some b => if r.number < b.number then some r else some b) none with
  | none => ((.stash, defaultPlace), false)
  | some r => ((r.fate, if r.place.tier = 0 && r.fate.stored then defaultPlace else r.place), decide (1 < best.length))

/-- Whether an attribute given non-zero differs from the plan's (R101). -/
def planDiffers (d : Desc) (t : PlanTensor) : Bool :=
  let g := regOf d
  let bad (x y : Nat) : Bool := x != 0 && x != y
  bad (d.f 167 128) (t.shape.size - 1) || bad g.shape.format t.shape.format || bad g.shape.rows t.shape.rows
    || bad g.shape.rowLen t.shape.rowLen || bad g.shape.tag.toNat t.shape.tag.toNat || bad g.shape.set t.shape.set
    || (g.producer && !t.producer) || (g.mutable && !t.mutable) || (g.fate != 7 && g.fate != t.fate.code)

/-- What the registration is to be, by the plan, by the descriptor, or by the policy table; with its tie (R101, R102,
R106). -/
def resolveReg (c : Ctx) (d : Desc) : Except (BitVec 8) (Reg × Fate × Bool) :=
  let g := regOf d
  match c.active.bind (fun p => p.tensors.find? (fun t => t.obj == d.f 103 64)) with
  | some t =>
    if planDiffers d t then .error 0x34
    else if t.fate == .keep && g.keep = 0 then .error 0x03
    else .ok ({ g with shape := t.shape, producer := t.producer, mutable := t.mutable, place := t.place,
                       perms := t.perms, planned := true }, t.fate, false)
  | none =>
    if g.fate = 7 then
      let ((f, p), tie) := classify c.rules g
      .ok ({ g with place := p }, f, tie)
    else
      let f := Fate.ofCode g.fate
      .ok ({ g with place := if f.stored && g.place.tier = 0 then defaultPlace else g.place }, f, false)

/-- The command checks of R702 on the descriptor. -/
def regFieldsBad (d : Desc) : Bool :=
  let g := regOf d
  (g.fate == 0 && g.keep == 0) || (1 ≤ g.fate && g.fate ≤ 5 && g.keep != 0)
    || ((g.fate == 0 || g.fate == 4 || g.fate == 5) && g.place.tier != 0)
    || (g.place.tier == 2 && g.place.hubMask == 0) || (g.place.tier == 3 && g.place.stackMask == 0)
    || d.f 103 64 == 0

/-- Whether a fate is permitted for a registration (R52, R55). -/
def fatePermitted (g : Reg) (f : Fate) : Bool :=
  !(f == .narrow && !g.perms.narrow) && !(f == .recompute && !g.producer && !g.perms.tolerant)
    && !(g.mutable && f != .keep && f != .stash)

/-- The 4 KiB-rounded bytes of the activation range in use in a context (R34). -/
def State.rangeUsed (s : State) (ctx : Nat) : Nat :=
  ((s.hs.list.filter (fun h => h.key.ctx == ctx)).map (fun h => roundUp h.shape.size 4096)).sum

/-- REGISTER acts (R46 to R55, Table 2-7). -/
def State.register (s : State) (d : Desc) (t : Ticket) : State :=
  let k : HKey := { ctx := s.descCtx d, obj := d.f 103 64 }
  let fail (e : BitVec 8) : State := s.complete t { status := e }
  match s.ctx? k.ctx with
  | none => fail 0x51
  | some c =>
    match resolveReg c d with
    | .error e => fail e
    | .ok (g, f, tie) =>
      let s := if tie then s.setCtx { c with counts := { c.counts with ties := c.counts.ties + 1 } } else s
      let fail (e : BitVec 8) : State := s.complete t { status := e }
      if !shapeOk g.shape.format g.shape.size g.shape.rows g.shape.rowLen then fail 0x28
      else if (s.handle? k).isSome then fail 0x14
      else if !fatePermitted g f then fail 0x18
      else if 2 ^ 48 < s.rangeUsed k.ctx + roundUp g.shape.size 4096 then fail 0x15
      else if 262144 ≤ (s.hs.list.filter (fun h => h.key.entry == k.entry)).length then fail 0x16
      else
        let gen := nextGen (s.genOf k)
        let h : Handle :=
          { key := k, gen := gen, shape := g.shape, fate := f,
            perms := { g.perms with mutable := g.mutable, producer := g.producer, planned := g.planned }, place := g.place,
            keepAddr := if f == .keep then g.keep else 0, state := if f == .drop then .discarded else .registered,
            readers := 0, updates := 0, homes := [], recipe := none, marks := Marks.none, chargeShade := 0,
            chargeUmbra := 0, chargePenumbra := 0, report := NarrowReport.none, content := [], frames := [], fill := none, mig := none,
            waiting := [], pendingValue := none }
        let gs : List (HKey × BitVec 8) := s.hs.gens.filter (fun x => decide (x.1 ≠ k)) ++ [(k, gen)]
        let s := { s with hs := { list := s.hs.list ++ [h], gens := gs } }
        s.complete t { status := 0, result := BitVec.ofNat 64 h.word }

/-- REGISTER's FORMAT is a code of Table 8-1, or 0 where the plan gives it. -/
def regFmtOk (d : Desc) : Bool := d.f 127 120 == 0 || fmtValid (d.f 127 120)

/-- What R313 checks of REGISTER. -/
def registerSpec (d : Desc) : DescSpec :=
  let g := regOf d
  { job := true, admin := true
    used := [(106, 64), (115, 114), (127, 116), (167, 128), (319, 176), (323, 320), (339, 336), (359, 344)]
    range := g.fate != 6 && (g.place.tier == 0 || (2 ≤ g.place.tier && g.place.tier ≤ 4))
      && g.place.peer < 32 && regFmtOk d && !regFieldsBad d
    addrs := [(g.keep, 1)] }

/-- REGISTER (R46, Table 9-5). -/
def execRegister (d : Desc) (s : State) : Out :=
  .next (s.withDesc d (registerSpec d) (fun t s => s.register d t))

/-! ### Fills and migrations that end early -/

/-- A restore of a batch has ended with a status (R111). -/
def State.batchEnded (s : State) (ctx b i : Nat) (st : BitVec 8) : State :=
  match s.ctx? ctx with
  | some c => match c.step with
    | some r =>
      let bs := r.batches.modify b (fun (x : BatchRun) => { x with ended := x.ended ++ [(i, st)] })
      s.setCtx { c with step := some { r with batches := bs } }
    | none => s
  | none => s

/-- A restore that waited for a fill ends with the fill's status (R59, R111). -/
def State.endWaiting (s : State) (ws : List WaitingRestore) (st : BitVec 8) : State :=
  ws.foldl (fun (s : State) (w : WaitingRestore) => match w.batch with
    | some (b, i) => s.batchEnded w.ringCtx b i st
    | none => s.complete w.ticket { status := st }) s

/-- How often a run reads a handle: for each input, and once for the handle it delivers (Table 2-12). -/
def Run.reads (r : Run) (k : HKey) : Nat :=
  (r.inputs.filter (fun i : RunInput => i.handle == some k)).length
    + (if r.kind == RunKind.regenerate && r.target == some k then 1 else 0)

/-- A run and the regenerations of its inputs end: its tiles leave their engines, and it no longer reads its inputs. -/
def State.dropRun (s : State) (id : Nat) : State :=
  let dead (r : Run) : Bool := r.id == id || (match r.kind with
    | .input p _ => p == id
    | _ => false)
  let gone := s.eng.runs.filter dead
  let free (e : Nat × Engine) : Nat × Engine := match e.2.tile with
    | some t => if gone.any (fun r => r.id == t.run) then (e.1, { e.2 with tile := none }) else e
    | none => e
  let hs := s.hs.list.map (fun h : Handle =>
    ({ h with readers := h.readers - (gone.map (fun r : Run => r.reads h.key)).sum } : Handle))
  { s with eng := { s.eng with runs := s.eng.runs.filter (fun r => !dead r), engines := s.eng.engines.map free },
           hs := { s.hs with list := hs } }

/-- A handle whose fill failed is REGISTERED again, its blocks released and its charge returned (Table 2-7). -/
def State.unfill (s : State) (h : Handle) : State :=
  ((s.dropLaneWork h.key).returnCharges h).setHandle
    { h with state := .registered, homes := [], content := [], frames := [], fill := none, waiting := [], chargeShade := 0,
             chargeUmbra := 0, chargePenumbra := 0, marks := Marks.none, report := NarrowReport.none, recipe := none }

/-- A LATENT handle's state once one of its runs has gone (Table 2-7). -/
def State.settleLatent (s : State) (k : HKey) : State :=
  match s.handle? k with
  | some h =>
    if h.state == HState.regenerating && !s.eng.runs.any (fun r : Run => r.target == some k) then
      s.setHandle { h with state := .latent }
    else s
  | none => s

/-- A fill ends with an error: every handle filled by the same command is REGISTERED again, restores that waited end
with the same status, and the command completes (R59, Table 2-7). -/
def State.failFill (s : State) (h : Handle) (st : BitVec 8) : State :=
  match h.fill with
  | none => s
  | some f =>
    let group := match f.run, f.op with
      | some id, _ => s.hs.list.filter (fun x : Handle => (x.fill.bind Fill.run) == some id)
      | none, some id => s.hs.list.filter (fun x : Handle => (x.fill.bind Fill.op) == some id)
      | none, none => [h]
    let s := match f.run, f.op with
      | some id, _ => s.dropRun id
      | none, some id => { s with vault := { s.vault with ops := s.vault.ops.filter (fun o : RemoteOp => o.id ≠ id) } }
      | none, none => s
    let s := group.foldl (fun (s : State) (x : Handle) => match s.handle? x.key with
      | some y => s.unfill y
      | none => s) s
    let s := s.complete f.ticket { status := st }
    s.endWaiting (group.flatMap Handle.waiting) st

/-- The extended result of OFFLOAD, OFFLOAD_FWD and MIGRATE for one handle (Table 9-14). -/
def Handle.resultBytes (h : Handle) (digests : List (BitVec 64)) (sampled disagreed : Nat) : List Byte :=
  leBytes 8 h.marks.received.toNat ++ ((List.range 4).flatMap (fun i => leBytes 8 (digests.getD i 0).toNat))
    ++ leBytes 4 h.report.widens ++ leBytes 2 h.report.full.sum ++ leBytes 1 h.report.exhausted.toNat ++ [0]
    ++ leBytes 4 sampled ++ leBytes 4 disagreed ++ leBytes 8 0

/-- The RESULT word of a NARROW fill or migration (Table 9-13). -/
def Handle.narrowResult (h : Handle) : BitVec 64 :=
  BitVec.ofNat 64 (h.report.widens % 2 ^ 32 + h.report.full.sum % 65536 * 2 ^ 32 + h.report.exhausted.toNat * 2 ^ 48)

/-- A migration whose old locations are all released ends: charges settle, the handle is RESIDENT, and its command
completes (R64 step 7, R65, R66, R120, R701). -/
def State.finishMig (s : State) (h : Handle) (m : Mig) : State :=
  let st := m.ending.getD 0
  let whole := h.homes.all (fun x => x.unit.tier == m.place.tier)
  let dropTiers : List Nat := if m.drain then []
    else if whole then [2, 3, 4].filter (fun t => t ≠ m.place.tier)
    else if m.committed = 0 && h.homes.all (fun x => x.unit.tier != m.place.tier) then [m.place.tier] else []
  let s := dropTiers.foldl (fun s t => s.charge h.key.ctx t (-(h.charged t : Int))) s
  let h := dropTiers.foldl (fun (h : Handle) t => h.setCharged t 0) h
  let fate := if m.ending.isNone then m.fate else h.fate
  let h := { h with state := if h.homes.all s.homeReadable then .resident else .faulted, mig := none, fate := fate, place := if m.drain then h.place else m.place }
  let s := s.setHandle h
  match m.ticket with
  | some t =>
    let r := if fate == .narrow then h.narrowResult else BitVec.ofNat 64 m.committed
    if st = 0 then s.complete t { status := 0, flags := h.marks.bits, result := r
                                  xbytes := h.resultBytes [h.marks.digest] 0 0 }
    else s.complete t { status := st, flags := h.marks.bits, result := BitVec.ofNat 64 0 }
  | none => if m.byController && st ≠ 0 then s.event h.key.entry (ev 0x0025 1 h.word) else s

/-- A migration stops at its last committed stripe with a status; it ends once the old locations of its committed
stripes are released (R65, R66, R132). -/
def State.stopMig (s : State) (h : Handle) (m : Mig) (st : BitVec 8) : State :=
  let s := s.dropLaneWork h.key
  let m := { m with todo := [], copies := [], ending := some st }
  if m.old.isEmpty then s.finishMig h m else s.setHandle { h with mig := some m }

/-! ### FREE (R57, R60) -/

/-- A live handle is freed: it enters FREEING; its fill or migration ends ABORTED, restores already reading go on
(R57, R60, Table 2-9). The entry is taken as it stands now: one that an earlier free of the same command has already ended
a fill for does not end it again (R323). -/
def State.freeHandle (s : State) (h : Handle) : State :=
  let h := (s.handle? h.key).getD h
  let s := (s.freePending h.key).failFill h 0x25
  let s := match h.mig with
    | some m =>
      let s := s.dropLaneWork h.key
      let s := (s.eng.runs.filter (fun r : Run => r.kind == RunKind.materialize && r.target == some h.key)).foldl
        (fun (s : State) (r : Run) => s.dropRun r.id) s
      (match m.ticket with
        | some t => s.complete t { status := 0x25 }
        | none => s)
    | none => s
  match s.handle? h.key with
  | some x => s.setHandle { x with state := .freeing, fill := none, mig := none }
  | none => s

/-- What R313 checks of FREE. -/
def freeSpec : DescSpec :=
  { job := true, admin := true, used := [(127, 64)] }

/-- FREE (R57, R58). -/
def execFree (d : Desc) (s : State) : Out :=
  .next (s.withDesc d freeSpec (fun t s =>
    match s.named (s.descCtx d) (d.f 127 64) with
    | .error e => s.complete t { status := e }
    | .ok h => (s.freeHandle h).complete t { status := 0 }))

/-- What R313 checks of FREE_SET. -/
def freeSetSpec : DescSpec :=
  { job := true, admin := true, used := [(67, 64)] }

/-- FREE_SET frees every live handle of one set of the context, each as FREE does (R48). -/
def execFreeSet (d : Desc) (s : State) : Out :=
  .next (s.withDesc d freeSetSpec (fun t s =>
    let hs := s.hs.list.filter (fun h => h.key.ctx == s.descCtx d && h.shape.set == d.f 67 64 && h.state != .freeing)
    (hs.foldl State.freeHandle s).complete t { status := 0, result := BitVec.ofNat 64 hs.length }))

/-- HANDLE_FREED: a FREEING handle with no reader and no pin releases its homes, returns its charges and becomes FREE;
its poison marks end with it (R57, R525). -/
def execHandleFreed (k : HKey) (s : State) : Out :=
  match s.handle? k with
  | some h =>
    if h.state == .freeing && h.readers == 0 && s.pins k == 0 then .next ((s.returnCharges h).dropHandle k) else .next s
  | none => .next s

/-! ### Copies (R64, R146) -/

/-- The hub that copies a stripe: its present home's (R146). -/
def Handle.copyHub (h : Handle) (k : Nat) : Hub := match h.homes[k]? with
  | some x => x.unit.hub
  | none => 0

/-- How many stripes a hub has in copy across all migrations (R146). -/
def State.hubCopies (s : State) (hub : Hub) : Nat :=
  (s.hs.list.map (fun h => match h.mig with
    | some m => (m.copies.filter (fun c => h.copyHub c.stripe == hub)).length
    | none => 0)).sum

/-- A drain's target for a stripe: another unit of the same hub, else the lowest-numbered hub; for Penumbra the
lowest-numbered other bundle; else the next slower tier (R74, R153, R154). -/
def State.drainTarget (s : State) (src : TierUnit) (o size k : Nat) : Option Placing :=
  let p : Placing := { chosen := [], sizes := [], ptr := s.units.bankPtr, spills := 0 }
  let try3 (reserve : Bool) (l : List Nat) : Option Placing :=
    (s.tryUnits 3 (stripeTakes 3 size k) reserve p l 0).map Prod.fst
  let links := (List.range 32).filter (fun i => (s.bundlePeer (Fin.ofNat 32 i)).isSome)
  let pen : Option Placing := (s.tryUnits 4 2097152 false p
    (links.filter (fun i => !s.sameUnit src (.penumbra (Fin.ofNat 32 i)))) 0).map Prod.fst
  let byHub (h : Hub) : List Nat := h.val :: (List.range 4).filter (fun i => i ≠ h.val)
  let byStack (h : Hub) : List Nat :=
    let own := [2 * h.val, 2 * h.val + 1]
    own ++ (List.range 8).filter (fun i => i ∉ own)
  match src with
  | .shade h _ => match (s.tryUnits 2 (stripeTakes 2 size k) false p (byHub h) 0).map Prod.fst with
    | some q => some q
    | none => match try3 false (byStack h) with
      | some q => some q
      | none => match try3 true (byStack h) with
        | some q => some q
        | none => pen
  | .umbra st => match try3 false ((byStack (hubOf (st.val / 2))).filter (fun i => i ≠ st.val)) with
    | some q => some q
    | none => match try3 true ((byStack (hubOf (st.val / 2))).filter (fun i => i ≠ st.val)) with
      | some q => some q
      | none => pen
  | .penumbra _ => let _ := o; pen

/-- The form a stripe takes in a fate. -/
def formOf (f : Fate) : StripeForm := if f == .narrow then .narrowed else .plain

/-- The lane work of a stripe whose migration changes how it is stored: compression into Ashlar or narrow form, expansion
out of it (R62, R202, Table 2-5). -/
def State.laneWork (s : State) (h : Handle) (m : Mig) (k : Nat) : State :=
  let hub := h.copyHub k
  if m.drain || m.fate == h.fate then s
  else
    let (id, s) := s.nextLaneRequest
    if m.fate == Fate.press || m.fate == Fate.narrow then s.addJobs [compressJob h.key h.shape.size k hub m.prio id]
    else if h.fate == Fate.press || h.fate == Fate.narrow then
      s.addJobs (expandJobs h.key k 0 (stripeLen h.shape.size k - 1) hub m.prio id false)
    else s

/-- One stripe of a migration starts its copy: its target is chosen; with no room a migration stops with
QUOTA_EXCEEDED, and a drain leaves the stripe where it is (R64 step 3, R132, R154). -/
def State.startCopy (s : State) (h : Handle) (m : Mig) (k : Nat) : State :=
  let p0 : Placing := { chosen := [], sizes := [], ptr := s.units.bankPtr, spills := 0 }
  let src := (h.homes[k]?).map Home.unit
  let got := match src with
    | some u => if m.drain then s.drainTarget u h.key.obj h.shape.size k
      else s.placeOne m.place h.key.obj h.shape.size k false p0
    | none => s.placeOne m.place h.key.obj h.shape.size k false p0
  match got with
  | some p =>
    match p.chosen with
    | u :: _ =>
      let m := { m with todo := m.todo.filter (fun x => x ≠ k)
                        copies := m.copies ++ [{ stripe := k, target := s.homeIn u (formOf m.fate) }] }
      ((s.setHandle { h with mig := some m }).placed h.key.ctx p).laneWork h m k
    | [] => s
  | none =>
    if m.drain then s.setHandle { h with mig := some { m with todo := m.todo.filter (fun x => x ≠ k) } }
    else s.stopMig h m 0x17

/-- Stripes start in ascending order while fewer than 8 of the handle and 32 of the hub are in copy (R146). -/
def State.startCopies : Nat → HKey → State → State
  | 0, _, s => s
  | n + 1, key, s =>
    match s.handle? key with
    | some h => match h.mig with
      | some m => match m.todo with
        | k :: _ =>
          if m.copies.length < 8 && s.hubCopies (h.copyHub k) < 32 then State.startCopies n key (s.startCopy h m k) else s
        | [] => s
      | none => s
    | none => s

/-- Migrations in the order they were accepted (R146). -/
def State.migOrder (s : State) : List HKey :=
  let ms := s.hs.list.filterMap (fun h => h.mig.map (fun m => (m.order, h.key)))
  (ms.mergeSort (fun a b => decide (a.1 ≤ b.1))).map Prod.snd

/-- Every migration starts the stripes it may; one with nothing left to do ends (R64, R146). -/
def State.pumpMigs (s : State) : State :=
  s.migOrder.foldl (fun s k =>
    let s := State.startCopies 8 k s
    match s.handle? k with
    | some h => match h.mig with
      | some m => if m.todo.isEmpty && m.copies.isEmpty && m.old.isEmpty && h.state == .migrating then s.finishMig h m else s
      | none => s
    | none => s) s

/-- The rank of a new migration. -/
def State.nextMigOrder (s : State) : Nat :=
  s.hs.list.foldl (fun a h => match h.mig with
    | some m => max a (m.order + 1)
    | none => a) 0

end Sys2Proof.Machine
end

