-- ==== Sys2Proof/Machine/Deliver.lean ====
section
/-!
DEFINITION. Reading a handle and delivering it, raw or in Ashlar form, the narrow stage on a fill, and the commit of
stripes (chapters 02, 05 and 06).
-/
namespace Sys2Proof.Machine

/-! ### Reading -/

/-- The bytes of an object's range, from 0, with its poisoned blocks: a KEEP handle's from host memory as it is now
(R54), any other's from its home. -/
def State.objectRange (s : State) (h : Handle) (off len : Nat) : Tab Byte :=
  if h.fate == Fate.keep then s.hostSlice (h.keepAddr + off) len else tabSlice h.content off len

/-- The poisoned blocks of an object. -/
def State.objectPoison (s : State) (h : Handle) : List Nat :=
  if h.fate == Fate.keep then s.hostPoisonBlocks h.keepAddr h.shape.size else h.marks.poison

/-- The hub whose port carries stripe `k` of a handle (R28). -/
def Handle.stripeHub (h : Handle) (k : Nat) : Hub :=
  if h.fate == Fate.keep then hubOf k else match h.homes[k]? with
    | some x => x.unit.hub
    | none => hubOf k

/-- Whether stripe `k`'s home can be read (R75). -/
def State.stripeReadable (s : State) (h : Handle) (k : Nat) : Bool :=
  if h.fate == Fate.keep then true else match h.homes[k]? with
    | some x => s.homeReadable x
    | none => true

/-- The block `b` of an object, 4,096 bytes with its zero padding (R36). -/
def blockBytes (c : Tab Byte) (b : Nat) : List Byte := (List.range 4096).map (fun i => tabGet 0 c (b * 4096 + i))

/-! ### The narrow stage (R220 to R231) -/

/-- Blocks of a stripe of an object. -/
def stripeBlocks (size k : Nat) : Nat := blockCount (stripeBytes size k)

/-- A stripe of a handle narrowed, or stored FULL (R220 to R223). -/
def Handle.narrowStripe (h : Handle) (exhausted verifierFailed : Bool) (k : Nat) : NStripe :=
  Sys2Proof.Machine.narrowStripe h.shape.format h.perms.narrowFormat h.perms.errorBound h.perms.widenBudget exhausted
    verifierFailed (fun b => decide (k * 512 + b ∈ h.marks.poison))
    ((List.range (stripeBlocks h.shape.size k)).map (fun b => blockBytes h.content (k * 512 + b)))

/-- The report with a stripe's counts added (Table 6-7). -/
def NarrowReport.add (r : NarrowReport) (n : NStripe) : NarrowReport :=
  { levels := (List.range 4).map (fun i => r.levels.getD i 0 + n.levels.getD i 0), widens := r.widens + n.widens,
    classes := (List.range 16).map (fun i => r.classes.getD i 0 + n.classes.getD i 0),
    unframeable := r.unframeable + n.unframeable, narrowed := r.narrowed + (if n.cause = 0 then 1 else 0),
    full := (List.range 4).map (fun i => r.full.getD i 0 + (if n.cause = i + 1 then 1 else 0)),
    poisonedThrough := r.poisonedThrough + n.poisonedThrough, exhausted := r.exhausted || n.cause = 2 || n.cause = 3 }

/-- Stripe `k` of a handle takes its narrow form: the widened values become its content, its flags and report follow
(R220 to R232). -/
def Handle.storeNarrow (h : Handle) (exhausted verifierFailed : Bool) (k : Nat) : Handle × NStripe :=
  let n := h.narrowStripe exhausted verifierFailed k
  let bytes : Tab Byte := natTab (4096 * n.delivered.length) (leValue n.delivered.flatten)
  let len := min (h.shape.size - k * 2097152) (4096 * n.delivered.length)
  let m := h.marks
  let kept := h.frames.filter (fun x => x.1 ≠ k)
  ({ h with content := tabPaste h.content (k * 2097152) len (tabSlice bytes 0 len), report := h.report.add n,
            frames := if n.cause = 0 then kept ++ [(k, n.frames)] else kept,
            marks := { m with ovf := m.ovf || n.ovf, ufz := m.ufz || n.ufz } }, n)

/-- Whether an object number is exhausted in its context (R223). -/
def State.isExhausted (s : State) (k : HKey) : Bool := match s.ctx? k.ctx with
  | some c => k.obj ∈ c.exhausted
  | none => false

/-- A stripe committed FULL for cause 2 or 3 exhausts its object number until the next STEP_BEGIN (R223). -/
def State.exhaust (s : State) (k : HKey) (cause : Nat) : State :=
  if (cause = 2 || cause = 3) && !s.isExhausted k then
    match s.ctx? k.ctx with
    | some c => (s.setCtx { c with exhausted := c.exhausted ++ [k.obj] }).event k.entry
        (ev 0x0023 1 (k.obj + k.ctx * 2 ^ 40))
    | none => s
  else s

/-- Every stripe of a NARROW fill takes its form (R222: exhaustion counts as it stood when the fill began). -/
def State.narrowFill (s : State) (h : Handle) : State × Handle :=
  let ex := s.isExhausted h.key
  (List.range (stripeCount h.shape.size)).foldl (fun (a : State × Handle) k =>
    let (h, n) := a.2.storeNarrow ex (decide ((h.key, k) ∈ s.codec.unverified)) k
    let form : StripeForm := if n.cause = 0 then .narrowed else .full n.cause
    (a.1.exhaust h.key n.cause, { h with homes := h.homes.modify k (fun x => { x with form := form }) })) (s, h)

/-! ### Delivery (R28, R85 to R88, R175 to R183, R699) -/

/-- What a delivery of a range says: its status, its poisoned blocks, the ports used and the range's digest. -/
structure Delivered where
  status : BitVec 8
  poison : List Nat
  ports : List Hub
  digest : BitVec 64
  length : Nat

/-- The course of stripe `k`'s blocks `first` to `first + count − 1` as a stream carries it (R181 to R183, R198). -/
def streamCourse (press : Bool) (cls k first count : Nat) (c : Tab Byte) (size : Nat) (poison : List Nat) : List Byte :=
  let p (b : Nat) : Bool := decide (k * 512 + b ∈ poison)
  let n := stripeBlocks size k
  let blocks := (List.range n).map (fun b => blockBytes c (k * 512 + b))
  if press then coursePart cls k first count p blocks
  else
    let part := (blocks.drop first).take count
    let d := dressing cls part
    let tabs := numberTables d
    let enc := (part.zipIdx).map (fun x => encodeBlock cls ((k * 512 + first + x.2) % 256) tabs (p (first + x.2)) x.1)
    let course := assembleCourse k first (((List.range count).filter (fun i => p (first + i))).length) false
      (d.filterMap id) enc
    if 2097152 < course.length then rawCourse cls k first p part else course

/-- Bytes of a list written at an address of host memory. -/
def State.hostPut (s : State) (addr : Nat) (bytes : List Byte) : State := s.hostWrite addr bytes

/-- A range of an object sent in Ashlar form: header, directory and courses at their slots (Table 5-2, R177, R178). -/
def State.deliverStream (s : State) (press : Bool) (fmt size off len dest : Nat) (c : Tab Byte) (poison : List Nat) : State :=
  let cls := elemClass fmt
  let b0 := off / 4096
  let bEnd := (off + len + 4095) / 4096
  let k0 := b0 / 512
  let courses := (bEnd - 1) / 512 + 1 - k0
  let dir := 64 + (8 * courses + 63) / 64 * 64
  let build (i : Nat) : Nat × List Byte :=
    let k := k0 + i
    let first := if i = 0 then b0 % 512 else 0
    let stop := min bEnd ((k + 1) * 512) - k * 512
    (dir + i * courseSlot, streamCourse press cls k first (stop - first) c size poison)
  let cs := (List.range courses).map build
  let total := match cs.getLast? with
    | some x => x.1 + x.2.length
    | none => dir
  let marked := poison.any (fun b => b0 ≤ b && b < bEnd)
  let s1 := s.hostPut dest (streamHeader fmt cls s.codec.streamId.toNat b0 (len - 1) courses total marked)
  let s1 := s1.hostPut (dest + 64) (padTo 64 (cs.flatMap (fun x => leBytes 8 x.1)))
  let s1 := cs.foldl (fun s x => s.hostPut (dest + x.1) x.2) s1
  { s1 with codec := { s1.codec with streamId := s1.codec.streamId + 1 } }

/-- A range of an object delivered to the host from bytes in hand: raw, or in Ashlar form (R85, R343). `data` is the
whole object's content. -/
def State.deliverBytes (s : State) (glint press : Bool) (fmt size off len dest : Nat) (data : Tab Byte) (poison : List Nat) :
    State :=
  if glint then s.deliverStream press fmt size off len dest data poison
  else
    let b0 := off / 4096
    let ps := (poison.filter (fun b => b0 ≤ b)).map (fun b => b - b0)
    s.hostDeliver dest len (tabSlice data off len) (off % 4096) ps

/-- A range of a handle with a home, or of a KEEP handle, delivered: stripes in ascending order up to the first that
cannot be read (R75, R699), with its poisoned blocks marked. -/
def State.deliver (s : State) (h : Handle) (off len dest : Nat) (glint : Bool) : State × Delivered :=
  let k0 := off / 2097152
  let ks := (List.range ((off + len + 2097151) / 2097152 - k0)).map (fun i => k0 + i)
  let good := ks.takeWhile (fun k => s.stripeReadable h k)
  let stop := match good.getLast? with
    | some k => min (off + len) ((k + 1) * 2097152)
    | none => off
  let part := stop - off
  let data := s.objectRange h 0 h.shape.size
  let poison := (s.objectPoison h).filter (fun b => off / 4096 ≤ b && b * 4096 < stop)
  let s' := if part = 0 then s
    else s.deliverBytes glint (h.fate == Fate.press) h.shape.format h.shape.size off part dest data poison
  let st : BitVec 8 := if good.length < ks.length then 0x22 else if poison.isEmpty then 0 else 0x20
  let s' := if good.length < ks.length then
      match s'.handle? h.key with
      | some x => s'.setHandle { x with state := if x.state == HState.resident || x.state == HState.migrating then .faulted
                                                 else x.state }
      | none => s'
    else s'
  (s', { status := st, poison := poison, ports := good.map h.stripeHub, digest := digestRange data off len, length := part })

/-- The extended result of a RESTORE (Table 9-14). -/
def restoreBytes (lowest : Option Nat) (poisoned tolerant regenerated subst retries : Nat) : List Byte :=
  (match lowest with
    | some o => leBytes 8 o
    | none => leBytes 8 (2 ^ 64 - 1))
    ++ leBytes 4 poisoned ++ leBytes 4 tolerant ++ leBytes 4 regenerated ++ leBytes 4 subst ++ leBytes 4 retries
    ++ leBytes 36 0

/-- The lowest poisoned offset a delivery names: its block's first byte within the range (R526, Table 2-11). -/
def lowestPoison (off : Nat) (poison : List Nat) : Option Nat :=
  match poison with
  | [] => none
  | b :: bs => some (max off ((bs.foldl min b) * 4096))

end Sys2Proof.Machine
end

