-- ==== Sys2Proof/Machine/Engine.lean ====
section
/-!
DEFINITION. The ops of a recompute engine (Table 7-7) as functions of the engine's own state and of what its tile
reads: registers, the working area, accumulators, rounding and flags (R241 to R253, R287 to R291).
-/
namespace Sys2Proof.Machine

/-! ### The op record -/

/-- The fields of a 256-bit op record (Table 7-3). -/
def opFields (w : BitVec 256) : OpRec :=
  let n := w.toNat
  { opcode := bitsOf n 7 0, fmt := bitsOf n 15 8, vd := bitsOf n 20 16, va := bitsOf n 25 21, vb := bitsOf n 30 26
    vc := bitsOf n 35 31, span := bitsOf n 39 36, port := bitsOf n 43 40, acc := bitsOf n 45 44
    round := bitsOf n 47 46, mode := bitsOf n 51 48, imm0 := bitsOf n 95 64, imm1 := bitsOf n 127 96
    imm2 := bitsOf n 191 128 }

/-! ### Flags -/

def Flags3.none : Flags3 := ⟨false, false, false⟩
def Flags3.or (a b : Flags3) : Flags3 := ⟨a.ovf || b.ovf, a.ufz || b.ufz, a.nf || b.nf⟩
/-- OVF in bit 0, UFZ in bit 1, NF in bit 2 (R292). -/
def Flags3.bits (f : Flags3) : BitVec 3 :=
  BitVec.ofNat 3 ((if f.ovf then 1 else 0) + (if f.ufz then 2 else 0) + (if f.nf then 4 else 0))

/-- The flags a list of rounded results raises. -/
def flagsOf (rs : List Rounded) : BitVec 3 :=
  (Flags3.mk (rs.any (·.ovf)) (rs.any (·.ufz)) (rs.any (·.nf))).bits

/-! ### Registers (R241) -/

/-- Elements per register of a format (Table 7-6). -/
def perReg (fmt : Nat) : Nat := 8192 / elemBits fmt

/-- The packed bits of `span + 1` registers from `base`. -/
def spanBits (e : Engine) (base span : Nat) : Nat :=
  ((List.range (span + 1)).map (fun i => (tabGet 0#8192 e.regs (base + i)).toNat <<< (8192 * i))).sum

/-- The n element encodings of a vector operand. -/
def readVec (e : Engine) (base span eb n : Nat) : List Nat :=
  let b := spanBits e base span
  (List.range n).map (elemAt b eb)

/-- The flags of the registers of an operand. -/
def vecFlags (e : Engine) (base span : Nat) : BitVec 3 :=
  (List.range (span + 1)).foldl (fun f i => f ||| tabGet 0#3 e.regFlags (base + i)) 0#3

/-- Registers written by packing encodings from `base`, `span + 1` of them, bits beyond the list 0. -/
def writeRegs (regs : Tab (BitVec 8192)) (base : Nat) (packed : Nat) : Nat → Tab (BitVec 8192)
  | 0 => regs
  | k + 1 => tabPut 0#8192 (writeRegs regs base packed k) (base + k) (BitVec.ofNat 8192 (packed >>> (8192 * k)))

/-- Set the flags of `k` registers from `base`. -/
def writeFlags (fl : Tab (BitVec 3)) (base : Nat) (f : BitVec 3) : Nat → Tab (BitVec 3)
  | 0 => fl
  | k + 1 => tabPut 0#3 (writeFlags fl base f k) (base + k) f

/-- Encodings packed upward from bit 0, `eb` bits each. -/
def packElems (eb : Nat) : List Nat → Nat
  | [] => 0
  | w :: t => w % 2 ^ eb + packElems eb t * 2 ^ eb

/-- Write a vector result and its flags (R241, R246). -/
def writeVec (e : Engine) (base span eb : Nat) (ws : List Nat) (f : BitVec 3) : Engine :=
  { e with regs := writeRegs e.regs base (packElems eb ws) (span + 1)
           regFlags := writeFlags e.regFlags base f (span + 1) }

/-- n of an op: the span times the elements per register of its FMT (R241). -/
def opN (o : OpRec) : Nat := (o.span + 1) * perReg o.fmt

/-! ### Draws of stochastic rounding (R246, R282) -/

/-- What rounding an op needs: its run's key, its index and the global row. -/
structure DrawCtx where
  key0 : BitVec 64
  key1 : BitVec 64
  opIndex : Nat
  globalRow : Nat
deriving DecidableEq, Repr

/-- The draw of element j: none under ROUND 0 (R246, Table 8-5). -/
def opDraw (c : DrawCtx) (o : OpRec) (j : Nat) : Option Nat :=
  if o.round = 1 then
    some (draw16 c.key0 c.key1 (BitVec.ofNat 16 (0x1000 + c.opIndex)) (BitVec.ofNat 64 (c.globalRow * 65536 + j)))
  else none

/-! ### Elementwise ops (R244, R245) -/

def fmtOf (c : Nat) : FloatFmt := (scalarFmt c).getD fmtFP32

/-- A rounded result passed unchanged. -/
def keep (f : FloatFmt) (w : Nat) (v : Val) : Rounded :=
  match v with
  | .nan => ⟨f.nan, false, false, true⟩
  | .inf _ => ⟨w, false, false, true⟩
  | _ => ⟨w, false, false, false⟩

/-- The result of a two- or three-source op on element encodings; a NaN source gives the canonical NaN (R245). -/
def elementwise (o : OpRec) (c : DrawCtx) (j a b cc : Nat) : Rounded :=
  let f := fmtOf o.fmt
  let va := decodeFloat f a
  let vb := decodeFloat f b
  let vc := decodeFloat f cc
  let imm := decodeFloat fmtFP32 o.imm0
  let d := opDraw c o j
  match o.opcode with
  | 0x10 => roundVal f (vAdd va vb) d
  | 0x11 => roundVal f (vAdd va (vNeg vb)) d
  | 0x12 => roundVal f (vMul va vb) d
  | 0x13 => roundVal f (if vIsZero (vMul va vb) && vIsZero vc then vZero else vAdd (vMul va vb) vc) d
  | 0x14 => if vIsNan va || vIsNan vb then roundVal f .nan none else if vLt va vb then keep f b vb else keep f a va
  | 0x15 => if vIsNan va || vIsNan vb then roundVal f .nan none else if vLt va vb then keep f a va else keep f b vb
  | 0x16 => roundVal f (vAdd va imm) d
  | 0x17 => roundVal f (vMul va imm) d
  | 0x18 => if vIsNan va then roundVal f .nan none else if vPos va then keep f a va else ⟨0, false, false, false⟩
  | 0x19 => if vIsNan va then roundVal f .nan none
            else if vPos va || vIsZero va then keep f a va else roundVal f (vMul va imm) d
  | 0x1A => roundTrans .gelu f a va d
  | 0x1B => roundTrans .sigmoid f a va d
  | 0x1C => roundTrans .tanh f a va d
  | _ => roundTrans .silu f a va d

/-- An elementwise op over its vectors; `srcs` names how many sources it has (R244, R246). -/
def opElementwise (srcs : Nat) (o : OpRec) (c : DrawCtx) (e : Engine) : Engine :=
  let eb := elemBits o.fmt
  let n := opN o
  let as := readVec e o.va o.span eb n
  let bs := if srcs ≥ 2 then readVec e o.vb o.span eb n else []
  let cs := if srcs ≥ 3 then readVec e o.vc o.span eb n else []
  let rs := (as.zipIdx).map (fun p => elementwise o c p.2 p.1 (bs.getD p.2 0) (cs.getD p.2 0))
  let fl := vecFlags e o.va o.span ||| (if srcs ≥ 2 then vecFlags e o.vb o.span else 0#3)
    ||| (if srcs ≥ 3 then vecFlags e o.vc o.span else 0#3)
  writeVec e o.vd o.span eb (rs.map (·.bits)) (fl ||| flagsOf rs)

/-! ### Masks, dropout, conversion, quantization -/

/-- The keep decision of R252 for element j. -/
def dropKept (c : DrawCtx) (o : OpRec) (rowLen j : Nat) : Bool :=
  decide (draw16 c.key0 c.key1 (BitVec.ofNat 16 o.mode)
    (BitVec.ofNat 64 (c.globalRow * rowLen + o.imm2 % 2 ^ 32 + j)) ≥ o.imm0 % 65536)

/-- DROPOUT (R252): kept elements times IMM1, +0 for the rest. -/
def opDropout (rowLen : Nat) (o : OpRec) (c : DrawCtx) (e : Engine) : Engine :=
  let f := fmtOf o.fmt
  let eb := elemBits o.fmt
  let as := readVec e o.va o.span eb (opN o)
  let rs := (as.zipIdx).map (fun p =>
    let v := decodeFloat f p.1
    if vIsNan v then roundVal f .nan none
    else if dropKept c o rowLen p.2 then roundVal f (vMul v (decodeFloat fmtFP32 o.imm1)) (opDraw c o p.2)
    else ⟨0, false, false, false⟩)
  writeVec e o.vd o.span eb (rs.map (·.bits)) (vecFlags e o.va o.span ||| flagsOf rs)

/-- MASKGEN (R252): IMM1 keep bits, 0 beyond. -/
def opMaskgen (rowLen : Nat) (o : OpRec) (c : DrawCtx) (e : Engine) : Engine :=
  writeVec e o.vd o.span 1 ((List.range o.imm1).map (fun j => if dropKept c o rowLen j then 1 else 0)) 0#3

/-- MASKAPPLY: a × IMM0 where the mask bit is 1, +0 where it is 0. -/
def opMaskapply (o : OpRec) (c : DrawCtx) (e : Engine) : Engine :=
  let f := fmtOf o.fmt
  let eb := elemBits o.fmt
  let n := opN o
  let maskSpan := (n + 8191) / 8192 - 1
  let ms := readVec e o.vb maskSpan 1 n
  let rs := ((readVec e o.va o.span eb n).zipIdx).map (fun p =>
    let v := decodeFloat f p.1
    if vIsNan v then roundVal f .nan none
    else if ms.getD p.2 0 = 1 then roundVal f (vMul v (decodeFloat fmtFP32 o.imm0)) (opDraw c o p.2)
    else ⟨0, false, false, false⟩)
  writeVec e o.vd o.span eb (rs.map (·.bits))
    (vecFlags e o.va o.span ||| vecFlags e o.vb maskSpan ||| flagsOf rs)

/-- RELUMASK: bit j set where a_j > 0, into ⌈IMM1 / 8192⌉ registers (R252). -/
def opRelumask (o : OpRec) (e : Engine) : Engine :=
  let f := fmtOf o.fmt
  let as := readVec e o.va o.span (elemBits o.fmt) o.imm1
  writeVec e o.vd ((o.imm1 + 8191) / 8192 - 1) 1 (as.map (fun w => if vPos (decodeFloat f w) then 1 else 0))
    (vecFlags e o.va o.span)

/-- CVT: VA of format IMM0[7:0] converted to FMT, n counted in FMT; a zero keeps its sign (R245, R277). -/
def opCvt (o : OpRec) (c : DrawCtx) (e : Engine) : Engine :=
  let sf := o.imm0 % 256
  let n := opN o
  let srcSpan := (n * elemBits sf + 8191) / 8192 - 1
  let rs := ((readVec e o.va srcSpan (elemBits sf) n).zipIdx).map (fun p =>
    roundVal (fmtOf o.fmt) (decodeFloat (fmtOf sf) p.1) (opDraw c o p.2))
  writeVec e o.vd o.span (elemBits o.fmt) (rs.map (·.bits)) (vecFlags e o.va srcSpan ||| flagsOf rs)

/-- QUANT: n elements of the source format into groups of FMT, elements then scale bytes, then SX-INT4's class
bytes (R275, R279). The span counts the source format. -/
def opQuant (o : OpRec) (c : DrawCtx) (e : Engine) : Engine :=
  let sf := o.imm0 % 256
  let n := (o.span + 1) * perReg sf
  let xs := (readVec e o.va o.span (elemBits sf) n).map (fun w => decodeFloat (fmtOf sf) w)
  let gs := ((chunks 32 (n / 32) xs).zipIdx).map (fun p => (p.1, quantGroup o.fmt p.1 (fun i => opDraw c o (32 * p.2 + i))))
  let eb := elemBits o.fmt
  let elems := packElems eb (gs.flatMap (fun p => p.2.elems))
  let scales := gs.map (fun p => p.2.scale)
  let classes := gs.map (fun p =>
    if p.2.scale = 0xFF then 0
    else
      let ms := groupMeasure p.1 (p.2.elems.map (fun w => elemVal 0x0A w p.2.scale))
      errorClass ms.1 ms.2)
  let side := if o.fmt = 0x0A then scales ++ classes else scales
  let bits := elems + packElems 8 side * 2 ^ (n * eb)
  let total := n * eb + 8 * side.length
  let fl : Flags3 := ⟨gs.any (·.2.ovf), gs.any (·.2.ufz), gs.any (·.2.nf)⟩
  let k := (total + 8191) / 8192
  { e with regs := writeRegs e.regs o.vd bits k
           regFlags := writeFlags e.regFlags o.vd (vecFlags e o.va o.span ||| fl.bits) k }

/-- DEQUANT: packed values of format IMM0[7:0] widened exactly to FMT; the span counts FMT (R278). -/
def opDequant (o : OpRec) (e : Engine) : Engine :=
  let sf := o.imm0 % 256
  let n := opN o
  let eb := elemBits sf
  let srcSpan := (n * eb + n / 32 * 8 * (if sf = 0x0A then 2 else 1) + 8191) / 8192 - 1
  let b := spanBits e o.va srcSpan
  let rs := (List.range n).map (fun j =>
    roundVal (fmtOf o.fmt) (elemVal sf (elemAt b eb j) (bitsOf b (n * eb + 8 * (j / 32) + 7) (n * eb + 8 * (j / 32)))) none)
  writeVec e o.vd o.span (elemBits o.fmt) (rs.map (·.bits)) (vecFlags e o.va srcSpan ||| flagsOf rs)

/-- CAT: IMM0 elements of VA, then IMM1 of VB, then +0 (R245). -/
def opCat (o : OpRec) (e : Engine) : Engine :=
  let eb := elemBits o.fmt
  writeVec e o.vd o.span eb
    ((readVec e o.va o.span eb o.imm0) ++ (readVec e o.vb o.span eb o.imm1))
    (vecFlags e o.va o.span ||| vecFlags e o.vb o.span)

/-! ### The working area (R246) -/

/-- Read bytes of the working area as packed bits. -/
def workBits (e : Engine) (addr n : Nat) : Nat := bytesNat e.work addr n

/-- LDLS: span bytes from the working area; the area's flags join the destination's. -/
def opLdls (o : OpRec) (e : Engine) : Engine :=
  let b := workBits e o.imm0 (1024 * (o.span + 1))
  { e with regs := writeRegs e.regs o.vd b (o.span + 1)
           regFlags := writeFlags e.regFlags o.vd e.workFlags (o.span + 1) }

/-- STLS: span bytes into the working area; the source's flags join the area's. -/
def opStls (o : OpRec) (e : Engine) : Engine :=
  let n := 1024 * (o.span + 1)
  { e with work := tabPaste e.work o.imm0 n (natTab n (spanBits e o.va o.span))
           workFlags := e.workFlags ||| vecFlags e o.va o.span }

/-- Bytes of n elements of a format laid end to end, half bytes packed. -/
def elemBytes (fmt n : Nat) : Nat := (n * elemBits fmt + 7) / 8

/-- TRANSP: a matrix of R × C elements at IMM0 written transposed at IMM1 (R245). -/
def opTransp (o : OpRec) (e : Engine) : Engine :=
  let r := bitsOf o.imm2 8 0
  let cc := bitsOf o.imm2 24 16
  let eb := elemBits o.fmt
  let src := workBits e o.imm0 (elemBytes o.fmt (r * cc))
  let out := packElems eb ((List.range (r * cc)).map (fun k => elemAt src eb ((k % r) * cc + k / r)))
  let n := elemBytes o.fmt (r * cc)
  { e with work := tabPaste e.work o.imm1 n (natTab n out) }

/-- The pitch of LDROWS (R249): the row's bytes rounded up to 1,024. -/
def rowPitch (fmt k : Nat) : Nat := roundUp ((rowBytes fmt k).getD 0) 1024

/-! ### Accumulators (R287 to R291) -/

def accZero : AccEntry := ⟨0#32, 0, none, false⟩

/-- The number of an entry of a set. -/
def accIdx (set i : Nat) : Nat := set * 65536 + i

/-- The accumulator address of an op at a row (R243). -/
def accAddr (o : OpRec) (row : Nat) : Nat := bitsOf o.imm2 15 0 + row * bitsOf o.imm2 31 16

/-- The value an entry stands for (R287, R291). -/
def accVal (exact : Bool) (a : AccEntry) : Val :=
  if exact then
    if a.nan then .nan else .fin (decide (a.f < 0)) a.f.natAbs (a.anchor.getD 0)
  else decodeFloat fmtFP32 a.word.toNat

/-- An FP32 entry that holds a value. -/
def accOf32 (v : Val) : AccEntry := ⟨BitVec.ofNat 32 (roundVal fmtFP32 v none).bits, 0, none, false⟩

/-- An exact addition (R289): the entry after, and whether low bits were lost or it saturated. `bound` is the log2 of
the entry's magnitude bound; an unset anchor takes `anchor`. -/
def accAdd (anchor bound : Int) (a : AccEntry) (v : Val) : AccEntry × Flags3 :=
  let A := a.anchor.getD anchor
  let bnd := bound + A - anchor
  let a := { a with anchor := some A }
  match v with
  | .fin neg m e =>
    if a.nan then (a, .none)
    else
      let (k, lost) : Nat × Bool :=
        if e ≥ A then (m <<< (e - A).toNat, false)
        else
          let d := (A - e).toNat
          let n := m >>> d
          let rem := m % 2 ^ d
          (if 2 * rem > 2 ^ d || (2 * rem = 2 ^ d && n % 2 = 1) then n + 1 else n, rem != 0)
      let t := a.f + (if neg then -(k : Int) else (k : Int))
      let lim : Int := (2 ^ (bnd - A).toNat : Nat)
      if t.natAbs ≥ lim.natAbs then
        ({ a with f := if t < 0 then -(lim - 1) else lim - 1 }, ⟨true, lost, false⟩)
      else ({ a with f := t }, ⟨false, lost, false⟩)
  | _ => ({ a with nan := true }, ⟨false, false, true⟩)

/-- Anchor and log2 of the magnitude bound for an op's sources (Table 8-6); `t` is T of R288. -/
def anchorOf (fmt : Nat) (t : Int) : Int × Int :=
  match fmt with
  | 8 => (t - 77, t + 18)
  | 6 => (t - 65, t + 30)
  | 7 => (t - 51, t + 44)
  | 9 => (t - 80, t + 15)
  | _ => (-48, 47)

/-- ACCZERO: IMM1 entries from the accumulator address, or all of the set (R287). -/
def opAcczero (row : Nat) (o : OpRec) (e : Engine) : Engine :=
  let lo := accIdx o.acc (if o.imm1 = 0 then 0 else accAddr o row)
  let n := if o.imm1 = 0 then 65536 else o.imm1
  { e with acc := e.acc.filter (fun p => p.1 < lo || decide (lo + n ≤ p.1)) }

/-- RSUM and RSUMSQ (R248, R289, R290). -/
def opRsum (square exact : Bool) (row : Nat) (o : OpRec) (e : Engine) : Engine :=
  let f := fmtOf o.fmt
  let n := if o.imm1 = 0 then opN o else o.imm1
  let xs := (readVec e o.va o.span (elemBits o.fmt) n).map (fun w => decodeFloat f w)
  let i := accIdx o.acc (accAddr o row)
  let a := tabGet accZero e.acc i
  let src := vecFlags e o.va o.span
  if exact then
    let ys := if square then xs.map (fun v => vMul v v) else xs
    let p := anchorOf 4 0
    let r := ys.foldl (fun (q : AccEntry × Flags3) v =>
      let x := accAdd p.1 p.2 q.1 v
      (x.1, q.2.or x.2)) (a, Flags3.none)
    { e with acc := tabPut accZero e.acc i r.1
             accFlags := tabPut 0#3 e.accFlags o.acc (tabGet 0#3 e.accFlags o.acc ||| src ||| r.2.bits) }
  else
    let ys := if square then xs.map (fun v => rn32 (vMul v v)) else xs
    let r := roundVal fmtFP32 (vAdd (accVal false a) (treeSum ys)) none
    { e with acc := tabPut accZero e.acc i ⟨BitVec.ofNat 32 r.bits, 0, none, false⟩
             accFlags := tabPut 0#3 e.accFlags o.acc (tabGet 0#3 e.accFlags o.acc ||| src ||| flagsOf [r]) }

/-- ACCRD and MMOUT: entries from the accumulator address, each rounded once to FMT (R291). -/
def opAccrd (exact : Bool) (row : Nat) (o : OpRec) (c : DrawCtx) (e : Engine) : Engine :=
  let rs := (List.range (opN o)).map (fun j =>
    roundVal (fmtOf o.fmt) (accVal exact (tabGet accZero e.acc (accIdx o.acc (accAddr o row + j)))) (opDraw c o j))
  writeVec e o.vd o.span (elemBits o.fmt) (rs.map (·.bits)) (tabGet 0#3 e.accFlags o.acc ||| flagsOf rs)

/-- LNORM and RMSNORM (R247). -/
def opNorm (layer : Bool) (row : Nat) (o : OpRec) (c : DrawCtx) (e : Engine) : Engine :=
  let f := fmtOf o.fmt
  let eb := elemBits o.fmt
  let n := opN o
  let N := o.imm1
  let xs := (readVec e o.va o.span eb N).map (fun w => decodeFloat f w)
  let gs := (readVec e o.vb o.span eb N).map (fun w => decodeFloat f w)
  let bs := if layer then (readVec e o.vc o.span eb N).map (fun w => decodeFloat f w) else []
  let m := if layer then divCount32 (treeSum xs) N else vZero
  let ds := if layer then xs.map (fun x => rn32 (vAdd x (vNeg m))) else xs
  let v := divCount32 (treeSum (ds.map (fun d => rn32 (vMul d d)))) N
  let r := rsqrt32 (rn32 (vAdd v (decodeFloat fmtFP32 o.imm0)))
  let rs := ((ds.zip gs).zipIdx).map (fun p =>
    let t := rn32 (vMul p.1.1 r)
    let y := vMul t p.1.2
    roundVal f (if layer then vAdd y (bs.getD p.2 vZero) else y) (opDraw c o p.2))
  let a := accIdx o.acc (accAddr o row)
  let fl := vecFlags e o.va o.span ||| vecFlags e o.vb o.span ||| (if layer then vecFlags e o.vc o.span else 0#3) ||| flagsOf rs
  let e1 := writeVec e o.vd o.span eb ((rs.map (·.bits)) ++ List.replicate (n - N) 0) fl
  let acc1 := if layer then tabPut accZero (tabPut accZero e1.acc a (accOf32 m)) (a + 1) (accOf32 r)
    else tabPut accZero e1.acc a (accOf32 r)
  { e1 with acc := acc1, accFlags := tabPut 0#3 e1.accFlags o.acc (tabGet 0#3 e1.accFlags o.acc ||| fl) }

/-! ### Matrix product (R249, R288 to R290) -/

/-- Element k of row r in the working area, as LDROWS placed it. -/
def workElem (e : Engine) (fmt imm0 k r j : Nat) : Val := rowElem e.work fmt (imm0 + r * rowPitch fmt k) k j

/-- One entry of an MM: present value (or zero), sources a_k and w_k. -/
def mmEntry (fmt : Nat) (add : Bool) (a : AccEntry) (as ws : List Val) (ts : List Int) : AccEntry × Flags3 :=
  let a0 := if add then a else accZero
  if fmt = 2 then
    let r := (as.zip ws).foldl (fun (q : Val × Flags3) p =>
      let x := roundVal fmtFP32 (vAdd q.1 (vMul p.1 p.2)) none
      (decodeFloat fmtFP32 x.bits, q.2.or ⟨x.ovf, x.ufz, x.nf⟩)) (accVal false a0, Flags3.none)
    (accOf32 r.1, r.2)
  else if isBlockFmt fmt then
    let T := ts.foldl max (ts.headD 0)
    let p := anchorOf fmt T
    ((chunks 32 (as.length / 32) (as.zip ws)).foldl (fun (q : AccEntry × Flags3) blk =>
      let s := blk.foldl (fun acc x => vAdd acc (vMul x.1 x.2)) vZero
      let x := accAdd p.1 p.2 q.1 s
      (x.1, q.2.or x.2)) (a0, Flags3.none))
  else
    let p := anchorOf fmt 0
    (as.zip ws).foldl (fun (q : AccEntry × Flags3) x =>
      let y := accAdd p.1 p.2 q.1 (vMul x.1 x.2)
      (y.1, q.2.or y.2)) (a0, Flags3.none)

/-- MM over the tile's rows and the 256 columns of a panel. `wElem k c` gives W[k][256p + c], `wScale` its scale byte. -/
def opMm (rows : Nat) (o : OpRec) (wElem : Nat → Nat → Val) (wScale : Nat → Nat → Nat) (e : Engine) : Engine :=
  let K := bitsOf o.imm1 12 0
  let aRow := fun r => (List.range K).map (workElem e o.fmt o.imm0 K r)
  let aScale := fun r b => (tabGet 0#8 e.work (o.imm0 + r * rowPitch o.fmt K + K * elemBits o.fmt / 8 + b)).toNat
  let entries := (List.range rows).flatMap (fun r =>
    let as := aRow r
    (List.range 256).map (fun c =>
      let i := accIdx o.acc (accAddr o r + c)
      let ts := (List.range (K / 32)).map (fun b => ((aScale r b : Int) - 127) + ((wScale (32 * b) c : Int) - 127))
      (i, mmEntry o.fmt (bitOf o.mode 0) (tabGet accZero e.acc i) as ((List.range K).map (fun k => wElem k c)) ts)))
  { e with acc := entries.foldl (fun t p => tabPut accZero t p.1 p.2.1) e.acc
           accFlags := tabPut 0#3 e.accFlags o.acc
             (entries.foldl (fun f p => f ||| p.2.2.bits) (tabGet 0#3 e.accFlags o.acc ||| e.workFlags)) }

/-! ### Digest op (R297) -/

/-- Fold element bytes into a check digest: words folded so far, value so far. -/
def foldCheck (words : Nat) (chk : BitVec 64) (bs : List Byte) : Nat × BitVec 64 :=
  let n := (bs.length + 7) / 8
  let ws := (chunks 8 n (bs ++ List.replicate (8 * n - bs.length) 0#8)).map leValue
  (words + n, ((ws.zipIdx).map (fun p => contribution (words + p.2) (BitVec.ofNat 64 p.1))).foldl (· + ·) chk)

/-- The bytes of the first elements of a vector. -/
def vecBytes (e : Engine) (o : OpRec) : List Byte :=
  let n := if o.imm1 = 0 then opN o else o.imm1
  leBytes (elemBytes o.fmt n) (spanBits e o.va o.span % 2 ^ (n * elemBits o.fmt))

/-- The state of an engine at tile start: everything zero but the counters and the chain's buffers (R233). -/
def Engine.clear (e : Engine) : Engine :=
  { e with regs := [], regFlags := [], acc := [], accFlags := [], work := [], workFlags := 0#3 }

end Sys2Proof.Machine
end

