-- ==== Sys2Proof/Machine/CollOps.lean ====
section
/-!
DEFINITION. Collectives at work (R425 to R457): the reduce order, contributions, partials, totals and results, the update
arithmetic, pending values, permutes, seals, aborts, and the start and end of each.
-/
namespace Sys2Proof.Machine

/-! ### Operands (Table 12-4) -/

/-- Operand bits of a collective. -/
def Coll.f (c : Coll) (hi lo : Nat) : Nat := bitsOf c.ops.toNat (hi - 64) (lo - 64)
def Coll.size (c : Coll) : Nat := c.f 215 176 + 1
def Coll.srcFmt (c : Coll) : Nat := c.f 175 168
def Coll.outFmt (c : Coll) : Nat := c.f 167 160
def Coll.step (c : Coll) : BitVec 32 := BitVec.ofNat 32 (c.f 319 288)
def Coll.dest (c : Coll) : Nat := c.f 447 384

/-- Payload bytes of a collective. -/
def Coll.p (c : Coll) (off len : Nat) : Nat := bitsOf c.payload.toNat (8 * (off + len) - 1) (8 * off)

/-- Elements of the source and its slabs (R428). -/
def Coll.elements (c : Coll) : Nat := c.size / (elemBits c.srcFmt / 8)
def Coll.slabs (c : Coll) : Nat := (c.elements + 1023) / 1024

/-- The elements of a slab. -/
def Coll.slabElems (c : Coll) (j : Nat) : List Nat :=
  (List.range (min 1024 (c.elements - 1024 * j))).map (fun i => 1024 * j + i)

/-- Whether the sums are exact, and whether a member has more than one source (R431, R434). -/
def Coll.fp8 (c : Coll) : Bool := c.srcFmt = 4 || c.srcFmt = 5
def Coll.sources (c : Coll) : List (Tab Byte) := if c.opcode = 0x44 then c.src.take (c.src.length - (c.handles.filterMap id).length) else c.src
def Coll.multi (c : Coll) : Bool := 1 < c.sources.length
def Coll.reduces (c : Coll) : Bool := c.opcode = 0x40 || c.opcode = 0x41 || c.opcode = 0x44
def Coll.gathers (c : Coll) : Bool := c.opcode = 0x40 || c.opcode = 0x42 || c.opcode = 0x44

/-- Bytes of an element as a message of a kind carries it (R430, R432, R434). -/
def Coll.elemSize (c : Coll) (kind : Nat) : Nat :=
  let partial_ := if c.fp8 then 8 else 4
  if kind = 0 then (if c.multi then partial_ else elemBits c.srcFmt / 8)
  else if kind = 1 then partial_ else elemBits c.outFmt / 8

/-- PARAM_CHK (R427). -/
def paramChk (opcode srcFmt outFmt scale tensor : Nat) (size step : BitVec 64) : BitVec 16 :=
  let h := mix64 (BitVec.ofNat 64 opcode ^^^ BitVec.ofNat 64 (srcFmt * 2 ^ 8) ^^^ BitVec.ofNat 64 (outFmt * 2 ^ 16)
    ^^^ BitVec.ofNat 64 (scale * 2 ^ 24) ^^^ BitVec.ofNat 64 (tensor * 2 ^ 32))
  (mix64 (mix64 (h ^^^ size) ^^^ step)).setWidth 16

/-- PARAM_CHK of a collective, with what takes the place of its size and step. -/
def Coll.check (c : Coll) (size step : Nat) : BitVec 16 :=
  paramChk c.opcode c.srcFmt c.outFmt (c.f 159 152) (c.f 287 256) (BitVec.ofNat 64 size) (BitVec.ofNat 64 step)

/-! ### Sums (R431 to R433) -/

/-- The value of an element as it travels in a partial: FP32, or an exact pair. -/
def partVal (fp8 : Bool) (code : Nat) : Val :=
  let hi := decodeFloat fmtFP32 (code % 2 ^ 32)
  if fp8 then vAdd hi (decodeFloat fmtFP32 (code / 2 ^ 32)) else hi

/-- A partial's code: FP32, or the pair hi, lo; where hi is not finite, lo is a free value (R432). -/
def partCode (fp8 : Bool) (v : Val) (free : BitVec 32) : Nat :=
  let hi := (roundVal fmtFP32 v none).bits
  if !fp8 then hi
  else
    let h := decodeFloat fmtFP32 hi
    if vFinite h then hi + (roundVal fmtFP32 (vAdd v (vNeg h)) none).bits * 2 ^ 32 else hi + free.toNat * 2 ^ 32

/-- A sum in the order of its list: exact for FP8 sources, else from the first value on with RN32 (R431). -/
def foldSum (fp8 : Bool) : List Val → Val
  | [] => vZero
  | v :: vs => vs.foldl (fun a x => if fp8 then vAdd a x else rn32 (vAdd a x)) v

/-- The value of a contribution's element. -/
def Coll.contribVal (c : Coll) (code : Nat) : Val :=
  if c.multi then partVal c.fp8 code else elemVal c.srcFmt code 0

/-- This member's contribution of an element (R434). -/
def Coll.contribution (c : Coll) (free : BitVec 32) (i : Nat) : Nat :=
  let eb := elemBits c.srcFmt / 8
  let codes := c.sources.map (fun t => bytesNat t (i * eb) eb)
  if c.multi then partCode c.fp8 (foldSum c.fp8 (codes.map (fun w => elemVal c.srcFmt w 0))) free else codes.headD 0

/-! ### What has come in -/

/-- Elements put into a buffer. -/
def putElems (l : List (Nat × Nat)) (xs : List (Nat × Nat)) : List (Nat × Nat) := xs.foldl (fun l x => tabIns l x.1 x.2) l

/-- Elements of a kind from a rank are held. -/
def Coll.hold (c : Coll) (kind rank : Nat) (xs : List (Nat × Nat)) (poison : List Nat) : Coll :=
  match c.bufs.find? (fun b : CollBuf => b.kind == kind && b.rank == rank) with
  | some b =>
    let b' : CollBuf := { b with elems := putElems b.elems xs, poison := (b.poison ++ poison).dedup }
    { c with bufs := c.bufs.map (fun x : CollBuf => if x.kind = kind ∧ x.rank = rank then b' else x) }
  | none =>
    let b : CollBuf := { kind := kind, rank := rank, elems := putElems [] xs, poison := poison.dedup }
    { c with bufs := c.bufs ++ [b] }

/-- The codes of a slab held from a rank, where all of them are in, with its poison. -/
def Coll.held (c : Coll) (kind rank j : Nat) : Option (List Nat × Bool) :=
  match c.bufs.find? (fun b : CollBuf => b.kind == kind && b.rank == rank) with
  | some b =>
    let xs := (c.slabElems j).filterMap (fun i => (b.elems.find? (fun e => e.1 == i)).map Prod.snd)
    if xs.length = (c.slabElems j).length then some (xs, b.poison.contains j) else none
  | none => none

/-- A slab held from each rank of a list, or none. -/
def Coll.heldAll (c : Coll) (kind j : Nat) (ranks : List Nat) : Option (List (List Nat) × Bool) :=
  let l := ranks.filterMap (fun r => c.held kind r j)
  if l.length = ranks.length then some (l.map Prod.fst, l.any Prod.snd) else none

/-! ### Sending (R430, R436) -/

/-- The numbers of a list cut into pieces of at most `n`. -/
def cut (n : Nat) (l : List Nat) : List (Nat × List Nat) :=
  (List.range ((l.length + n - 1) / n)).map (fun i => (i * n, (l.drop (i * n)).take n))

/-- The codes of a slab sent to a rank, 4 KiB a message. -/
def State.sendSlab (s : State) (g : Group) (c : Coll) (kind rank j : Nat) (codes : List Nat) (poison : Bool) : State :=
  let eb := c.elemSize kind
  (cut (4096 / eb) codes).foldl (fun (s : State) x =>
    s.sendPkg (g.pkg rank) j (collMsg 0x10 g.slot kind c.chk.toNat 0 c.seq (1024 * j + x.1) c.prio poison
      (x.2.flatMap (leBytes eb)))) s

/-- A collective's entry in its group written. -/
def State.setColl (s : State) (slot : Nat) (c : Coll) : State :=
  match s.group? slot with
  | some g => s.setGroup { g with colls := g.colls.map (fun x : Coll => if x.seq = c.seq then c else x) }
  | none => s

/-- A result slab is written to DEST, with its flit poison mark (R436, R457). -/
def State.deliverSlab (s : State) (c : Coll) (j : Nat) (codes : List Nat) (poison : Bool) : State :=
  let eb := c.elemSize 2
  let bytes := codes.flatMap (leBytes eb)
  if c.dest = 0 || c.opcode = 0x44 then s
  else
    let addr := c.dest + 1024 * j * eb
    let s := s.hostWrite addr bytes
    if poison then { s with host := { s.host with poison := putMarks s.host.poison addr bytes.length true } } else s

/-- The result of a slab is in: it is kept, and delivered. -/
def State.slabDone (s : State) (slot : Nat) (c : Coll) (j : Nat) (codes : List Nat) (poison : Bool) : State :=
  if j ∈ c.resultSlabs then s
  else
    let nf := c.outFmt ≤ 5 && codes.any (fun w => codeNonFinite c.outFmt w 0)
    let c := { c with results := putElems c.results ((c.slabElems j).zip codes), resultSlabs := c.resultSlabs ++ [j]
                      resultPoison := if poison then c.resultPoison ++ [j] else c.resultPoison
                      flags := c.flags ||| (Flags3.mk false false nf).bits }
    (s.deliverSlab c j codes poison).setColl slot c

/-- The owner's result leaves along both its lines, or only lands here (R430, Table 12-5). -/
def State.sendResult (s : State) (g : Group) (c : Coll) (j : Nat) (codes : List Nat) (poison : Bool) : State :=
  let x := g.slab c.slabs j
  let (d1, d2) := g.dims x.partA
  let ranks := ((List.range d2).map (fun b => g.at_ x.partA x.o1 b)) ++ (List.range d1).map (fun a => g.at_ x.partA a x.o2)
  let s := if c.gathers then
      (ranks.filter (fun r => r ≠ g.rank)).foldl (fun (s : State) r => s.sendSlab g c 2 r j codes poison) s
    else s
  s.slabDone g.slot c j codes poison

/-- The total of a slab forms at its owner, once every line partial is in (R430, R431, R433). -/
def State.total (s : State) (g : Group) (c : Coll) (j : Nat) : State :=
  let x := g.slab c.slabs j
  let d2 := (g.dims x.partA).2
  if g.owner x ≠ g.rank || j ∈ c.totals then s
  else match c.heldAll 1 j ((List.range d2).map (fun b => g.at_ x.partA x.o1 b)) with
    | none => s
    | some (ls, poison) =>
      let scale := toSigned 8 (c.f 159 152)
      let rs := (List.range (c.slabElems j).length).map (fun i =>
        roundVal (fmtOf c.outFmt) (vScale scale (foldSum c.fp8 (ls.map (fun l => partVal c.fp8 (l.getD i 0))))) none)
      let c := { c with totals := c.totals ++ [j], flags := c.flags ||| flagsOf rs }
      (s.setColl g.slot c).sendResult g c j (rs.map Rounded.bits) poison

/-- The line partial of a slab forms here, once every contribution of the line is in, and goes to the owner (R430,
R431). -/
def State.partial_ (s : State) (g : Group) (c : Coll) (j : Nat) : State × Coll :=
  let x := g.slab c.slabs j
  let (a, b) := g.coords x.partA g.rank
  if a ≠ x.o1 || j ∈ c.partials then (s, c)
  else match c.heldAll 0 j ((List.range (g.dims x.partA).1).map (fun a => g.at_ x.partA a b)) with
    | none => (s, c)
    | some (ls, poison) =>
      let (v, s) := s.fresh 32768
      let codes := (List.range (c.slabElems j).length).map (fun i =>
        partCode c.fp8 (foldSum c.fp8 (ls.map (fun l => c.contribVal (l.getD i 0)))) (v.extractLsb' (32 * i) 32))
      let c := ({ c with partials := c.partials ++ [j] } : Coll).hold 1 g.rank ((c.slabElems j).zip codes)
        (if poison then [j] else [])
      let s := s.setColl g.slot c
      (if g.owner x = g.rank then s else s.sendSlab g c 1 (g.owner x) j codes poison, c)

/-- A slab advances as far as what is in lets it. -/
def State.advance (s : State) (slot : Nat) (seq : BitVec 32) (j : Nat) : State :=
  match s.group? slot with
  | some g => match g.colls.find? (fun c : Coll => c.seq == seq) with
    | some c =>
      if c.reduces then
        let (s, c) := s.partial_ g c j
        s.total g c j
      else s
    | none => s
  | none => s

/-! ### Norms and the update (R298, R440 to R443) -/

/-- The norm of a tensor of elements, `per` to a 4 KiB block (R298). -/
def tensorNorm (per : Nat) (xs : List Val) : Val :=
  let block (b : Nat) : Val := treeSum (((xs.drop (b * per)).take per).map (fun v => rn32 (vMul v v)))
  let blocks := (List.range ((xs.length + per - 1) / per)).map block
  let stripe (k : Nat) : Val := treeSum ((blocks.drop (512 * k)).take 512)
  sqrt32 (treeSum ((List.range ((blocks.length + 511) / 512)).map stripe))

/-- The FP32 code of a value. -/
def code32 (v : Val) : Nat := (roundVal fmtFP32 v none).bits

/-- What the update makes of one element: the new codes, u, and whether w1, m1 or v1 was not finite. -/
structure UpdElem where
  w : Rounded
  m : Rounded
  v : Rounded
  u : Val
  nf : Bool

/-- The update of one element (R440, R441): `prm` reads the FP32 parameters by number, from LR on. -/
def updElem (adam : Bool) (prm : Nat → Val) (k0 k1 : BitVec 64) (clip : Val) (i : Nat) (gr w m v : Val) : UpdElem :=
  let fma (a b x : Val) : Val := rn32 (vAdd (vMul a b) x)
  let mul (a b : Val) : Val := rn32 (vMul a b)
  let minus1 (b : Val) : Val := rn32 (vAdd (.fin false 1 0) (vNeg b))
  let g := mul (mul gr (prm 6)) clip
  let m1 := if adam then fma (prm 1) m (mul (minus1 (prm 1)) g) else fma (prm 1) m g
  let v1 := if adam then fma (prm 2) v (mul (minus1 (prm 2)) (mul g g)) else vZero
  let q := if adam then div32 (mul m1 (prm 7)) (rn32 (vAdd (sqrt32 (mul v1 (prm 8))) (prm 3))) else m1
  let w1 := rn32 (vAdd w (vNeg (mul (prm 0) (rn32 (vAdd q (mul (prm 4) w))))))
  let sr (x : Val) (purpose : Nat) : Rounded :=
    roundVal fmtBF16 x (some (draw16 k0 k1 (BitVec.ofNat 16 purpose) (BitVec.ofNat 64 i)))
  let w' := sr w1 0x2000
  { w := w', m := sr m1 0x2001, v := sr v1 0x2002
    u := rn32 (vAdd (decodeFloat fmtBF16 w'.bits) (vNeg w))
    nf := !(vFinite w1 && vFinite m1 && vFinite v1) }

/-- The clip factor (R442). -/
def clipFactor (clip gscale norm : Val) : Val :=
  if !vPos clip then .fin false 1 0
  else
    let e := rn32 (vMul norm (if vLt gscale vZero then vNeg gscale else gscale))
    if vLe e clip then .fin false 1 0 else div32 clip e

/-- BF16 codes as bytes. -/
def bf16Bytes (codes : List Nat) : Tab Byte := putBytes [] 0 (codes.flatMap (leBytes 2))

/-- The tiles of 16 slabs of an update that are sampled for duplicate execution, W's handle in place of O0's (R262,
R441). -/
def State.updSampled (s : State) (word tiles : Nat) : Nat :=
  ((List.range tiles).filter (fun t =>
    (crc32c (leBytes 8 word ++ leBytes 4 t)).toNat % 2 ^ s.regs.dupRate.toNat == 0)).length

/-! ### Ends -/

/-- Handles a collective reads are free of it. -/
def State.endReads (s : State) (c : Coll) : State :=
  c.reads.foldl (fun (s : State) k => match s.handle? k with
    | some h => s.setHandle { h with readers := h.readers - 1 }
    | none => s) s

/-- A collective leaves its group. -/
def State.dropColl (s : State) (slot : Nat) (seq : BitVec 32) : State :=
  match s.group? slot with
  | some g => s.setGroup { g with colls := g.colls.filter (fun c : Coll => c.seq ≠ seq) }
  | none => s

/-- What a REDUCE_UPDATE leaves for the seal of its step. -/
def State.leave (s : State) (slot : Nat) (p : PendUpdate) : State :=
  match s.group? slot with
  | some g => s.setGroup { g with pend := g.pend.filter (fun x : PendUpdate => !(x.seq == p.seq && x.w.isSome)) ++ [p] }
  | none => s

/-- A REDUCE_UPDATE that left no pending values. -/
def failedUpdate (seq step : BitVec 32) : PendUpdate :=
  { seq := seq, step := step, values := [], w := none, dest := 0, digest := 0, nf := false, failed := true }

/-- A collective ends with an error; a REDUCE_UPDATE's step will report FAILED (R447, R457). -/
def State.failColl (s : State) (slot : Nat) (c : Coll) (st : BitVec 8) : State :=
  let s := if c.started then s else s.endReads c
  let s := s.dropColl slot c.seq
  let s := if c.opcode = 0x44 then s.leave slot (failedUpdate c.seq c.step) else s
  s.complete c.ticket { status := st }

/-- The hubs whose ports carry a collective's slabs (R436, R437). -/
def allPorts : List Hub := [0, 1, 2, 3]

/-- The bytes of the results as DEST holds them. -/
def Coll.resultBytes (c : Coll) : Tab Byte :=
  let eb := c.elemSize 2
  c.results.foldl (fun t x => putBytes t (x.1 * eb) (leBytes eb x.2)) []

/-- The digest of what was written to DEST (R296, R437). -/
def Coll.digest (c : Coll) (g : Group) : BitVec 64 :=
  let eb := c.elemSize 2
  let bytes := c.resultBytes
  if c.dest = 0 then 0
  else if c.gathers then digestRange bytes 0 (c.elements * eb)
  else
    let ka := c.slabs * g.split / 65536
    let part (p : Nat → Bool) : BitVec 64 := match (List.range c.slabs).filter (fun j => p j && decide (j ∈ c.resultSlabs)) with
      | [] => 0
      | j :: js =>
        let last := (j :: js).getLastD j
        digestRange bytes (1024 * j * eb) (min ((last + 1) * 1024) c.elements * eb - 1024 * j * eb)
    part (fun j => decide (j < ka)) + part (fun j => decide (ka ≤ j))

/-- The gathered gradient is in: the update is computed, the pending values are kept, the new weights are delivered, and
the command completes (R441 to R444, Table 12-9). -/
def State.endUpdate (s : State) (g : Group) (c : Coll) : State :=
  let prm (n : Nat) : Val := decodeFloat fmtFP32 (c.p (64 + 4 * n) 4)
  let adam := c.p 48 1 == 2
  let n := c.elements
  let gr := (List.range n).map (fun i => elemVal c.outFmt (((c.results.find? (fun e => e.1 == i)).map Prod.snd).getD 0) 0)
  let old (h : Nat) (i : Nat) : Val := decodeFloat fmtBF16 (bytesNat (c.src.getD h []) (2 * i) 2)
  let base := c.src.length - (if adam then 3 else 2)
  let norm := tensorNorm (4096 / c.elemSize 2) gr
  let clip := clipFactor (prm 5) (prm 6) norm
  let t := BitVec.ofNat 64 (c.f 287 256 + c.f 319 288 * 2 ^ 32)
  let k0 := mix64 (g.seedLo ^^^ mix64 t)
  let k1 := mix64 (g.seedHi ^^^ mix64 (t ^^^ 0x8000000000000000#64))
  let es := (List.range n).map (fun i => updElem adam prm k0 k1 clip i (gr.getD i vZero) (old base i) (old (base + 1) i)
    (if adam then old (base + 2) i else vZero))
  let nw := bf16Bytes (es.map (fun e => e.w.bits))
  let news := [nw, bf16Bytes (es.map (fun e => e.m.bits)), bf16Bytes (es.map (fun e => e.v.bits))]
  let rs := es.map UpdElem.w ++ es.map UpdElem.m ++ (if adam then es.map UpdElem.v else [])
  let fl := c.flags ||| flagsOf rs
  let unorm := tensorNorm 1024 (es.map UpdElem.u)
  let digest := tensorDigest nw (2 * n)
  let mine : List Pend := match g.pend.find? (fun p : PendUpdate => p.seq == c.seq && p.w.isSome) with
    | some p => p.values
    | none => []
  let valueOf (k : HKey) : Tab Byte := match c.handles.findIdx? (fun h => h == some k) with
    | some i => news.getD i []
    | none => []
  let poisoned := !c.resultPoison.isEmpty
  let lost := (g.pend.find? (fun p : PendUpdate => p.seq == c.seq && p.w.isSome)).all PendUpdate.failed
  let p : PendUpdate :=
    { seq := c.seq, step := c.step, values := mine.map (fun v : Pend => ({ v with bytes := valueOf v.key } : Pend))
      w := c.handles.headD none, dest := c.dest, digest := digest
      nf := es.any UpdElem.nf || gr.any (fun v => !vFinite v), failed := lost || poisoned }
  let s := if c.dest = 0 then s else s.hostDeliver c.dest (2 * n) nw 0 []
  let s := if poisoned && c.dest ≠ 0 then c.resultPoison.foldl (fun (s : State) j =>
      { s with host := { s.host with poison := putMarks s.host.poison (c.dest + 2048 * j) (2 * (c.slabElems j).length) true } }) s
    else s
  let word := match (c.handles.headD none).bind s.handle? with
    | some h => handleWord h.key h.gen
    | none => 0
  let x := leBytes 8 digest.toNat
    ++ leBytes 4 (code32 (tensorNorm 2048 (es.map (fun e => decodeFloat fmtBF16 e.w.bits)))) ++ leBytes 4 (code32 norm)
    ++ leBytes 4 (code32 unorm) ++ leBytes 4 (code32 clip)
    ++ leBytes 4 (code32 (tensorNorm 2048 ((List.range n).map (old base)))) ++ leBytes 4 0
    ++ leBytes 8 (tensorDigest c.resultBytes (n * c.elemSize 2)).toNat
    ++ leBytes 4 (s.updSampled word ((c.slabs + 15) / 16)) ++ leBytes 4 0 ++ leBytes 16 0
  let s := (s.dropColl g.slot c.seq).leave g.slot p
  let result := if poisoned then 0 else BitVec.ofNat 64 (code32 norm + code32 unorm * 2 ^ 32)
  s.completeVia c.ticket allPorts { status := if poisoned then 0x20 else 0, flags := fl, result := result, xbytes := x }

/-- Every slab a reduction or a gather owes this member, or this member owes its lines, is done. -/
def Coll.finished (g : Group) (c : Coll) : Bool :=
  (List.range c.slabs).all (fun j =>
    let x := g.slab c.slabs j
    (!c.reduces || (g.coords x.partA g.rank).1 ≠ x.o1 || decide (j ∈ c.partials))
      && (!(c.gathers || g.owner x = g.rank) || decide (j ∈ c.resultSlabs)))

/-- The end of a collective whose slabs are all done (R437, R443). -/
def State.endColl (s : State) (slot : Nat) (seq : BitVec 32) : State :=
  match s.group? slot with
  | none => s
  | some g => match g.colls.find? (fun c : Coll => c.seq == seq) with
    | none => s
    | some c =>
      if !c.started || c.opcode = 0x43 || c.opcode = 0x45 || !c.finished g then s
      else if c.opcode = 0x44 then s.endUpdate g c
      else
        let d := c.digest g
        let bad := !c.resultPoison.isEmpty
        (s.dropColl slot seq).completeVia c.ticket allPorts
          { status := if bad then 0x20 else 0, flags := c.flags, result := if bad then 0 else d
            xbytes := leBytes 8 d.toNat ++ List.replicate 56 0 }

/-- A group breaks on this member: every collective ends with MEMBER_LOST, the loss is told along both lines, and its
barrier slots enter FAULT (R423, R424, R457, R483). -/
def State.breakGroup (s : State) (slot : Nat) : State :=
  match s.group? slot with
  | none => s
  | some g =>
    if g.state != .ready then s
    else
      let s := s.setGroup { g with state := .broken, early := [] }
      let s := g.colls.foldl (fun (s : State) (c : Coll) => s.failColl slot c 0x77) s
      (s.sendAbort g 0 0x77).barsBroken slot

/-! ### Permutes (R451 to R454) -/

/-- The entries of a move table. -/
def State.moveTable (s : State) (addr n : Nat) : List MoveEntry :=
  (List.range n).map (fun i =>
    let a := addr + 32 * i
    { srcRank := s.hostNum a 2, dstRank := s.hostNum (a + 2) 2, srcT := s.hostNum (a + 4) 1, dstT := s.hostNum (a + 5) 1
      srcOffset := s.hostNum (a + 8) 8, dstOffset := s.hostNum (a + 16) 8, length := s.hostNum (a + 24) 8 })

/-- A range's size in an object of a handle list, none where the index is null. -/
def State.rangeIn (s : State) (c : Coll) (t off len : Nat) : Option Bool :=
  match (c.handles.getD t none).bind s.handle? with
  | some h => some (decide (off + len ≤ h.shape.size))
  | none => none

/-- The status of the first failing check of a move table (R451, Table 12-10). -/
def State.moveCheck (s : State) (g : Group) (c : Coll) : Option (BitVec 8) :=
  let mine := c.table.filter (fun e : MoveEntry => e.srcRank == g.rank || e.dstRank == g.rank)
  let n := g.d1 * g.d2
  let ins := mine.filter (fun e : MoveEntry => e.dstRank == g.rank)
  let badField (e : MoveEntry) : Bool :=
    decide (n ≤ e.srcRank ∨ n ≤ e.dstRank) || e.srcOffset % 64 ≠ 0 || e.dstOffset % 64 ≠ 0 || e.length % 64 ≠ 0
      || decide (e.length < 64 ∨ 2 ^ 28 < e.length)
      || (e.srcRank == g.rank && (s.rangeIn c e.srcT 0 0).isNone) || (e.dstRank == g.rank && (s.rangeIn c e.dstT 0 0).isNone)
  let outside (e : MoveEntry) : Bool :=
    (e.srcRank == g.rank && s.rangeIn c e.srcT e.srcOffset e.length == some false)
      || (e.dstRank == g.rank && s.rangeIn c e.dstT e.dstOffset e.length == some false)
  let overlap := ins.zipIdx.any (fun x => ins.zipIdx.any (fun y => decide (x.2 < y.2) && x.1.dstT == y.1.dstT
    && decide (x.1.dstOffset < y.1.dstOffset + y.1.length ∧ y.1.dstOffset < x.1.dstOffset + x.1.length)))
  if c.table.any (fun e : MoveEntry => decide (n ≤ e.srcRank ∨ n ≤ e.dstRank)) || mine.any badField then some 0x03
  else if mine.any outside then some 0x13
  else if overlap then some 0x03
  else none

/-- Bytes land in a destination handle; their poison marks its blocks (R453, R457). -/
def State.land4 (s : State) (slot : Nat) (c : Coll) (entry off : Nat) (bytes : List Byte) (poison : Bool) : State :=
  match c.table[entry]? with
  | none => s
  | some e =>
    if (entry, off) ∈ c.landed then s
    else
      let at0 := e.dstOffset + off
      let blocks := (List.range (bytes.length / 4096 + 2)).map (fun i => at0 / 4096 + i)
      let hit := blocks.filter (fun b => decide (b * 4096 < at0 + bytes.length))
      let s := match (c.handles.getD e.dstT none).bind s.handle? with
        | some h => s.setHandle { h with content := putBytes h.content at0 bytes,
                                         marks := { h.marks with poison := if poison then (h.marks.poison ++ hit).dedup
                                                                           else h.marks.poison } }
        | none => s
      s.setColl slot { c with landed := c.landed ++ [(entry, off)], received := c.received + bytes.length,
                              resultPoison := if poison then c.resultPoison ++ [entry] else c.resultPoison }

/-- The rank that bytes of an entry go to next from a member (R452). -/
def Group.nextHop (g : Group) (e : MoveEntry) : Nat :=
  let shares := e.srcRank / g.d1 == e.dstRank / g.d1 || e.srcRank % g.d1 == e.dstRank % g.d1
  if shares then e.dstRank else e.srcRank / g.d1 * g.d1 + e.dstRank % g.d1

/-- A record goes along this member's lines, as a gather: to its dimension-2 line and along its own dimension-1 line
(R430, R447, R454). -/
def State.sendRecord (s : State) (g : Group) (c : Coll) (kind : Nat) (r : SealRecord) (ranks : List Nat) : State :=
  (ranks.filter (fun k => k ≠ g.rank)).foldl (fun (s : State) k =>
    s.sendPkg (g.pkg k) 0 (collMsg 0x12 g.slot kind c.chk.toNat 0 c.seq 0 c.prio false (sealBytes r))) s

/-- A member that has landed every incoming byte says so, and PERMUTE ends when all members have (R454). -/
def State.permuteStep (s : State) (slot : Nat) (seq : BitVec 32) : State :=
  match s.group? slot with
  | none => s
  | some g => match g.colls.find? (fun c : Coll => c.seq == seq) with
    | none => s
    | some c =>
      let want := ((c.table.filter (fun e : MoveEntry => e.dstRank == g.rank)).map MoveEntry.length).sum
      if c.received < want then s
      else
        let r : SealRecord := { rank := g.rank, nf := false, failed := false, count := 0, digests := 0 }
        let s := if g.rank ∈ c.doneRanks then s else s.sendRecord g c 7 r (g.line1 ++ g.line2)
        let c := if g.rank ∈ c.doneRanks then c else { c with doneRanks := c.doneRanks ++ [g.rank] }
        if c.doneRanks.length < g.d1 * g.d2 then s.setColl slot c
        else
          let outs := ((c.table.filter (fun e : MoveEntry => e.dstRank == g.rank)).filterMap
            (fun e : MoveEntry => c.handles.getD e.dstT none)).dedup
          let s := outs.foldl (fun (s : State) k => match s.handle? k with
            | some h => s.setHandle { h with updates := h.updates + 1,
                                             marks := { h.marks with digest := tensorDigest h.content h.shape.size } }
            | none => s) s
          let bad := !c.resultPoison.isEmpty
          (s.dropColl slot seq).complete c.ticket
            { status := if bad then 0x20 else 0, result := if bad then 0 else BitVec.ofNat 64 c.received }

/-- A permute's outgoing bytes are read, and go to their destination, to a relay, or land here (R452, R453). -/
def State.sendMoves (s : State) (g : Group) (c : Coll) : State :=
  (c.table.zipIdx.filter (fun x : MoveEntry × Nat => x.1.srcRank == g.rank)).foldl (fun (s : State) x =>
    let e := x.1
    let from_ := c.src.getD e.srcT []
    let bad (off : Nat) : Bool := match (c.handles.getD e.srcT none).bind s.handle? with
      | some h => (s.objectPoison h).any (fun b => decide (b * 4096 < e.srcOffset + off + 4096 ∧ e.srcOffset + off < b * 4096 + 4096))
      | none => false
    (List.range ((e.length + 4095) / 4096)).foldl (fun (s : State) i =>
      let n := min 4096 (e.length - 4096 * i)
      let bytes := (List.range n).map (fun k => tabGet 0 from_ (e.srcOffset + 4096 * i + k))
      if e.dstRank = g.rank then match (s.group? g.slot).bind (fun g => g.colls.find? (fun y : Coll => y.seq == c.seq)) with
        | some c => s.land4 g.slot c x.2 (4096 * i) bytes (bad (4096 * i))
        | none => s
      else s.sendPkg (g.pkg (g.nextHop e)) x.2 (collMsg 0x10 g.slot 4 c.chk.toNat 0 c.seq
        (x.2 + 4096 * i * 2 ^ 20) c.prio (bad (4096 * i)) bytes)) s) s

/-! ### Seals (R447) -/

/-- This member's seal record for a step (R447). -/
def Group.sealOf (g : Group) (step : BitVec 32) : SealRecord :=
  let ps := g.pend.filter (fun p : PendUpdate => p.step == step)
  { rank := g.rank, nf := ps.any PendUpdate.nf, failed := ps.any PendUpdate.failed, count := ps.length
    digests := ps.foldl (fun a p => a + p.digest) 0 }

/-- A record of a member is kept, once (R447, R454). -/
def Coll.keepRecord (c : Coll) (kind : Nat) (r : SealRecord) : Coll :=
  if kind = 6 then
    if c.seals.any (fun x : SealRecord => x.rank == r.rank) then c else { c with seals := c.seals ++ [r] }
  else if r.rank ∈ c.doneRanks then c else { c with doneRanks := c.doneRanks ++ [r.rank] }

/-! ### Messages (R427, R438) -/

/-- COLL_MISMATCH, or an abort that came: the collective ends with the reason, which goes on along both lines once
(R427). -/
def State.abortColl (s : State) (slot : Nat) (seq : BitVec 32) (reason : BitVec 8) : State :=
  match s.group? slot with
  | none => s
  | some g =>
    if g.aborted.any (fun a => a.1 == seq) then s
    else
      let s := s.setGroup { g with aborted := g.aborted ++ [(seq, reason)]
                                   early := g.early.filter (fun e : EarlyMsg => e.msg.seq ≠ seq) }
      let s := match g.colls.find? (fun c : Coll => c.seq == seq) with
        | some c => s.failColl slot c reason
        | none => s
      s.sendAbort g seq reason.toNat

/-- The elements a message carries, by index. -/
def msgElems (eb first : Nat) (data : List Byte) : List (Nat × Nat) :=
  (List.range (data.length / eb)).map (fun i => (first + i, leValue ((data.drop (i * eb)).take eb)))

/-- A data message of a collective that has started here (R430, R438, R452). -/
def State.collData (s : State) (g : Group) (c : Coll) (rank : Nat) (m : CollMsg) : State :=
  let kind := m.kind.toNat
  let first := m.addr.toNat
  if kind = 4 ∨ kind = 5 then
    if c.opcode ≠ 0x43 then s
    else
      let entry := first % 2 ^ 20
      match c.table[entry]? with
      | none => s
      | some e =>
        if e.dstRank = g.rank then (s.land4 g.slot c entry (first / 2 ^ 20) m.data m.poison).permuteStep g.slot c.seq
        else s.sendPkg (g.pkg e.dstRank) entry (collMsg 0x10 g.slot 5 c.chk.toNat 0 c.seq first m.prio.toNat m.poison m.data)
  else if c.opcode = 0x43 ∨ c.opcode = 0x45 then s
  else
    let j := first / 1024
    let x := g.slab c.slabs j
    let xs := msgElems (c.elemSize kind) first m.data
    let p := if m.poison then [j] else []
    if kind ≤ 1 then
      ((s.setColl g.slot (c.hold kind rank xs p)).advance g.slot c.seq j).endColl g.slot c.seq
    else
      let c := c.hold 2 (g.owner x) xs p
      let s := s.setColl g.slot c
      let (a, b) := g.coords x.partA g.rank
      let relays := kind = 2 && a == x.o1 && b ≠ x.o2
      let s := if relays then
          ((List.range (g.dims x.partA).1).filter (fun k => k ≠ a)).foldl (fun (s : State) k =>
            s.sendPkg (g.pkg (g.at_ x.partA k b)) j (collMsg 0x10 g.slot 3 c.chk.toNat 0 c.seq first m.prio.toNat m.poison
              m.data)) s
        else s
      match c.held 2 (g.owner x) j with
      | some (codes, bad) => (s.slabDone g.slot c j codes bad).endColl g.slot c.seq
      | none => s

/-- A seal or permute-done record of a collective that has started here; one that comes over the dimension-2 line from
its own member goes on along the dimension-1 line. -/
def State.collRecord (s : State) (g : Group) (c : Coll) (rank : Nat) (m : CollMsg) (r : SealRecord) : State :=
  let kind := m.kind.toNat
  let s := if r.rank = rank && decide (rank ∈ g.line2) && decide (rank ≠ g.rank) && rank / g.d1 ≠ g.rank / g.d1 then
      s.sendRecord g c kind r g.line1
    else s
  let s := s.setColl g.slot (c.keepRecord kind r)
  if kind = 7 && c.opcode = 0x43 then s.permuteStep g.slot c.seq else s

/-- A message of a collective this member holds: its PARAM_CHK is checked first (R427). -/
def State.collTake (s : State) (slot : Nat) (e : EarlyMsg) : State :=
  match s.group? slot with
  | none => s
  | some g => match g.colls.find? (fun c : Coll => c.seq == e.msg.seq) with
    | some c =>
      if !c.started then s.setGroup { g with early := g.early ++ [e] }
      else if e.msg.chk ≠ c.chk then s.abortColl slot c.seq 0x76
      else match e.record with
        | some r => s.collRecord g c e.rank e.msg r
        | none => s.collData g c e.rank e.msg
    | none => if e.msg.seq ∈ g.seen then s else s.setGroup { g with early := g.early ++ [e] }

/-! ### Starts (R426) -/

/-- The bytes and the poisoned slabs of a source in host memory. -/
def State.hostSource (s : State) (c : Coll) (addr : Nat) : Tab Byte × List Nat :=
  let span := 1024 * (elemBits c.srcFmt / 8)
  (s.hostSlice addr c.size, ((tabSlice s.host.poison addr c.size).map (fun e => e.1 / span)).dedup)

/-- The sources a collective reads from host memory at its start: SRC where it is no handle, and SRC1 to SRC3 (R434). -/
def Coll.hostSources (c : Coll) : List Nat :=
  (if c.f 64 64 = 1 then [] else [c.f 383 320])
    ++ (if c.opcode = 0x44 then (List.range 3).map (fun i => c.p (24 + 8 * i) 8) |>.filter (fun a => a ≠ 0) else [])

/-- A reduction or a gather starts: its sources are read, and its contributions, or its owned slabs, leave (R430). -/
def State.startSlabs (s : State) (g : Group) (c : Coll) : State :=
  let host := c.hostSources.map (s.hostSource c)
  let nh := if c.f 64 64 = 1 then 1 else 0
  let src := c.src.take nh ++ host.map Prod.fst ++ c.src.drop nh
  let bad := (c.srcPoison ++ host.flatMap Prod.snd).dedup
  let (v, s) := s.fresh 32
  let s := s.endReads c
  let c : Coll := { c with started := true, reads := [], src := src }
  let own := fun j => (c.slabElems j).map (fun i => (i, c.contribution v i))
  let js := List.range c.slabs
  if c.opcode = 0x42 then
    let s := s.setColl g.slot c
    (js.filter (fun j => g.owner (g.slab c.slabs j) = g.rank)).foldl (fun (s : State) j =>
      match (s.group? g.slot).bind (fun g => g.colls.find? (fun y : Coll => y.seq == c.seq)) with
      | some y => s.sendResult g y j ((own j).map Prod.snd) (bad.contains j)
      | none => s) s
  else
    let target (j : Nat) : Nat :=
      let x := g.slab c.slabs j
      g.at_ x.partA x.o1 (g.coords x.partA g.rank).2
    let c := (js.filter (fun j => target j = g.rank)).foldl (fun (c : Coll) j =>
      c.hold 0 g.rank (own j) (if bad.contains j then [j] else [])) c
    let s := s.setColl g.slot c
    let s := (js.filter (fun j => target j ≠ g.rank)).foldl (fun (s : State) j =>
      s.sendSlab g c 0 (target j) j ((own j).map Prod.snd) (bad.contains j)) s
    js.foldl (fun (s : State) j => s.advance g.slot c.seq j) s

/-- Room is taken for the pending stripes of W, M and V, or QUOTA_EXCEEDED (R444). -/
def State.reservePending (s : State) (g : Group) (c : Coll) : Option State :=
  let p0 : PendUpdate := { seq := c.seq, step := c.step, values := [], w := c.handles.headD none, dest := c.dest, digest := 0
                           nf := false, failed := false }
  (c.handles.filterMap id).foldl (fun (a : Option State) k => a.bind (fun (s : State) => match s.handle? k with
    | none => some s
    | some h => (s.placePending h.place h.key.obj h.shape.size).map (fun p =>
      let v : Pend := { key := k, homes := p.chosen.map (fun u => s.homeIn u .plain), bytes := [] }
      let s := { s with units := { s.units with bankPtr := p.ptr } }
      match s.group? g.slot with
      | some g => s.setGroup { g with pend := g.pend.map (fun x : PendUpdate =>
          if x.seq = c.seq ∧ x.w.isSome then ({ x with values := x.values ++ [v] } : PendUpdate) else x) }
      | none => s))) (some (s.leave g.slot p0))

/-- The feature check of a collective at its start: PERMUTE needs minor 1 of the group and of a link to every line peer
(R412, R422). -/
def State.permuteMinor (s : State) (g : Group) : Bool :=
  1 ≤ g.minor && g.linePeers.all (fun r =>
    let ls := s.bundle (g.pkg r)
    ls.isEmpty || ls.any (fun l => decide (1 ≤ s.lnk.links[l].minor)))

/-- A PERMUTE starts: its table is read and checked, and its bytes leave (R451, R452). -/
def State.startPermute (s : State) (g : Group) (c : Coll) : State :=
  let n := c.f 195 176 + 1
  let table := s.moveTable (c.f 383 320) n
  let digest := digestRange (s.hostSlice (c.f 383 320) (32 * n)) 0 (32 * n)
  let c : Coll := { c with started := true, table := table, chk := c.check (n - 1) (digest.toNat % 2 ^ 32), reads := [] }
  let s := (s.endReads { c with reads := c.handles.filterMap id }).setColl g.slot c
  match s.moveCheck g c with
  | some e => (s.failColl g.slot c e).abortColl g.slot c.seq e
  | none => (s.sendMoves g c).permuteStep g.slot c.seq

/-- A seal starts: this member's record goes along its lines (R447). -/
def State.startSeal (s : State) (g : Group) (c : Coll) : State :=
  let r := g.sealOf c.step
  let c : Coll := { c with started := true, since := s.tick, seals := [r] }
  (s.setColl g.slot c).sendRecord g c 6 r (g.line1 ++ g.line2)

/-- A collective starts. -/
def State.startColl (s : State) (g : Group) (c : Coll) : State :=
  let s := s.setGroup { g with lastStarted := c.seq }
  let s := s.setColl g.slot { c with started := true }
  let s := if c.opcode = 0x45 then s.startSeal g c
    else if c.opcode = 0x43 then
      if s.permuteMinor g then s.startPermute g c else s.failColl g.slot { c with started := false } 0x61
    else if c.opcode = 0x44 then match s.reservePending g c with
      | some s => s.startSlabs g c
      | none => s.failColl g.slot { c with started := false } 0x17
    else s.startSlabs g c
  let early := g.early.filter (fun e : EarlyMsg => e.msg.seq == c.seq)
  let s := match s.group? g.slot with
    | some g => s.setGroup { g with early := g.early.filter (fun e : EarlyMsg => e.msg.seq ≠ c.seq) }
    | none => s
  let s := early.foldl (fun (s : State) e => s.collTake g.slot e) s
  s.endColl g.slot c.seq

/-- The collective that may start next: of those received, the one with the lowest COLL_SEQ not started, while fewer than
8 are started; a seal only once every lower one has ended (R426, R447). -/
def Group.next (g : Group) : Option Coll :=
  let waiting := g.colls.filter (fun c : Coll => !c.started)
  let first := waiting.foldl (fun (a : Option Coll) c => match a with
    | none => some c
    | some b => if c.seq < b.seq then some c else some b) none
  match first with
  | none => none
  | some c =>
    if g.state != .ready || 8 ≤ (g.colls.filter Coll.started).length then none
    else if c.opcode = 0x45 && g.colls.any (fun x : Coll => x.seq < c.seq) then none
    else some c

/-- Collectives start while they may. -/
def State.pumpCollsN : Nat → Nat → State → State
  | 0, _, s => s
  | n + 1, slot, s => match s.group? slot with
    | some g => match g.next with
      | some c => State.pumpCollsN n slot (s.startColl g c)
      | none => s
    | none => s

/-- Collectives of a group start while they may; none once a shut-down has begun (R615). -/
def State.pumpColls (s : State) (slot : Nat) : State :=
  if s.shutting then s
  else State.pumpCollsN (((s.group? slot).map (fun g : Group => g.colls.length)).getD 0) slot s

/-! ### Formation (R421, R422) -/

/-- The lowest negotiated minor of this member's links to its line peers. -/
def State.lineMinor (s : State) (g : Group) : Nat :=
  (g.linePeers.flatMap (fun r => (s.bundle (g.pkg r)).map (fun l => s.lnk.links[l].minor))).foldl min 255

/-- This member's round-1 record (R421). -/
def State.formRecord (s : State) (g : Group) : FormRecord :=
  { rank := g.rank, key := g.key, digest := g.digest, seedCheck := Config.seedCheck g.seedLo g.seedHi, d1 := g.d1, d2 := g.d2
    split := g.split, major := 1, epoch := s.lnk.epoch, minor := s.lineMinor g }

/-- The round-2 minor this member holds: the lowest of the round-1 records received (R421). -/
def Group.roundMinor (g : Group) : Nat := (g.round1.map FormRecord.minor).foldl min 255

/-- A formation record that does not match this member's group (Table 12-2). -/
def Group.differs (g : Group) (r : FormRecord) : Bool :=
  r.key ≠ g.key || r.digest ≠ g.digest || r.seedCheck ≠ Config.seedCheck g.seedLo g.seedHi || r.d1 ≠ g.d1 || r.d2 ≠ g.d2
    || r.split ≠ g.split

/-- A line peer speaks another major: its record says so, or a link to it is DOWN_VERSION or runs across majors (R411). -/
def State.otherMajor (s : State) (g : Group) : Bool :=
  g.round1.any (fun r : FormRecord => r.major ≠ 1) || g.linePeers.any (fun p => (List.finRange 32).any (fun l =>
    let k := s.lnk.links[l]
    (k.peer.map PeerHello.pkg) == some (g.pkg p) && (k.state == .downVersion || (k.state.counts && k.major ≠ 1))))

/-- A forming group ends with a status, its slot freed; what was queued on it ends with NO_GROUP. -/
def State.endForming (s : State) (g : Group) (st : BitVec 8) : State :=
  let s := g.colls.foldl (fun (s : State) (c : Coll) => s.failColl g.slot c 0x74) s
  let s := { s with groups := s.groups.filter (fun x : Group => x.slot ≠ g.slot) }
  match g.ticket with
  | some t => s.complete t { status := st }
  | none => s

/-- The formation messages owed to line peers whose bundle is up are sent (R421). -/
def State.sendForms (s : State) (g : Group) : State :=
  let up (r : Nat) : Bool := !(s.bundle (g.pkg r)).isEmpty
  let to1 := g.linePeers.filter (fun r => up r && r ∉ g.sent1)
  let s := to1.foldl (fun (s : State) r =>
    s.sendPkg (g.pkg r) 0 (collMsg 0x11 g.slot 8 0 0 0 0 0 false (formBytes (s.formRecord g)))) s
  let all1 := g.linePeers.all (fun r => g.round1.any (fun x : FormRecord => x.rank == r))
  let to2 := if all1 then g.linePeers.filter (fun r => up r && r ∉ g.sent2) else []
  let s := to2.foldl (fun (s : State) r =>
    s.sendPkg (g.pkg r) 0 (collMsg 0x11 g.slot 9 0 0 0 0 0 false
      (formBytes { s.formRecord g with minor := g.roundMinor }))) s
  s.setGroup { g with sent1 := g.sent1 ++ to1, sent2 := g.sent2 ++ to2 }

/-- A forming group goes on: its messages leave, and its outcome is reached where it can be (Table 12-2). -/
def State.pumpForm (s : State) (slot : Nat) : State :=
  match s.group? slot with
  | none => s
  | some g =>
    if g.state != .forming then s
    else if g.round1.any g.differs then s.endForming g 0x70
    else if s.otherMajor g then s.endForming g 0x72
    else
      let s := s.sendForms g
      let heard (r : Nat) : Bool := g.round1.any (fun x : FormRecord => x.rank == r) && g.round2.any (fun x => x.1 == r)
      if !g.linePeers.all heard then s
      else
        let minor := (g.round2.map Prod.snd).foldl min g.roundMinor
        match s.group? slot with
        | none => s
        | some g =>
          let s := s.setGroup { g with state := .ready, minor := minor, ticket := none }
          let s := match g.ticket with
            | some t => s.complete t { status := 0, result := BitVec.ofNat 64 (minor % 256 + g.rank * 2 ^ 16) }
            | none => s
          s.pumpColls slot

/-- Every forming group goes on. -/
def State.pumpForms (s : State) : State := (List.range 16).foldl State.pumpForm s

end Sys2Proof.Machine
end

