-- ==== Sys2Proof/Machine/Power.lean ====
section
/-!
DEFINITION. Pace, power and thermal rules of chapter 17: pace windows, the cap and its lending, paced mode, domains and
the wake sequencer.
-/
namespace Sys2Proof.Machine

/-! ### Domains -/

/-- A domain's peak in W (Table 17-5), numbered as PWR_DOMAIN numbers them. -/
def domainPeak (d : Nat) : Nat := [8, 22, 22, 19, 12, 10, 12, 40, 28, 28].getD d 0

/-- A throttled domain's ON idle power in 1/8 W, rounded up (Table 17-5, assumption 10). -/
def domainIdle (d : Nat) : Nat := [0, 48, 40, 35, 24, 20].getD d 0

/-- The throttled domains: SHADE, ENGA, ENGB, CODEC, MOVER. -/
def isThrottled (d : Nat) : Bool := 1 ≤ d && d ≤ 5

/-- The domains that may enter RETAIN (Table 17-5). -/
def mayRetain (d : Nat) : Bool := (1 ≤ d && d ≤ 5) || d == 8 || d == 9

/-- The idle threshold of a domain in ticks, 0 for never (Table 17-11). -/
def HubPower.idleTicks (p : HubPower) (d : Nat) : Nat :=
  if d = 1 ∨ d = 5 then bitsOf p.idle.toNat 15 0 * 156250 / 1000
  else if d = 2 ∨ d = 3 ∨ d = 4 then bitsOf p.idle.toNat 31 16 * 156250 / 1000
  else bitsOf p.idleStack.toNat 15 0 * 156250

/-- A domain of a hub's power state. -/
def HubPower.dom (p : HubPower) (d : Nat) : Domain := p.domains.getD d Domain.reset

/-- A domain of a hub's power state changed. -/
def HubPower.upd (p : HubPower) (d : Nat) (f : Domain → Domain) : HubPower :=
  { p with domains := p.domains.modify d f }

/-- Work reached a domain: it is not idle before now (R586). -/
def State.touch (s : State) (h : Hub) (d : Nat) : State :=
  s.setPower h (s.pwr.hubs[h].upd d (fun x => { x with idleSince := some s.tick }))

/-- PWR_DOMAIN (Table 17-11). -/
def HubPower.domainReg (p : HubPower) : Nat :=
  ((List.range 10).map (fun d => (match (p.dom d).state with
    | .off => 0 | .ramping => 1 | .retain => 2 | .on => 3) * 4 ^ d)).sum

/-- The stack a STACK domain is (R19). -/
def domainStack (h : Hub) (d : Nat) : Stack := Fin.ofNat 8 (2 * h.val + (d - 8))

/-- A domain enters RETAIN once idle for its threshold and with no stalled request; a STACK goes into self-refresh
(R586). -/
def execRetainEntry (h : Hub) (d : Fin 10) (s : State) : Out :=
  let p := s.pwr.hubs[h]
  let x := p.dom d.val
  let idle := match x.idleSince with
    | some t => decide (0 < p.idleTicks d.val ∧ p.idleTicks d.val ≤ s.tick - t)
    | none => false
  if mayRetain d.val && x.state == .on && x.stalled == 0 && !x.longWaiting && idle then
    let s := s.setPower h (p.upd d.val (fun x => { x with state := .retain }))
    .next (if 8 ≤ d.val then
      { s with units := { s.units with selfRefresh := Vector.set s.units.selfRefresh (domainStack h d.val).val true } }
      else s)
  else .next s

/-- A request reaches a domain in RETAIN: it stalls, and the domain joins its rail's ramp slot, ramping at once when
the slot is free (R587, R588). -/
def execWakeRequest (h : Hub) (d : Fin 10) (s : State) : Out :=
  let p := s.pwr.hubs[h]
  let x := p.dom d.val
  let p := p.upd d.val (fun x => { x with stalled := x.stalled + 1 })
  if x.state == .retain then
    if 8 ≤ d.val then
      if d.val ∈ p.stackSlot then .next (s.setPower h p)
      else
        let p := if p.stackSlot.isEmpty then p.upd d.val (fun x => { x with state := .ramping }) else p
        .next (s.setPower h { p with stackSlot := p.stackSlot ++ [d.val] })
    else if d.val ∈ p.hubSlot then .next (s.setPower h p)
    else
      let p := if p.hubSlot.isEmpty then p.upd d.val (fun x => { x with state := .ramping }) else p
      .next (s.setPower h { p with hubSlot := p.hubSlot ++ [d.val] })
  else if x.state == .ramping then .next (s.setPower h p)
  else .next s

/-- The ramp of the domain at the head of a slot ends: its restore begins, and the slot ramps the next domain
(R588). -/
def execRampDone (h : Hub) (stackRail : Bool) (s : State) : Out :=
  let p := s.pwr.hubs[h]
  let q := if stackRail then p.stackSlot else p.hubSlot
  match q with
  | [] => .next s
  | d :: rest =>
    let p := p.upd d (fun x => { x with restoring := true })
    let p := match rest with
      | [] => p
      | n :: _ => p.upd n (fun x => { x with state := .ramping })
    .next (s.setPower h (if stackRail then { p with stackSlot := rest } else { p with hubSlot := rest }))

/-- A domain's restore ends: it is ON and its stalled requests go on; a STACK has left self-refresh (R588). -/
def execDomainOn (h : Hub) (d : Fin 10) (s : State) : Out :=
  let p := s.pwr.hubs[h]
  if (p.dom d.val).state == .ramping && (p.dom d.val).restoring then
    let s := s.setPower h (p.upd d.val (fun x =>
      { x with state := .on, restoring := false, stalled := 0, idleSince := some s.tick }))
    .next (if 8 ≤ d.val then
      { s with units := { s.units with selfRefresh := Vector.set s.units.selfRefresh (domainStack h d.val).val false } }
      else s)
  else .next s

/-! ### The mode and the cap -/

/-- PWR_MODE is written; it takes effect at the next pace window (R579, Table 17-9). -/
def State.pwrModeWrite (s : State) (v : BitVec 32) : State :=
  { s with pwr := { s.pwr with mgr := { s.pwr.mgr with mode := v &&& 0x00FF0003 } } }

/-- PWR_CAP is written: WATTS is held to 200 to 850, and takes effect at the next pace window (R597). -/
def State.pwrCapWrite (s : State) (v : BitVec 32) : State :=
  let w := max 200 (min 850 (bitsOf v.toNat 11 0))
  { s with pwr := { s.pwr with mgr := { s.pwr.mgr with cap := (v &&& 0x80000000) ||| BitVec.ofNat 32 w } } }

def execPwrModeWrite (v : BitVec 32) (s : State) : Out := .next (s.pwrModeWrite v)

def execPwrCapWrite (v : BitVec 32) (s : State) : Out := .next (s.pwrCapWrite v)

/-- The cap in W that PWR_CAP holds. -/
def PowerMgr.watts (m : PowerMgr) : Nat := bitsOf m.cap.toNat 11 0

/-! ### The pace window (R572 to R597) -/

/-- A sample's entry, 0 where the list is short. -/
def nth (l : List Nat) (i : Nat) : Nat := l.getD i 0

/-- A hub's guard of R582 holds in a sample: every silicon pace is at least (105/128)(1 + G). -/
def guardHolds (guardBase : Nat) (m : HubSample) : Bool :=
  (List.range 6).all (fun i =>
    105 * 256 * ((256 + guardBase) * m.meanMv + 512 * m.droopMv)
      ≤ (m.silicon.getD i 0).toNat * 128 * 256 * m.meanMv)

/-- The lowest SILICON of a sample, as PACE_SLIP's eight bits hold it. -/
def lowestSilicon (m : HubSample) : Nat := min 255 (m.silicon.foldl (fun a x => min a x.toNat) 65535)

/-- How a hub's mode stands after a window: FREE, PACED or SLIPPING, the clean windows counted, and whether a slip
began (R579, R583). -/
def paceAfter (p : HubPower) (wasPaced paced resume failed : Bool) : BitVec 2 × Nat × Bool :=
  if !paced then (0, 0, false)
  else if !wasPaced then (if failed then (2, 0, true) else (1, 0, false))
  else if p.status == 2 then
    if failed then (2, 0, false)
    else if resume && p.clean + 1 == 5 then (1, 0, false)
    else (2, p.clean + 1, false)
  else if failed then (2, 0, true)
  else (1, 0, false)

/-- The throttled budget A in 1/8 W (R591), from the cap and the measured power of the domains not throttled. -/
def throttledBudget (watts : Nat) (samples : List HubSample) : Int :=
  let n := (samples.map (fun m => ((List.range 10).map (fun d => if isThrottled d then 0 else nth m.power d)).sum)).sum
  (8 * watts : Int) - n - (8 * watts / 50 : Nat)

/-- The base allowance of a throttled domain in 1/8 W, scaled for heat (R591, R596). -/
def baseAllowance (a : Int) (scale d : Nat) : Nat :=
  max (domainIdle d) (((a * domainPeak d / 340).toNat * scale) / 2 ^ 24)

/-- One round of sharing a pool: each taker gets its share by peak, up to what it still wants (R592). -/
def shareRound (pool : Nat) (l : List (Nat × Nat × Nat)) : List (Nat × Nat × Nat) × Nat :=
  let total := (l.map (fun t => if t.2.1 = 0 then 0 else t.1)).sum
  let out := l.map (fun t => let g := min t.2.1 (if total = 0 then 0 else pool * t.1 / total); (t.1, t.2.1 - g, t.2.2 + g))
  (out, pool - ((List.zip l out).map (fun x => x.1.2.1 - x.2.2.1)).sum)

/-- The pool shared in rounds until nothing more can be given. -/
def sharePool : Nat → Nat → List (Nat × Nat × Nat) → List (Nat × Nat × Nat)
  | 0, _, l => l
  | n + 1, pool, l =>
    let (l', rest) := shareRound pool l
    if rest = pool then l' else sharePool n rest l'

/-- The allowances of the next window for all 20 throttled domains (R591, R592, R595): for each hub and domain, base,
allowance and what is lent to it, with the pool lent in all. -/
def allowances (lend : Bool) (a : Int) (samples : List HubSample) (hubs : Vector HubPower 4) :
    List (List (Nat × Nat × Nat)) :=
  let ids := (List.range 4).flatMap (fun h => (List.range 5).map (fun i => (h, i + 1)))
  let hub (h : Nat) : HubPower := hubs[Fin.ofNat 4 h]
  let base (x : Nat × Nat) := baseAllowance a (hub x.1).scale x.2
  let meas (x : Nat × Nat) := nth ((samples.getD x.1 ⟨[], [], 0, 0, [], [], [], [], false, false⟩).power) x.2
  let dem (x : Nat × Nat) := nth ((samples.getD x.1 ⟨[], [], 0, 0, [], [], [], [], false, false⟩).demand) x.2
  let lends (x : Nat × Nat) := lend && (((hub x.1).dom x.2).longWaiting || ((hub x.1).dom x.2).state == .retain)
  let keep (x : Nat × Nat) := if lends x then min (base x) (meas x) else base x
  let pool := (ids.map (fun x => base x - keep x)).sum
  let asks := ids.map (fun x => (domainPeak x.2, (if lends x || !lend then 0 else dem x - base x), 0))
  let got := sharePool 20 pool asks
  (List.range 4).map (fun h => (List.range 5).map (fun i =>
    let x := (h, i + 1)
    let g := (got.getD (h * 5 + i) (0, 0, 0)).2.2
    (base x, keep x + g, g)))

/-- A hub's thermal state after a window (R596, R695): hot, cool, or between. -/
def isHot (p : HubPower) (m : HubSample) : Bool :=
  m.temps.any (fun t => p.throttle ≤ t) || m.stackTemps.any (fun t => 95 ≤ t)

/-- Every sensor 3 °C or more below its throttle threshold. -/
def isCool (p : HubPower) (m : HubSample) : Bool :=
  m.temps.all (fun t => t.toNat + 3 ≤ p.throttle.toNat) && m.stackTemps.all (fun t => t.toNat + 3 ≤ 95)

/-- A sensor at or above its trip threshold (R596, R695). -/
def isTripped (p : HubPower) (m : HubSample) : Bool :=
  m.temps.any (fun t => p.trip ≤ t) || m.stackTemps.any (fun t => 105 ≤ t)

/-- The hottest of a list of readings, and its place. -/
def hottestOf (l : List (BitVec 8)) : BitVec 8 := l.foldl (fun a t => if a < t then t else a) 0

/-- One hub's values latched at the end of a window. -/
def HubPower.latch (p : HubPower) (wasPaced paced : Bool) (mgr : PowerMgr) (m : HubSample)
    (al : List (Nat × Nat × Nat)) : HubPower × Bool :=
  let failed := !guardHolds (bitsOf mgr.mode.toNat 23 16) m || m.shortOfQuanta
  let (st, clean, slip) := paceAfter p wasPaced paced (mgr.mode.getLsbD 1) failed
  let steady := p.status == 1
  let delivered := (List.range 6).map (fun i =>
    if steady then 210#16 else BitVec.ofNat 16 ((m.silicon.getD i 0).toNat * nth m.admitted i / 65536))
  let scale := if isHot p m then p.scale * 7 / 8 else if isCool p m then min (2 ^ 24) (p.scale + 2 ^ 21) else p.scale
  let domains := (p.domains.zipIdx).map (fun x =>
    let d := x.2
    let (b, a, g) := if isThrottled d then al.getD (d - 1) (0, 0, 0) else (x.1.base, x.1.allowance, 0)
    { x.1 with power := nth m.power d, demand := nth m.demand d, base := b, allowance := a, lent := g })
  ({ p with silicon := (List.range 6).map (fun i => m.silicon.getD i 0), delivered := delivered, status := st,
            clean := clean, slips := if slip then sat16 (p.slips + 1) else p.slips,
            slipCap := if slip then guardHolds (bitsOf mgr.mode.toNat 23 16) m else p.slipCap,
            capping := m.throttled, hottest := hottestOf m.temps, hottestStack := hottestOf m.stackTemps,
            scale := scale, thermal := isHot p m || (p.thermal && scale < 2 ^ 24), domains := domains,
            lowSilicon := (List.range 6).map (fun i => let v := (m.silicon.getD i 0).toNat
              if p.windows = 0 then v else min v (nth p.lowSilicon i)),
            lowDelivered := (List.range 6).map (fun i => let v := (delivered.getD i 0).toNat
              if p.windows = 0 then v else min v (nth p.lowDelivered i)),
            sumDelivered := (List.range 6).map (fun i => (delivered.getD i 0).toNat + nth p.sumDelivered i),
            windows := p.windows + 1, periodSlips := p.periodSlips + slip.toNat }, slip)

end Sys2Proof.Machine
end

