-- ==== Sys2Proof/Machine/Quench.lean ====
section
/-!
DEFINITION. Quench and its channels, a lost hub, and the end of pace windows (R536, R572 to R597, R619 to R624).
-/
namespace Sys2Proof.Machine

/-- The number of a quench cause in events and PIN_QUENCH_STATUS (Tables 18-12 and 19-2). -/
def quenchCode : QuenchCause → Nat
  | .pins => 1 | .wiring => 2 | .tbclk => 3 | .thermal => 4 | .supply => 5 | .reset => 6

/-- A change of the quench logic. -/
def State.setQuench (s : State) (q : Quench) : State := { s with start := { s.start with quench := q } }

/-- Every link goes to QUENCHED, leaving its session (R620, R408). -/
def State.linksQuenched (s : State) : State :=
  (List.finRange 32).foldl (fun s l => (s.leaveSession l).linkState l .quenched) s

/-- A quench (R620, R621): links QUENCHED, stacks in self-refresh, ALERT_N, OFF_READY and SPI released, a self-test run
and a shut-down ended (R560, R618), the event on every hub and the notice. -/
def State.quenchNow (s : State) (c : QuenchCause) : State :=
  if s.start.quench.state == 2 then s
  else
    let q := s.start.quench
    let was := s.alertN
    let s := s.setQuench { q with state := 2, cause := BitVec.ofNat 3 (quenchCode c), timerFrom := none, clearReady := false,
                                  wiringFault := q.wiringFault || c == .wiring, highSince := s.tick }
    let pins := { s.start.pins with offReady := true, spiActive := false }
    let s := { s with start := { s.start with pins := pins, shut := .none },
                      units := { s.units with selfRefresh := Vector.replicate 8 true } }
    let b := s.rel.bist
    let s := if b.state == 1 || b.state == 2 then
        { s with rel := { s.rel with bist := { b with state := 3, stopCause := if c == .supply then 3 else 2 } } }
      else s
    let s := s.linksQuenched
    let s := s.alert 0
    let s := if c == .wiring then s.alert 1 else s
    ((s.interrupt was).eventAll (ev 0x0011 3 (quenchCode c))).notice 0x0184 (quenchCode c)

/-- Whether what R622 asks for CLEAR_READY holds: a cause a CLEAR can end, both channels high, after WIRING for
DISC_MS without a break, and after THERMAL every sensor 10 °C below its trip. -/
def State.clearable (s : State) : Bool :=
  let q := s.start.quench
  q.state == 2 && (q.cause == 1 || q.cause == 2 || q.cause == 4) && q.aHigh && q.bHigh
    && (q.cause != 2 || q.discMs.toNat * msTicks ≤ s.tick - q.highSince)
    && (q.cause != 4 || s.pwr.hubs.toList.all (fun p => p.hottest.toNat + 10 ≤ p.trip.toNat
          && p.hottestStack.toNat + 10 ≤ 105))

/-- CLEAR_READY follows R622. -/
def State.refreshClear (s : State) : State :=
  if s.start.quench.state == 2 then s.setQuench { s.start.quench with clearReady := s.clearable } else s

/-- A quench channel changes its filtered level (Table 18-6). -/
def execQuenchChannel (channelB high : Bool) (s : State) : Out :=
  let q := s.start.quench
  let same := if channelB then q.bHigh == high else q.aHigh == high
  if same then .next s
  else
    let other := if channelB then q.aHigh else q.bHigh
    let q := if channelB then { q with bHigh := high, bSince := s.tick } else { q with aHigh := high, aSince := s.tick }
    if s.start.level == Level.off || s.start.level == Level.reset then .next (s.setQuench q)
    else if q.state == 2 then .next ((s.setQuench { q with highSince := s.tick }).refreshClear)
    else if !high then
      if !other then .next ((s.setQuench q).quenchNow .pins)
      else .next (s.setQuench { q with state := 1, timerFrom := some s.tick, timerMs := q.discMs.toNat })
    else if q.state == 1 then
      .next ((s.setQuench { q with state := 0, timerFrom := none, events := sat16 (q.events + 1) }).event 0
        (ev 0x0012 2 channelB.toNat))
    else .next (s.setQuench q)

/-- The discrepancy timer expires while the channels disagree: quench, cause WIRING (Table 18-6). -/
def execDiscrepancyExpiry (s : State) : Out :=
  let q := s.start.quench
  match q.timerFrom with
  | some t =>
    if q.state == 1 && q.aHigh != q.bHigh && t + q.timerMs * msTicks ≤ s.tick then .next (s.quenchNow .wiring)
    else .next s
  | none => .next s

/-- A quench from any cause (R620). -/
def execQuench (c : QuenchCause) (s : State) : Out := .next (s.quenchNow c)

/-- CLEAR_READY is set once R622 holds. -/
def execClearReady (s : State) : Out :=
  if s.clearable then .next (s.setQuench { s.start.quench with clearReady := true }) else .next s

/-- The pins with a function other than NONE start their release excess (R625, R626). -/
def mfReleaseAll (p : Pins) (tick : Nat) : List (Nat × Nat) :=
  ((List.range 12).filter (fun n => bitsOf p.mfSel.toNat (4 * n + 3) (4 * n) ≠ 0)).map (fun n => (n, tick + 313))

/-- PIN_QUENCH_CTRL.CLEAR: it ends the quench while CLEAR_READY is 1, and is refused otherwise (R622, R623). -/
def State.quenchClear (s : State) : State :=
  let q := s.start.quench
  if q.clearReady then
    let s := s.setQuench { q with state := 0, cause := 0, wiringFault := false, clearReady := false }
    let s := { s with units := { s.units with selfRefresh := Vector.replicate 8 false } }
    let p := { s.start.pins with mfReleasing := mfReleaseAll s.start.pins s.tick, offReady := false, spiActive := true }
    let s := { s with start := { s.start with pins := p } }
    s.notice 0x0185 0
  else s.setQuench { q with clearRefused := true }

def execQuenchClear (s : State) : Out := .next s.quenchClear

/-! ### A lost hub (R536, R577) -/

/-- A hub is lost: its rings stop, its stacks, banks and links are OUT or OFF for the others, and ALERT_N is asserted;
its event and CPER record are written (R536, R545). -/
def State.loseHub (s : State) (h : Hub) : State :=
  if s.rel.hubs[h].lost then s
  else
    let s := s.setHealth h { s.rel.hubs[h] with lost := true }
    let rs := s.rg.list.map (fun r => if hubOf r.id = h then { r with state := .stopped } else r)
    let s := { s with rg := { s.rg with list := rs } }
    let sh := Vector.ofFn (fun i : Fin 64 => if i.val / 16 = h.val then UnitState.out else s.units.shade[i])
    let st := Vector.ofFn (fun i : Fin 8 => if i.val / 2 = h.val then UnitState.out else s.units.stack[i])
    let s := { s with units := { s.units with shade := sh, stack := st } }
    let s := (List.finRange 32).foldl (fun s l => if l.val / 8 = h.val then (s.leaveSession l).linkState l .off else s) s
    let s := s.alert 2
    let s := s.event (hubOf (h.val + 1)) (ev 0x0048 3 h.val)
    s.cper 1 11 { hub := h.val, kind := 0, index := 0, sub := 0 } 0x0048 0 0 0 0 0 0

/-- A hub whose PLLs have not locked after 100 µs is held out of service as a lost hub (R577). -/
def execPllLockTimeout (h : Hub) (s : State) : Out :=
  let p := s.pwr.hubs[h]
  .next (((s.setPower h { p with pllLocked := false }).event h (ev 0x0015 3 0)).loseHub h)

/-- TBCLK silent for 1 µs or off by more than 200 ppm: TBCLK_OK clears and the Aedvos quenches (R578). -/
def execTbclkLoss (s : State) : Out :=
  let s := { s with pwr := { s.pwr with hubs := s.pwr.hubs.map (fun p : HubPower => ({ p with tbclkOk := false } : HubPower)) } }
  .next (s.quenchNow .tbclk)

/-- Whether two of the hubs' positions are equal at a place (R681). -/
def duplicated (l : List (BitVec 2)) (i : Nat) : Bool :=
  (List.range l.length).any (fun j => decide (j ≠ i) && l.getD j 0 == l.getD i 0)

/-- Hubs held out after an alignment that failed, with ALIGN_FAIL and the alert (R577, R681). -/
def State.alignFail (s : State) (bad : List Hub) (tries : Nat) : State :=
  let s := s.eventAll (ev 0x0016 3 (tries % 4))
  (bad.foldl State.loseHub s).alert 3

/-- ALIGN (R577 steps 2 to 5, R681): the hubs compare their positions and the tick counts latched at the second
ALIGN. With every count 1,024 the hubs are aligned; a third failure holds out each hub whose count differed. -/
def execAlign (positions : List (BitVec 2)) (latched : List Nat) (s : State) : Out :=
  let dup := (List.finRange 4).filter (fun h => duplicated positions h.val)
  if !dup.isEmpty then
    .next (({ s with start := { s.start with positionsBad := true } }).alignFail dup (s.pwr.alignTries + 1))
  else if !(positions.contains 0) then .next { s with start := { s.start with positionsBad := true } }
  else if latched.length = 4 ∧ latched.all (fun c => c == 1024) then
    let hubs := s.pwr.hubs.map (fun p : HubPower => ({ p with aligned := true, tbclkOk := true } : HubPower))
    .next { s with tick := 1024, start := { s.start with started := s.start.started + 1024 - s.tick },
                   pwr := { s.pwr with alignTries := 0, hubs := hubs } }
  else
    let t := s.pwr.alignTries + 1
    let s := { s with pwr := { s.pwr with alignTries := t } }
    if t < 3 then .next s
    else .next (s.alignFail ((List.finRange 4).filter (fun h => latched.getD h.val 0 != 1024)) t)

/-! ### The end of a pace window -/

/-- An empty sample, for a hub none is given of. -/
def emptySample : HubSample :=
  { silicon := [], admitted := [], droopMv := 0, meanMv := 0, temps := [], stackTemps := [], power := [], demand := [],
    throttled := false, shortOfQuanta := false }

/-- What one hub does at the end of a window: latched values, a slip's event, the thermal event, a trip (R572, R583,
R596). -/
def State.hubWindow (s : State) (samples : List HubSample) (al : List (List (Nat × Nat × Nat)))
    (wasPaced : Bool) (h : Hub) : State :=
  let m := samples.getD h.val emptySample
  let p := s.pwr.hubs[h]
  let (p', slip) := p.latch wasPaced (s.pwr.mgr.mode.getLsbD 0) s.pwr.mgr m (al.getD h.val [])
  let s := s.setPower h p'
  let s := if slip then s.event h (ev 0x0018 1 (p'.slipCap.toNat + lowestSilicon m * 256)) else s
  let s := if p'.thermal && !p.thermal then
      (s.event h (ev 0x001A 1 (p'.hottest.toNat + 256 * ((m.temps.findIdx? (fun t => t == p'.hottest)).getD 0)))).alert 5
    else s
  if isTripped p m then s.quenchNow .thermal else s

/-- The end of a pace window, each 1,250 ticks: the cap and the mode written take effect, every hub's values are
latched and judged, and the power manager computes the next window's allowances (R572, R579, R583, R590 to R597). -/
def execPaceWindowEnd (samples : List HubSample) (s : State) : Out :=
  if s.tick % 1250 ≠ 0 then .next s
  else
    let m := s.pwr.mgr
    let wasPaced := m.modeInForce.getLsbD 0
    let a := throttledBudget m.watts samples
    let excess := decide (a < 668)
    let al := if excess then
        (List.range 4).map (fun _ => (List.range 5).map (fun i => (domainIdle (i + 1), domainIdle (i + 1), 0)))
      else allowances (m.cap.getLsbD 31) a samples s.pwr.hubs
    let total := (samples.map (fun x => x.power.sum)).sum
    let lent := (al.map (fun l => (l.map (fun x => x.2.2)).sum)).sum
    let s := (List.finRange 4).foldl (fun s h => s.hubWindow samples al wasPaced h) s
    let m' : PowerMgr := { m with modeInForce := m.mode, capInForce := m.watts, power := total, lentTotal := lent,
                                  budget := a, windows := m.windows + 1, withdrawn := false }
    let pins := { s.start.pins with paceOut := !s.start.pins.paceOut }
    let s := { s with pwr := { s.pwr with mgr := m' }, start := { s.start with pins := pins } }
    let s := if m.mode.getLsbD 0 != wasPaced then s.eventAll (ev 0x0017 0 (m.mode.getLsbD 0).toNat) else s
    let s := if excess then
        let s := { s with pwr := { s.pwr with hubs := s.pwr.hubs.map (fun p : HubPower => ({ p with overCap := true } : HubPower)) } }
        let w := ofSigned 16 (a / 8)
        ((s.event 0 (ev 0x0019 2 (m.watts + w * 65536))).alert 4).notice 0x0170 0
      else s
    .next s.refreshClear

/-- A lender's wait ends, or it leaves RETAIN: its allowance is its base again, and every grant from the pool is
withdrawn on all hubs (R593). -/
def execBudgetWithdraw (h : Hub) (d : Fin 10) (s : State) : Out :=
  let back (p : HubPower) : HubPower :=
    { p with domains := p.domains.map (fun x => { x with allowance := x.allowance - x.lent, lent := 0 }) }
  let mgr := { s.pwr.mgr with lentTotal := 0, withdrawn := true }
  let s := { s with pwr := { s.pwr with hubs := s.pwr.hubs.map back, mgr := mgr } }
  .next (s.setPower h (s.pwr.hubs[h].upd d.val (fun x => { x with allowance := x.base, longWaiting := false })))

end Sys2Proof.Machine
end

