-- ==== Sys2Proof/Machine/Spares.lean ====
section
/-!
DEFINITION. Units taken out of service: spares, retirement, targeted tests and what the work in hand does (R21, R22,
R203, R268, R270, R378, R379, R461, R488, R530 to R536).
-/
namespace Sys2Proof.Machine

/-! ### Names of units -/

/-- Whether a name is one of the package's parts (Table 15-11, Table 16-2). -/
def knownUnit (u : UnitName) : Bool :=
  decide (u.hub < 4) && (match u.kind with
    | 1 => decide (u.index < 7)
    | 2 => decide (u.index < 13)
    | 3 => decide (u.index < 18)
    | 4 => decide (u.index < 68)
    | 5 => decide (u.index < 16 ∧ u.sub < 2080)
    | 6 => decide (u.index < 16 ∧ u.sub < 16)
    | 7 => decide (u.index < 8 ∧ u.index / 2 = u.hub ∧ u.sub < 32768)
    | 8 => decide (u.index < 8 ∧ u.index / 2 = u.hub ∧ bitsOf u.sub 7 0 < 64 ∧ bitsOf u.sub 11 8 < 9 ∧ u.sub < 4096)
    | 9 => decide (u.index < 8 ∧ u.index / 2 = u.hub)
    | 10 => decide (u.index < 32 ∧ u.index / 8 = u.hub ∧ u.sub < 5)
    | 11 => decide (u.index < 6)
    | 12 => decide (u.index < 16)
    | 14 => decide (u.index = 0)
    | 15 => decide (u.index < 32 ∧ u.index / 8 = u.hub)
    | 16 => decide (u.index < 16)
    | _ => false)

/-- The hub of a name. -/
def unitHub (u : UnitName) : Hub := hubOf u.hub

/-- Spares of a kind left on a hub (Table 15-8). -/
def State.sparesLeft (s : State) (u : UnitName) : Nat :=
  let h := unitHub u
  let x := s.rel.hubs[h]
  match u.kind with
  | 1 => if x.coresRetired.isEmpty then 1 else 0
  | 2 => if x.enginesRetired.isEmpty then 1 else 0
  | 3 => 2 - (s.codec.lanes[h].toList.filter Lane.retired).length
  | 4 => s.mov.hubs[h].spares.length
  | 5 => 32 - (s.rel.repair.rowMap.filter (fun r => r.1 == u.hub * 16 + u.index)).length
  | 6 => if s.rel.repair.sliceUsed.any (fun r => r.1 / 16 == u.hub) then 0 else 1
  | 7 => 0xFFFF
  | 10 => if s.lnk.links[Fin.ofNat 32 u.index].spareState = 0 then 1 else 0
  | _ => 0

/-- The rank of a pack: the newest pack serving a kind (R544). -/
def State.packFor (s : State) (kind : Nat) : Nat × BitVec 32 :=
  match s.fw.packs.foldl (fun (a : Option Pack) p => if p.kinds.getLsbD kind then (match a with
      | some q => if q.order < p.order then some p else a
      | none => some p) else a) none with
  | some p => (p.id.toNat, p.version)
  | none => (0, 0)

/-! ### Engines -/

/-- A hub's engines by place: the spare E12 stands in the place of the engine it replaces, and a place with no engine in
service is left out (R171, R237). -/
def State.chainPlaces (s : State) (h : Hub) : List (Nat × Nat) :=
  let x := s.rel.hubs[h]
  let away (e : Nat) : Bool := decide (e ∈ x.enginesRetired) || x.testing.any (fun t => t.unit.kind == 2 && t.unit.index == e)
  (List.range 12).filterMap (fun p =>
    if away p then (if x.engineSpare = some p && !away 12 then some (p, 12) else none) else some (p, p))

/-- A tile leaves its engine and goes first into the hub's next wave, on another engine (R237, R268); it has its
host-visible SIGNALs to skip (R269). -/
def State.engineTake (s : State) (h : Hub) (e : Nat) : State :=
  let idx := h.val * 13 + e
  match (s.eng.engines.find? (fun x => x.1 == idx)).map Prod.snd with
  | some g => match g.tile with
    | some t =>
      let w : TileWait := { hub := h, tile := t.tile, role := t.role, notOn := [e], skip := max t.signals t.skipSignals }
      let runs := s.eng.runs.map (fun r : Run => if r.id = t.run then ({ r with todo := w :: r.todo } : Run) else r)
      { s with eng := { s.eng with engines := tabIns s.eng.engines idx { g with tile := none }, runs := runs } }
    | none => s
  | none => s

/-- The spare engine takes a place: it takes the engine's counters as they stood at the start of its tile (R270, R461). -/
def State.engineSpareIn (s : State) (h : Hub) (e : Nat) : State :=
  let x := s.rel.hubs[h]
  if x.engineSpare.isNone && e ≠ 12 && 12 ∉ x.enginesRetired then
    let get (i : Nat) : Option Engine := (s.eng.engines.find? (fun y => y.1 == h.val * 13 + i)).map Prod.snd
    let ctrs := match get e with
      | some g => (match g.tile with
        | some t => t.startCtrs
        | none => g.ctrs)
      | none => []
    let spare : Engine := match get 12 with
      | some g => { g with ctrs := ctrs }
      | none => { regs := [], regFlags := [], acc := [], accFlags := [], work := [], workFlags := 0, param := [],
                  panel0 := [], panel1 := [], ctrs := ctrs, tile := none }
    let s := { s with eng := { s.eng with engines := tabIns s.eng.engines (h.val * 13 + 12) spare } }
    s.setHealth h { x with engineSpare := some e, splice := some e }
  else s.setHealth h { x with splice := some e }

/-! ### Other kinds -/

/-- A lane job goes back to the front of the jobs that wait (R203). -/
def State.laneTake (s : State) (h : Hub) (l : Fin 18) (retire : Bool) : State :=
  let ln := s.codec.lanes[h][l]
  let lanes := Vector.set s.codec.lanes h.val (Vector.set s.codec.lanes[h] l.val
    { retired := ln.retired || retire, job := none })
  let jobs := match ln.job with
    | some j => j :: s.codec.jobs
    | none => s.codec.jobs
  { s with codec := { s.codec with lanes := lanes, jobs := jobs } }

/-- The channels a hub's COMPARE of R378 restarts: its counts are cleared and it begins again. -/
def Channel.moved (c : Channel) : Channel :=
  if bitsOf (tabGet 0 c.active 16).toNat 1 0 = 2 then { c with cmpCount := 0, cmpFirst := 0xFFFFFFFFFFFFFFFF#64, done := 0 } else c

/-- A channel's work moves to a spare physical channel, or, with none left, to another channel by firmware (R378,
R379). -/
def State.channelTake (s : State) (h : Hub) (ch : Nat) (retire : Bool) : State :=
  let m := s.mov.hubs[h]
  match m.spares with
  | sp :: rest =>
    let chans := m.chans.map (fun x => if x.1 = ch then (x.1, x.2.moved) else x)
    s.setMovers h { m with spares := if retire then rest else rest ++ [sp], phys := tabIns m.phys ch sp, chans := chans }
  | [] => if retire then s.setMovers h { m with lost := m.lost ++ [ch] } else s

/-- Locks a control core holds become ABANDONED, each with its event (R488). -/
def State.abandonWhere (s : State) (h : Hub) (p : BitVec 8 → Bool) : State :=
  let y := s.syn.hubs[h]
  let hit := y.locks.filter (fun e => match e.2 with
    | .held b => p b
    | _ => false)
  let locks := y.locks.map (fun e => match e.2 with
    | .held b => if p b then (e.1, LockState.abandoned b) else e
    | _ => e)
  let s := s.setSync h { y with locks := locks }
  hit.foldl (fun (s : State) (e : Nat × LockState) => match e.2 with
    | .held b => s.event h (ev 0x0064 1 (e.1 + b.toNat * 256))
    | _ => s) s

/-- Locks on every hub abandoned by a test of the holder. -/
def State.abandonAll (s : State) (p : BitVec 8 → Bool) : State :=
  (List.finRange 4).foldl (fun s h => s.abandonWhere h p) s

/-- The identity of a control core (chapter 13). -/
def coreIdentity (h : Hub) (c : Nat) : BitVec 8 := BitVec.ofNat 8 (h.val * 8 + c % 8)

/-- The core a role falls to when its own and the spare are gone: its partner, else the lowest-numbered survivor
(R535). -/
def roleHeir (retired : List Nat) (role : Nat) : Nat :=
  let partner := if role % 2 = 0 then role + 1 else role - 1
  if partner ∉ retired then partner else ((List.range 6).find? (fun c => c ∉ retired)).getD 0

/-- A control core is retired: its locks are ABANDONED; the spare takes the first one's role, a second makes the hub
DEGRADED with a notice, and a hub with fewer than 4 working cores is lost (R22, R488, R535, R536). -/
def State.retireCore (s : State) (h : Hub) (c : Nat) : State :=
  let x := s.rel.hubs[h]
  if c ∈ x.coresRetired then s
  else
    let retired := x.coresRetired ++ [c]
    let s := s.abandonAll (fun b => b == coreIdentity h c)
    if x.coresRetired.isEmpty then
      s.setHealth h { x with coresRetired := retired, roles := x.roles ++ [(c, 6)] }
    else
      let role := if c = 6 then (x.coresRetired.headD 0) else c
      let roles := x.roles.filter (fun r => r.1 ≠ role) ++ [(role, roleHeir retired role)]
      let s := s.setHealth h { x with coresRetired := retired, roles := roles, degraded := true }
      let s := if x.degraded then s else s.notice 0x0150 h.val
      if 7 - retired.length < 4 then s.loseHub h else s

/-! ### Retirement and substitution (R533, R534) -/

/-- A substitution is recorded: one event and one CPER record (R534, R545). -/
def State.substituted (s : State) (u : UnitName) (left : Bool) : State :=
  let n := s.sparesLeft u
  (s.event (unitHub u) (evU 0x0046 3 u.kind u.index n)).cper 3 8 u 0x0046 0 (if left then 3 else 4) 0 0 n 0

/-- A unit is named retired in the history store, with its event and CPER record (R533, R545). -/
def State.recordRetired (s : State) (u : UnitName) : State :=
  let rep := s.rel.repair
  let s := { s with rel := { s.rel with repair := { rep with retired := if u ∈ rep.retired then rep.retired
                                                                        else rep.retired ++ [u] } } }
  let s := s.journal 2 (unitCode u) u.hub [] (leBytes 1 u.hub ++ leBytes 1 u.kind ++ leBytes 2 u.index ++ leBytes 4 u.sub)
  (s.event (unitHub u) (evU 0x0047 3 u.kind u.index u.sub)).cper 3 9 u 0x0047 0 2 0 0 (s.sparesLeft u) 0

/-- An engine is retired: its tile starts again elsewhere, and the spare stands in its place (R268, R270, R461). -/
def State.retireEngine (s : State) (h : Hub) (e : Nat) : State :=
  let x := s.rel.hubs[h]
  if e ∈ x.enginesRetired then s
  else
    let u : UnitName := { hub := h.val, kind := 2, index := e, sub := 0 }
    let had := x.enginesRetired.isEmpty && e ≠ 12
    let s := s.engineSpareIn h e
    let s := s.engineTake h e
    let x := s.rel.hubs[h]
    let s := s.setHealth h { x with enginesRetired := x.enginesRetired ++ [e]
                                    due := x.due.filter (fun d => !(d.unit.kind == 2 && d.unit.index == e)) }
    (s.recordRetired u).substituted u had

/-- A codec lane is retired: its job starts again on another lane (R203). -/
def State.retireLane (s : State) (h : Hub) (l : Fin 18) : State :=
  if s.codec.lanes[h][l].retired then s
  else
    let u : UnitName := { hub := h.val, kind := 3, index := l.val, sub := 0 }
    let had := decide (0 < s.sparesLeft u)
    ((s.laneTake h l true).recordRetired u).substituted u had

/-- A mover channel is retired (R378, R379). -/
def State.retireChannel (s : State) (h : Hub) (ch : Nat) : State :=
  let u : UnitName := { hub := h.val, kind := 4, index := ch, sub := 0 }
  if u ∈ s.rel.repair.retired && ch ∈ s.mov.hubs[h].lost then s
  else
    let had := !s.mov.hubs[h].spares.isEmpty
    ((s.channelTake h ch true).recordRetired u).substituted u had

/-! ### Targeted tests (R530) -/

/-- A unit is quiesced and isolated: its work moves to its spare or a sibling (R530 step 1, R565 to R567). -/
def State.quiesce (s : State) (u : UnitName) : State :=
  let h := unitHub u
  match u.kind with
  | 1 => s.abandonAll (fun b => b == coreIdentity h u.index)
  | 2 => (s.engineSpareIn h u.index).engineTake h u.index
  | 3 => s.laneTake h (Fin.ofNat 18 u.index) false
  | 4 => s.channelTake h u.index false
  | _ => s

/-- A finding against a unit is kept for the decision of R531; it is in the history store when that can be read (R530
to R532). -/
def State.finding (s : State) (u : UnitName) (cls : Nat) : State :=
  let f : Finding := { unit := u, cls := cls, tick := s.tick, stored := s.evt.store.ready }
  { s with rel := { s.rel with findings := s.rel.findings ++ [f] } }

/-- A unit goes to a targeted self-test: the finding is kept, the unit is quiesced and isolated, and the test runs under
the newest pack of its kind (R530, R544); a unit waiting for its in-field test waits no longer (R569). -/
def State.sendTest (s : State) (u : UnitName) (cls : Nat) : State :=
  let h := unitHub u
  let s := s.finding u cls
  if u ∈ s.rel.repair.retired || s.rel.hubs[h].testing.any (fun t => t.unit == u) then s
  else
    let s := s.quiesce u
    let (id, v) := s.packFor u.kind
    let x := s.rel.hubs[h]
    let t : UnderTest := { unit := u, field := false, since := s.tick, pack := id, packVersion := v, cls := cls }
    s.setHealth h { x with testing := x.testing ++ [t], due := x.due.filter (fun d => d.unit != u) }

end Sys2Proof.Machine
end

