-- ==== Sys2Proof/Machine/Runs.lean ====
section
/-!
DEFINITION. Recipe runs: binding, inputs, the hub of each tile, waves, tiles that stand, and how a run ends (chapters 02
and 07).
-/
namespace Sys2Proof.Machine

/-! ### Recipes (Tables 7-3 to 7-5) -/

/-- Op 0 of a recipe, its CONFIG. -/
def cfgOf (ops : List (BitVec 256)) : OpRec := opFields (ops.headD 0)

/-- TILE_ROWS (Table 7-4). -/
def tileRows (ops : List (BitVec 256)) : Nat := max 1 (bitsOf (cfgOf ops).imm0 8 0)

/-- The mode of input `i` (Table 7-5). -/
def inMode (ops : List (BitVec 256)) (i : Nat) : Nat := bitsOf (cfgOf ops).imm1 (3 * i + 2) (3 * i)

/-- The stream of a STREAM input. -/
def inStream (ops : List (BitVec 256)) (i : Nat) : Nat := bitsOf (cfgOf ops).imm2 (6 * i + 5) (6 * i)

/-- Whether an accumulator set holds exact entries. -/
def setExact (ops : List (BitVec 256)) (acc : Nat) : Bool := bitOf (cfgOf ops).mode acc

/-- Ops that name a port. -/
def usesPort (o : OpRec) : Bool :=
  o.opcode = 0x08 || o.opcode = 0x09 || o.opcode = 0x0C || o.opcode = 0x0D || o.opcode = 0x28 || o.opcode = 0x30

/-- Whether a recipe draws random numbers (R251). -/
def drawsKey (ops : List (BitVec 256)) : Bool := ops.any (fun w => let o := opFields w; o.opcode = 0x34 || o.opcode = 0x36)

/-- The binding of R255: `ins` and `outs` hold the shape each port has, none where the list holds the null handle (a
STREAM input's shape is its layer's source's). -/
def bindOk (ops : List (BitVec 256)) (nIn nOut : Nat) (nulls : List Bool) (ins outs : List (Option Shape)) (alone : Bool) :
    Bool :=
  let r := ((outs.headD none).map Shape.rows).getD 0
  let inShape (i : Nat) : Option Shape := (ins[i]?).join
  let outShape (i : Nat) : Option Shape := (outs[i]?).join
  let lists := (List.range 8).all (fun i =>
      if i < nIn then (if inMode ops i = 4 then nulls.getD i true else !nulls.getD i true) else nulls.getD i true)
    && (alone || (List.range 4).all (fun i => if i < nOut then (outShape i).isSome else (outShape i).isNone))
    && (outShape 0).isSome
  let fmts := ops.all (fun w =>
    let o := opFields w
    if usesPort o then
      (match (if o.port < 8 then inShape o.port else outShape (o.port - 8)) with
        | some x => x.format == o.fmt
        | none => alone && decide (8 < o.port))
    else true)
  let rows := (List.range nIn).all (fun i => inMode ops i != 1 || (inShape i).map Shape.rows == some r)
    && outs.all (fun x => match x with
      | some x => x.rows == r
      | none => true)
  let whole := ((List.range nIn).map (fun i => if inMode ops i = 2 then ((inShape i).map Shape.size).getD 0 else 0)).sum
  let pool := ops.all (fun w =>
    let o := opFields w
    if o.opcode = 0x28 then
      (match inShape (bitsOf o.imm1 3 0) with
        | some x => elemBits x.format == 32 && x.rowLen == 1 && x.rows == r + 1
        | none => false)
    else true)
  lists && fmts && rows && decide (whole ≤ 65536) && pool

/-! ### Inputs of a run -/

/-- The bytes of a row of a shape. -/
def Shape.rowSize (x : Shape) : Nat := (rowBytes x.format x.rowLen).getD (x.size / max 1 x.rows)

/-- A handle as an input of a run: its bytes as they are now, or not ready where it must first be regenerated (R78). -/
def State.snapInput (s : State) (mode : Nat) (h : Handle) : RunInput :=
  let lazy_ := h.fate == Fate.recompute
  { mode := mode, format := h.shape.format, rows := h.shape.rows, rowLen := h.shape.rowLen, size := h.shape.size,
    data := if lazy_ then [] else s.objectRange h 0 h.shape.size, poison := if lazy_ then [] else s.objectPoison h,
    hubs := (List.range (stripeCount h.shape.size)).map (fun k => (h.stripeHub k).val), handle := some h.key,
    ready := !lazy_ }

/-- A port with nothing on it. -/
def noInput : RunInput :=
  { mode := 0, format := 0, rows := 0, rowLen := 0, size := 0, data := [], poison := [], hubs := [], handle := none,
    ready := true }

/-- The row bytes of an input. -/
def RunInput.rowSize (x : RunInput) : Nat := (rowBytes x.format x.rowLen).getD (x.size / max 1 x.rows)

/-- The row bytes of an output. -/
def RunOutput.rowSize (x : RunOutput) : Nat := (rowBytes x.format x.rowLen).getD 0

/-- An offset of a GATHER offsets input. -/
def RunInput.offsetAt (x : RunInput) (i : Nat) : Nat := if i < x.rows then bytesNat x.data (4 * i) 4 else 0

/-- The bytes of `[lo, hi)` of an input that each hub holds. -/
def RunInput.share (x : RunInput) (lo hi : Nat) : List Nat :=
  (List.range 4).map (fun h => ((x.hubs.zipIdx).map (fun e =>
    if e.1 = h then min hi ((e.2 + 1) * 2097152) - max lo (e.2 * 2097152) else 0)).sum)

/-- The rows of an input that a tile reads and R236 counts. -/
def countedRows (ops : List (BitVec 256)) (ins : List RunInput) (r tile i : Nat) : Nat × Nat :=
  let t := tileRows ops
  let lo := tile * t
  let hi := min r ((tile + 1) * t)
  if inMode ops i = 1 then (lo, hi)
  else if inMode ops i = 5 then
    let pools := (ops.map opFields).filter (fun o => o.opcode = 0x28)
    if pools.any (fun o => bitsOf o.imm1 3 0 == i) then (lo, hi + 1)
    else match pools.find? (fun o => o.port == i) with
      | some o => let x := ins.getD (bitsOf o.imm1 3 0) noInput; (x.offsetAt lo, x.offsetAt hi)
      | none => (0, 0)
  else (0, 0)

/-- The hub a tile runs on (R30, R236). -/
def State.tileHub (s : State) (ops : List (BitVec 256)) (ins : List RunInput) (r tile : Nat) : Hub :=
  let shares := (List.range ins.length).map (fun i =>
    let x := ins.getD i noInput
    let (lo, hi) := countedRows ops ins r tile i
    x.share (lo * x.rowSize) (hi * x.rowSize))
  let tot (h : Nat) : Nat := (shares.map (fun l => l.getD h 0)).sum
  let best := (List.range 4).foldl (fun b h => if tot b < tot h then h else b) 0
  let want := if tot best = 0 then tile % 4 else best
  match ((List.range 4).map (fun i => hubOf (want + i))).find? (fun h => !s.rel.hubs[h].lost) with
  | some h => h
  | none => hubOf want

/-! ### Starting a run -/

/-- The rows of a run (R235). -/
def Run.rows (r : Run) : Nat := ((r.outputs.head?).map RunOutput.rows).getD 0

/-- The handles named as inputs gain or lose a reader. -/
def State.addReaders (s : State) (r : Run) (n : Int) : State :=
  { s with hs := { s.hs with list := s.hs.list.map (fun h : Handle =>
      ({ h with readers := ((h.readers : Int) + n * r.reads h.key).toNat } : Handle)) } }

/-- The bytes a restore delivers: a LENGTH of 0 ends at the object's end (Table 9-8). -/
def WaitingRestore.len (w : WaitingRestore) (size : Nat) : Nat := if w.length = 0 then size - w.offset else w.length

/-- The tiles a run makes: all, or those whose rows cover the range it restores (R260). -/
def Run.wanted (r : Run) : List Nat :=
  let all := List.range r.tiles
  match r.kind, r.restore, r.outputs.find? (fun o => some o.key == r.target) with
  | .regenerate, some w, some o =>
    let rs := max 1 o.rowSize
    let lo := w.offset / rs / tileRows r.ops
    let hi := (w.offset + max 1 (w.len (o.rows * o.rowSize)) - 1) / rs / tileRows r.ops
    all.filter (fun t => lo ≤ t && t ≤ hi)
  | _, _, _ => all

/-- A run whose inputs are all ready has its tiles put on their hubs (R236). -/
def State.layTiles (s : State) (r : Run) : Run :=
  { r with todo := r.wanted.map (fun t =>
      { hub := s.tileHub r.ops r.inputs r.rows t, tile := t, role := TileRole.first, notOn := [], skip := 0 }) }

/-- A run replaced. -/
def State.setRun (s : State) (r : Run) : State :=
  { s with eng := { s.eng with runs := s.eng.runs.map (fun x : Run => if x.id = r.id then r else x) } }

/-- A run. -/
def State.run? (s : State) (id : Nat) : Option Run := s.eng.runs.find? (fun r : Run => r.id == id)

/-- A run joins those accepted, and reads its inputs. -/
def State.addRun (s : State) (r : Run) : State :=
  let r := { r with id := s.eng.nextRun }
  let r := if r.inputs.all RunInput.ready then s.layTiles r else r
  let s := s.addReaders r 1
  { s with eng := { s.eng with runs := s.eng.runs ++ [r], nextRun := s.eng.nextRun + 1 } }

/-- The output of a run that makes a handle again. -/
def Handle.asOutput (h : Handle) (dest : Nat) : RunOutput :=
  { key := h.key, gen := h.gen, format := h.shape.format, rows := h.shape.rows, rowLen := h.shape.rowLen, dest := dest,
    data := [], poison := [], flags := Flags3.none }

/-- The outputs of a run that makes output `idx` alone: the others are absent, but O0's rows count (R82, R260). -/
def soleOutputs (idx : Nat) (o : RunOutput) : List RunOutput :=
  (List.replicate idx { o with key := { ctx := o.key.ctx, obj := 0 } }) ++ [o]

/-- The depth of regenerations a handle heads (R78): 1 when all its inputs are at hand. -/
def State.chainDepth (s : State) : Nat → Handle → Nat
  | 0, _ => 0
  | n + 1, h => match h.recipe with
    | some r => 1 + (r.inputs.map (fun i => match s.handle? (wordKey i.handle.toNat) with
        | some x => if x.fate == Fate.recompute then s.chainDepth n x else 0
        | none => 0)).foldl max 0
    | none => 0

/-- A regeneration of a RECOMPUTE handle, with runs for those of its inputs that must be made first (R78, R81). Answers
the first failing check: INPUT_CHANGED, TIER_FAULT or RECIPE_BIND. -/
def State.regenerate : Nat → State → Handle → RunKind → Option Ticket → Nat → Option WaitingRestore →
    Except (BitVec 8) State
  | 0, s, _, _, _, _, _ => .ok s
  | n + 1, s, h, kind, ticket, prio, w =>
    match h.recipe with
    | none => .error 0x26
    | some rec_ =>
      let hs := rec_.inputs.map (fun i => if i.handle = 0 then none else s.handle? (wordKey i.handle.toNat))
      let changed := (rec_.inputs.zip hs).any (fun x => match x.2 with
        | some y => y.perms.mutable && y.updates != x.1.updates
        | none => false)
      let gone := (rec_.inputs.zip hs).any (fun x => x.1.handle != 0 && x.2.isNone)
      let far := hs.any (fun x => match x with
        | some y => y.fate.stored && !(List.range y.homes.length).all (fun k => s.stripeReadable y k)
        | none => false)
      if changed then .error 0x1B
      else if gone then .error 0x26
      else if far then .error 0x22
      else
        let ins := hs.zipIdx.map (fun x => match x.1 with
          | some y => s.snapInput (if inMode rec_.ops x.2 = 4 then 3 else inMode rec_.ops x.2) y
          | none => noInput)
        let r : Run :=
          { id := 0, kind := kind, ticket := ticket, ctx := h.key.ctx, prio := prio, number := rec_.number, ops := rec_.ops,
            key0 := rec_.key0, key1 := rec_.key1, inputs := ins, outputs := soleOutputs rec_.outIdx (h.asOutput 0),
            tiles := rec_.tiles, tolerant := h.perms.tolerant, todo := [], standing := [], dups := [], disagreed := 0,
            sampled := 0, status := 0, restore := w, target := some h.key }
        let id := s.eng.nextRun
        let s := s.addRun r
        let s := match s.handle? h.key with
          | some x => s.setHandle { x with state := if x.state == HState.latent then .regenerating else x.state }
          | none => s
        (hs.zipIdx).foldl (fun (a : Except (BitVec 8) State) x => match a, x.1 with
          | .ok s, some y =>
            if y.fate == Fate.recompute then s.regenerate n y (.input id x.2) none prio none else .ok s
          | a, _ => a) (.ok s)

/-! ### Waves (R237 to R239, R256, R264) -/

/-- An engine of a hub, as it is after reset where nothing is listed. -/
def State.engine (s : State) (h : Hub) (e : Nat) : Engine :=
  match (s.eng.engines.find? (fun x => x.1 == h.val * 13 + e)).map Prod.snd with
  | some g => g
  | none => { regs := [], regFlags := [], acc := [], accFlags := [], work := [], workFlags := 0, param := [], panel0 := [],
              panel1 := [], ctrs := [], tile := none }

/-- An engine replaced. -/
def State.setEngine (s : State) (h : Hub) (e : Nat) (g : Engine) : State :=
  { s with eng := { s.eng with engines := tabIns s.eng.engines (h.val * 13 + e) g } }

/-- The WHOLE inputs laid end to end in input order, as every engine's parameter area holds them (R256). -/
def Run.params (r : Run) : Tab Byte :=
  (r.inputs.foldl (fun (a : Tab Byte × Nat) i =>
    if i.mode = 2 then (tabPaste a.1 a.2 i.size i.data, a.2 + i.size) else a) ([], 0)).1

/-- The digest of each tile that a run's handle records, where it has them (R76, R82). -/
def State.knownTiles (s : State) (r : Run) : Option (List (BitVec 64)) :=
  match r.kind with
  | .produce | .reduce => none
  | _ => match r.target.bind s.handle? with
    | some h => if h.marks.tilesKnown then some h.marks.tiles else none
    | none => none

/-- Whether a tile starting on an engine is sampled for duplicate execution (R262, R263). -/
def State.samples (s : State) (h : Hub) (e : Nat) (r : Run) (tile : Nat) : Bool :=
  let word := match r.outputs.head? with
    | some o => handleWord o.key o.gen
    | none => 0
  let crc := (crc32c (leBytes 8 word ++ leBytes 4 tile)).toNat
  ((s.knownTiles r).isNone && crc % 2 ^ s.regs.dupRate.toNat == 0)
    || s.rel.hubs[h].due.any (fun d : Due => d.unit.kind == 2 && d.unit.index == e)

/-- A tile starts on an engine: everything of it is cleared but its counters (R233). -/
def State.startTile (s : State) (h : Hub) (e : Nat) (r : Run) (w : TileWait) : State :=
  let g := (s.engine h e).clear
  let t : TileRun :=
    { run := r.id, tile := w.tile, role := w.role, wave := s.eng.waves[h], pc := 0, loops := [],
      outs := r.outputs.map (fun _ => []), outFlags := r.outputs.map (fun _ => Flags3.none), checkWords := 0, check := 0,
      signals := 0, skipSignals := w.skip, poisoned := false, waiting := none,
      sampled := w.role == TileRole.first && s.samples h e r w.tile, startCtrs := g.ctrs }
  s.setEngine h e { g with tile := some t, param := r.params }

/-- A tile that waits, of a hub, that goes first: restarted, duplicated or rerun (R237, R239). -/
def TileWait.special (w : TileWait) : Bool := w.role != TileRole.first || !w.notOn.isEmpty

/-- The tiles that wait for a hub's wave, in the order it takes them (R237, R239). -/
def State.waveOrder (s : State) (h : Hub) : List (Run × TileWait) :=
  let mine := s.eng.runs.flatMap (fun r : Run => (r.todo.filter (fun w : TileWait => w.hub == h)).map (fun w => (r, w)))
  let first := mine.filter (fun x => x.2.special)
  let rest := mine.filter (fun x => !x.2.special)
  let prios := (List.range 8).reverse
  first ++ prios.flatMap (fun p => s.eng.runs.flatMap (fun r : Run =>
    if r.prio = p then (rest.filter (fun x => x.1.id == r.id)).mergeSort (fun a b => decide (a.2.tile ≤ b.2.tile)) else []))

/-- A list rotated to begin after the first element that passes `p`. -/
def rotateAfter (l : List (Nat × Nat)) (p : Nat) : List (Nat × Nat) :=
  l.filter (fun x => p < x.1) ++ l.filter (fun x => x.1 ≤ p)

/-- The place an engine counts at: the spare counts at the place of the engine it replaced (R264). -/
def State.placeOf (s : State) (h : Hub) (e : Nat) : Nat := if e = 12 then s.rel.hubs[h].engineSpare.getD 12 else e

/-- One tile given to an engine of those free: a special tile to the first after the engine it may not run on that ran
none of its runs, any other to the next in turn (R238, R264). -/
def State.pickEngine (s : State) (h : Hub) (free : List (Nat × Nat)) (turn : Nat) (w : TileWait) : Option (Nat × Nat) :=
  match w.notOn with
  | [] => (rotateAfter free turn).head?
  | l => (rotateAfter free (s.placeOf h (l.getLastD 0))).find? (fun x => x.2 ∉ l)

/-- The wave's tiles given out one by one. -/
def State.deal (s : State) (h : Hub) : List (Run × TileWait) → List (Nat × Nat) → Nat → Option Nat → State × Option Nat
  | [], _, _, f => (s, f)
  | (r, w) :: rest, free, turn, f =>
    match s.pickEngine h free turn w with
    | some (p, e) =>
      let s := s.startTile h e r w
      let s := match s.run? r.id with
        | some x => s.setRun { x with todo := x.todo.filter (fun y => y ≠ w) }
        | none => s
      s.deal h rest (free.filter (fun x => x.1 ≠ p)) (if w.special then turn else p) (f.or (some p))
    | none => s.deal h rest free turn f

/-- WAVE_START: a hub starts a wave of its waiting tiles on its free engines (R233, R237 to R239, R256). -/
def execWaveStart (h : Hub) (s : State) : Out :=
  let stalled := s.start.quench.state == 2 || s.rel.hubs[h].lost
  let free := (s.chainPlaces h).filter (fun x => (s.engine h x.2).tile.isNone)
  let order := s.waveOrder h
  if stalled || free.isEmpty || order.isEmpty then .next s
  else
    let (s, first) := s.deal h order free s.eng.lastFirst[h] none
    let lf := match first with
      | some p => Vector.set s.eng.lastFirst h.val p
      | none => s.eng.lastFirst
    .next { s with eng := { s.eng with lastFirst := lf, waves := Vector.set s.eng.waves h.val (s.eng.waves[h] + 1) } }

end Sys2Proof.Machine
end

