-- ==== Sys2Proof/Machine/Restores.lean ====
section
/-!
DEFINITION. Restores: how one starts on a handle, and how it ends, alone or in a batch (chapters 02, 03 and 09).
-/
namespace Sys2Proof.Machine

/-! ### Ends -/

/-- A fence wait of kind 2 names its batch restore so: the context in SSEQ, batch and place in RESULT. -/
def batchMark (ctx b i : Nat) : BitVec 64 := BitVec.ofNat 64 ((ctx * 4096 + b) * 4096 + i)

/-- A restore ends: its completion, or its place in its batch, comes once its data is visible; a release on SUCCESS
frees the handle (R31, R87, R111). -/
def State.restoreEnded (s : State) (k : HKey) (w : WaitingRestore) (ports : List Hub) (d : Done) : State :=
  let d := if d.status = 0 then d else { d with result := 0 }
  let s := match w.batch with
    | none => s.completeVia w.ticket ports d
    | some (b, i) =>
      if ports.all (fun h => h == hubOf w.ticket.ring) then s.batchEnded w.ringCtx b i d.status
      else
        s.behind ports { ticket := w.ticket, status := d.status, flags := d.flags, kind := 2,
                         result := batchMark w.ringCtx b i, xbytes := [], fences := [], writes := [] }
  if d.status = 0 && w.release then
    match s.handle? k with
    | some h => if h.state == HState.freeing then s else s.freeHandle h
    | none => s
  else s

/-! ### Starts -/

/-- Whether the tiers that hold a handle have come into service: Umbra and the links come after RING (R315). -/
def State.tiersUp (s : State) (h : Handle) : Bool :=
  h.homes.all (fun x => (x.unit.tier ≠ 3 || s.start.umbra) && (x.unit.tier ≠ 4 || s.start.links))

/-- A restore's bytes are delivered from the home (R85 to R88), and it ends; `retries` blocks were expanded twice. -/
def State.deliverRestore (s : State) (h : Handle) (w : WaitingRestore) (retries : Nat) : State :=
  let (s, d) := s.deliver h w.offset (w.len h.shape.size) w.dest w.glint
  s.restoreEnded h.key w d.ports
    { status := d.status, flags := h.marks.bits, result := d.digest
      xbytes := restoreBytes (lowestPoison w.offset d.poison) d.poison.length 0 0 0 retries }

/-- The stripes a restore reads. -/
def WaitingRestore.stripes (w : WaitingRestore) (size : Nat) : List Nat :=
  let k0 := w.offset / 2097152
  (List.range ((w.offset + w.len size + 2097151) / 2097152 - k0)).map (fun i => k0 + i)

/-- Whether lanes expand a restore's blocks before they leave: those of a PRESS or NARROW home delivered raw (R197,
R226). -/
def State.expandsOnLanes (s : State) (h : Handle) (w : WaitingRestore) : Bool :=
  (h.fate == Fate.press || h.fate == Fate.narrow) && !w.glint
    && (w.stripes h.shape.size).all (fun k => s.stripeReadable h k)

/-- A restore's lane jobs join those that wait; the handle has one reader more until the last is done (R57, R201). -/
def State.laneRestore (s : State) (h : Handle) (w : WaitingRestore) : State :=
  let (id, s) := s.nextLaneRequest
  let stop := w.offset + w.len h.shape.size
  let jobs := (w.stripes h.shape.size).flatMap (fun k =>
    expandJobs h.key k ((max w.offset (k * 2097152) - k * 2097152) / 4096)
      ((min stop ((k + 1) * 2097152) - k * 2097152 - 1) / 4096) (h.stripeHub k) w.prio id true)
  let q : LaneRequest := { id := id, key := h.key, restore := w, retries := 0 }
  let s := (s.addJobs jobs).setHandle { h with readers := h.readers + 1 }
  { s with codec := { s.codec with requests := s.codec.requests ++ [q] } }

/-- A restore runs on a handle that is not FILLING: a RECOMPUTE handle is regenerated, any other is delivered (R78,
R85 to R88). -/
def State.startRestore (s : State) (h : Handle) (w : WaitingRestore) : State :=
  if h.fate == Fate.recompute then
    match s.regenerate 5 h .regenerate (some w.ticket) w.prio (some w) with
    | .ok s => s
    | .error e => s.restoreEnded h.key w [] { status := e, flags := h.marks.bits, xbytes := restoreBytes none 0 0 0 0 0 }
  else if s.expandsOnLanes h w then s.laneRestore h w
  else s.deliverRestore h w 0

/-- The restores that waited for a handle run, in the order they came (R59, R61). -/
def State.runWaiting (s : State) (k : HKey) : State :=
  match s.handle? k with
  | some h =>
    let s := s.setHandle { h with waiting := [] }
    h.waiting.foldl (fun (s : State) (w : WaitingRestore) => match s.handle? k with
      | some x => s.startRestore x w
      | none => s) s
  | none => s

/-! ### Fills that end well (Table 2-7, R76, R222 to R232, R293, R294) -/

/-- The content of a handle as received, with its digest and flags; `own` holds the flags of the Aedvos's own
operations, and received data sets NF alone (R293). -/
def Handle.received (h : Handle) (c : Tab Byte) (poison : List Nat) (own : Flags3) (fromHost : Bool) : Handle :=
  let d := tensorDigest c h.shape.size
  let nf := own.nf || (fromHost && anyNonFinite c h.shape.format h.shape.rows h.shape.rowLen)
  { h with content := if h.fate.stored then c else []
           marks := { h.marks with digest := d, received := d, ovf := own.ovf, ufz := own.ufz, nf := nf, poison := poison } }

/-- A handle whose fill is whole becomes RESIDENT, or LATENT with its inputs pinned; a NARROW one takes its narrow form
first (Table 2-7, R220 to R232). -/
def State.settleFill (s : State) (h : Handle) : State :=
  let (s, h) := if h.fate == Fate.narrow then
      let (s, h) := s.narrowFill h
      (s, { h with marks := { h.marks with digest := tensorDigest h.content h.shape.size } })
    else (s, h)
  s.setHandle { h with state := if h.fate == Fate.recompute then .latent else .resident, fill := none }

/-- What the completion of a fill says (Tables 9-13 and 9-14). -/
def Handle.fillDone (h : Handle) (digests : List (BitVec 64)) (status : BitVec 8) (sampled disagreed : Nat) : Done :=
  { status := status, flags := h.marks.bits
    result := if status ≠ 0 then 0 else if h.fate == Fate.narrow then h.narrowResult else h.marks.digest
    xbytes := h.resultBytes digests sampled disagreed }

/-- A handle filled by an OFFLOAD of its own ends its fill: the command completes, POISONED where its source held poison,
and restores that waited run (R59, R198). -/
def State.endFill (s : State) (h : Handle) (f : Fill) : State :=
  let s := s.settleFill h
  match s.handle? h.key with
  | some x =>
    let st : BitVec 8 := if x.marks.poison.isEmpty then 0 else 0x20
    (s.complete f.ticket (x.fillDone [x.marks.digest] st 0 0)).runWaiting h.key
  | none => s

end Sys2Proof.Machine
end

