-- ==== Sys2Proof/Machine/RunOps.lean ====
section
/-!
DEFINITION. The 43 recipe ops as commands: each runs the op its engine's tile has come to (Table 7-7), on the engine's
own state, the run's inputs and the tile's outputs.
-/
namespace Sys2Proof.Machine

/-! ### The tile an engine runs -/

/-- What an op sees of its tile. -/
structure OpCtx where
  tile : TileRun
  run : Run
  op : OpRec

/-- Rows per tile of the run (Table 7-4). -/
def OpCtx.tileRows (c : OpCtx) : Nat := Sys2Proof.Machine.tileRows c.run.ops

/-- The tile's first row (R235). -/
def OpCtx.first (c : OpCtx) : Nat := c.tile.tile * c.tileRows

/-- The tile's rows: the last tile may be partial (R235). -/
def OpCtx.rows (c : OpCtx) : Nat := min c.run.rows (c.first + c.tileRows) - c.first

/-- The current row: the counter of the innermost LOOP, 0 outside every loop (R243). -/
def OpCtx.row (c : OpCtx) : Nat := match c.tile.loops with
  | f :: _ => f.counter
  | [] => 0

/-- The global row g (R243). -/
def OpCtx.g (c : OpCtx) : Nat := c.first + c.row

/-- What the op's draws come from (R246, R252). -/
def OpCtx.draws (c : OpCtx) : DrawCtx :=
  { key0 := c.run.key0, key1 := c.run.key1, opIndex := c.tile.pc, globalRow := c.g }

/-- The row length of O0, the L of R252. -/
def OpCtx.rowLen (c : OpCtx) : Nat := ((c.run.outputs.head?).map RunOutput.rowLen).getD 0

/-- Whether the op's accumulator set holds exact entries (Table 7-4). -/
def OpCtx.exact (c : OpCtx) : Bool := setExact c.run.ops c.op.acc

/-- Where a tile goes after an op: to the next one, around its loops (Table 7-7). -/
def loopBack : List LoopFrame → Nat → List LoopFrame × Nat
  | [], pc => ([], pc)
  | f :: fs, pc =>
    if pc = f.start + f.len then
      if f.counter + 1 < f.count then ({ f with counter := f.counter + 1 } :: fs, f.start) else loopBack fs pc
    else (f :: fs, pc)

/-- The tile after its op. -/
def TileRun.advance (t : TileRun) : TileRun :=
  let (l, pc) := loopBack t.loops (t.pc + 1)
  { t with loops := l, pc := pc, waiting := none }

/-- The op an engine is to run now: its tile has come to the record `w`, of opcode `code`. -/
def State.opAt (s : State) (h : Hub) (e : EngNo) (w : BitVec 256) (code : Nat) : Option (Engine × OpCtx) :=
  let g := s.engine h e.val
  match g.tile with
  | some t => match s.run? t.run with
    | some r =>
      if r.ops[t.pc]? == some w && (opFields w).opcode == code && s.start.quench.state != 2 then
        some (g, { tile := t, run := r, op := opFields w })
      else none
    | none => none
  | none => none

/-- An op that changes its engine alone. -/
def State.engineOp (s : State) (h : Hub) (e : EngNo) (w : BitVec 256) (code : Nat) (f : OpCtx → Engine → Engine) : Out :=
  match s.opAt h e w code with
  | some (g, c) => .next (s.setEngine h e.val { f c g with tile := some c.tile.advance })
  | none => .next s

/-- An op that changes its engine and what its tile holds. -/
def State.tileOp (s : State) (h : Hub) (e : EngNo) (w : BitVec 256) (code : Nat)
    (f : OpCtx → Engine → Engine × TileRun) : Out :=
  match s.opAt h e w code with
  | some (g, c) =>
    let (g', t) := f c g
    .next (s.setEngine h e.val { g' with tile := some t.advance })
  | none => .next s

/-! ### Reading inputs (R243, R261) -/

/-- Elements and side data read from a row of an input. -/
structure Piece where
  codes : List Nat
  side : List Nat
  poisoned : Bool
  nonFinite : Bool

/-- The side bytes a block format carries per group of 32: the scale, and for SX-INT4 the class (R273). -/
def sideBytes (fmt : Nat) : Nat := if fmt = 0x0A then 2 else if isBlockFmt fmt then 1 else 0

/-- Whether `[lo, hi)` of an input meets a poisoned block. -/
def RunInput.poisonedIn (x : RunInput) (lo hi : Nat) : Bool :=
  x.poison.any (fun b => decide (lo < b * 4096 + 4096 ∧ b * 4096 < hi))

/-- `m` elements of row `row` of an input from column `col`: +0 beyond the row and the rows, and in a block format the
side data of their groups (R243, R273). -/
def RunInput.piece (x : RunInput) (row col m : Nat) : Piece :=
  let base := row * x.rowSize
  let eb := elemBits x.format
  let have_ (j : Nat) : Bool := decide (row < x.rows ∧ col + j < x.rowLen)
  let n := if row < x.rows then min m (x.rowLen - col) else 0
  let codes := (List.range m).map (fun j => if have_ j then rowCode x.data x.format base (col + j) else 0)
  let groups := x.rowLen / 32
  let sideBase := base + x.rowLen * eb / 8
  let sides := (List.range (sideBytes x.format)).flatMap (fun k => (List.range ((m + 31) / 32)).map (fun b =>
    if row < x.rows && col / 32 + b < groups then (tabGet 0 x.data (sideBase + k * groups + col / 32 + b)).toNat else 0))
  let nf := (List.range n).any (fun j => !vFinite (rowElem x.data x.format base x.rowLen (col + j)))
  let lo := base + eb * col / 8
  let hi := base + (eb * (col + n) + 7) / 8
  let sideHit := 0 < n && x.poisonedIn (sideBase + col / 32) (sideBase + x.rowSize - x.rowLen * eb / 8)
      && isBlockFmt x.format
  { codes := codes, side := sides, poisoned := (0 < n && x.poisonedIn lo hi) || sideHit, nonFinite := nf }

/-- The packed form of a piece: its elements from bit 0, then its side bytes (R273, chapter 7). -/
def Piece.packed (p : Piece) (fmt : Nat) : Nat :=
  packElems (elemBits fmt) p.codes + packElems 8 p.side * 2 ^ (p.codes.length * elemBits fmt)

/-- The elements of a flat vector's piece that lie in rows: a WHOLE input is read as one vector (Table 7-5). -/
def RunInput.flat (x : RunInput) (from_ m : Nat) : Piece :=
  let l := max 1 x.rowLen
  let total := x.rows * x.rowLen
  let ps := (List.range m).map (fun j =>
    if from_ + j < total then x.piece ((from_ + j) / l) ((from_ + j) % l) 1 else
      { codes := [0], side := [], poisoned := false, nonFinite := false })
  { codes := ps.flatMap Piece.codes,
    side := (List.range (sideBytes x.format)).flatMap (fun k =>
      (List.range ((m + 31) / 32)).map (fun b => (match ps[32 * b]? with
        | some p => p.side.getD k 0
        | none => 0)))
    poisoned := ps.any Piece.poisoned, nonFinite := ps.any Piece.nonFinite }

/-- The input a PORT names. -/
def OpCtx.input (c : OpCtx) (port : Nat) : RunInput := c.run.inputs.getD port noInput

/-- NF as a register flag. -/
def nfBits (b : Bool) : BitVec 3 := (Flags3.mk false false b).bits

/-! ### Writing outputs (R235, R243) -/

/-- One element written into packed bytes. -/
def putElem (t : Tab Byte) (fmt base col code : Nat) : Tab Byte :=
  let eb := elemBits fmt
  if 8 ≤ eb then putBytes t (base + eb / 8 * col) (leBytes (eb / 8) code)
  else
    let at_ := base + eb * col / 8
    let sh := eb * col % 8
    let old := (tabGet 0 t at_).toNat
    tabPut 0 t at_ (BitVec.ofNat 8 (old - (old >>> sh) % 2 ^ eb * 2 ^ sh + code % 2 ^ eb * 2 ^ sh))

/-- Columns from `col` on of one row of an output's tile written; columns beyond the row are discarded (R243). -/
def putRow (t : Tab Byte) (fmt rowLen base col : Nat) (codes : List Nat) (side : List Nat) : Tab Byte :=
  let t := (codes.zipIdx).foldl (fun (t : Tab Byte) x => if col + x.2 < rowLen then putElem t fmt base (col + x.2) x.1 else t) t
  let groups := rowLen / 32
  let per := (codes.length + 31) / 32
  let sideBase := base + rowLen * elemBits fmt / 8
  (side.zipIdx).foldl (fun (t : Tab Byte) x =>
    let b := col / 32 + x.2 % max 1 per
    if b < groups then tabPut 0 t (sideBase + x.2 / max 1 per * groups + b) (BitVec.ofNat 8 x.1) else t) t

/-- The output a PORT names, where the run makes it: other outputs' writes are discarded (R82, R260). -/
def OpCtx.output (c : OpCtx) (port : Nat) : Option (Nat × RunOutput) :=
  match c.run.outputs[port - 8]? with
  | some o => if 8 ≤ port && o.key.obj ≠ 0 then some (port - 8, o) else none
  | none => none

/-- A row of an output's tile written, when it is one of the tile's own rows (R243). -/
def OpCtx.writeRow (c : OpCtx) (t : TileRun) (i : Nat) (o : RunOutput) (row col : Nat) (codes side : List Nat)
    (f : Flags3) : TileRun :=
  let outs := if row < c.rows then t.outs.modify i (fun b => putRow b o.format o.rowLen (row * o.rowSize) col codes side)
    else t.outs
  { t with outs := outs, outFlags := t.outFlags.modify i (fun x => x.or f) }

/-- Flags from their three bits. -/
def flagsOfBits (b : BitVec 3) : Flags3 := ⟨b.getLsbD 0, b.getLsbD 1, b.getLsbD 2⟩

/-! ### Control (R265 to R269, R460 to R463) -/

/-- CONFIG, op 0, is the recipe's header: it changes nothing of the engine (Table 7-4). -/
def execOpConfig (h : Hub) (e : EngNo) (op : BitVec 256) (s : State) : Out :=
  s.engineOp h e op 0x01 (fun _ g => g)

/-- LOOP opens a loop over the next IMM1 ops; a count of 0 is the tile's rows. -/
def execOpLoop (h : Hub) (e : EngNo) (op : BitVec 256) (s : State) : Out :=
  match s.opAt h e op 0x02 with
  | some (g, c) =>
    let n := if c.op.imm0 = 0 then c.rows else c.op.imm0
    let f : LoopFrame := { start := c.tile.pc + 1, len := c.op.imm1, count := n, counter := 0 }
    let t := { c.tile with loops := f :: c.tile.loops, pc := c.tile.pc + 1 }
    .next (s.setEngine h e.val { g with tile := some t })
  | none => .next s

/-- The engine a number of a hub names for counters: the spare has the number of the engine it replaced (R461). -/
def State.engineOf (s : State) (h : Hub) (n : Nat) : Nat :=
  match (s.chainPlaces h).find? (fun x => x.1 == n) with
  | some x => x.2
  | none => n

/-- The counter a WAIT or SIGNAL names and its value now (R265). -/
def State.syncValue (s : State) (h : Hub) (e : Nat) (o : OpRec) : BitVec 32 :=
  let cls := o.mode % 4
  if cls = 0 then tabGet 0 (s.engine h e).ctrs (o.imm0 % 32)
  else if cls = 1 then tabGet 0 (s.engine h (s.engineOf h (bitsOf o.imm0 8 5))).ctrs (o.imm0 % 32)
  else s.hostCtr h (o.imm0 % 256)

/-- A run that makes tensors again, and so performs no SIGNAL of class 2 (R260, R463). -/
def Run.repeats (r : Run) : Bool := match r.kind with
  | .produce | .reduce => false
  | _ => true

/-- A second or third run of duplicate execution (R463). -/
def TileRole.duplicate : TileRole → Bool
  | .second | .third => true
  | _ => false

/-- Whether a WAIT is met, or treated as met (R265, R463). -/
def State.waitMet (s : State) (h : Hub) (e : Nat) (c : OpCtx) : Bool :=
  let cls := c.op.mode % 4
  let v := s.syncValue h e c.op
  let target := BitVec.ofNat 32 c.op.imm1
  (cls == 1 && c.tile.role.duplicate) || (cls == 2 && (c.tile.role.duplicate || c.run.repeats))
    || (if bitOf c.op.mode 2 then v == target else reached v target)

/-- WAIT passes when its counter meets IMM1, and stalls its engine until then (R265, R471). -/
def execOpWait (h : Hub) (e : EngNo) (op : BitVec 256) (s : State) : Out :=
  match s.opAt h e op 0x03 with
  | some (g, c) =>
    if s.waitMet h e.val c then .next (s.setEngine h e.val { g with tile := some c.tile.advance })
    else if c.tile.waiting.isSome then .next s
    else .next (s.setEngine h e.val { g with tile := some { c.tile with waiting := some s.tick } })
  | none => .next s

/-- An engine counter rises (R459). -/
def State.raiseEngine (s : State) (h : Hub) (e c : Nat) (n : BitVec 32) : State :=
  let g := s.engine h e
  s.setEngine h e { g with ctrs := tabPut 0 g.ctrs c (tabGet 0 g.ctrs c + n) }

/-- A SIGNAL of class 2 from a run whose context does not own the counter is discarded and recorded (R468). -/
def State.foreignCtr (s : State) (h : Hub) (c ctx : Nat) : State :=
  let y := s.syn.hubs[h]
  (s.setSync h { y with foreign := y.foreign + 1 }).event h (ev 0x0062 1 (c + ctx * 256))

/-- SIGNAL adds IMM1 to a counter, but for those that a restarted, a repeated or a regenerating run leaves out (R260,
R265, R269, R462, R463, R468). -/
def execOpSignal (h : Hub) (e : EngNo) (op : BitVec 256) (s : State) : Out :=
  match s.opAt h e op 0x04 with
  | some (g, c) =>
    let cls := c.op.mode % 4
    let n := BitVec.ofNat 32 c.op.imm1
    let counted := cls != 0
    let passed := counted && c.tile.signals < c.tile.skipSignals
    let t := { c.tile with signals := c.tile.signals + counted.toNat }
    let s := s.setEngine h e.val { g with tile := some t.advance }
    if cls = 0 then .next (s.raiseEngine h e.val (c.op.imm0 % 32) n)
    else if passed || c.tile.role.duplicate then .next s
    else if cls = 1 then .next (s.raiseEngine h (s.engineOf h (bitsOf c.op.imm0 8 5)) (c.op.imm0 % 32) n)
    else if c.run.repeats then .next s
    else if s.ownsCtr h (c.op.imm0 % 256) c.run.ctx then .next (s.raiseHost h (c.op.imm0 % 256) n)
    else .next (s.foreignCtr h (c.op.imm0 % 256) c.run.ctx)
  | none => .next s

/-! ### Moves between inputs, outputs, registers and the working area -/

/-- How many elements a LOAD or STORE moves in a block format, whose side data follows them (R273): no more than the
columns there are. -/
def movedCount (fmt n room : Nat) : Nat := if isBlockFmt fmt then min n room else n

/-- LOAD: elements of a ROW input's row, or of a WHOLE input, into VD; it sets NF alone (R243, R246, R261). -/
def execOpLoad (h : Hub) (e : EngNo) (op : BitVec 256) (s : State) : Out :=
  s.tileOp h e op 0x08 (fun c g =>
    let x := c.input c.op.port
    let whole := inMode c.run.ops c.op.port == 2
    let room := if whole then x.rows * x.rowLen - c.op.imm0 else x.rowLen - c.op.imm0
    let m := movedCount c.op.fmt (opN c.op) room
    let p := if whole then x.flat c.op.imm0 m
      else x.piece (if bitOf c.op.mode 0 then c.op.imm1 else c.g) c.op.imm0 m
    let bits := p.packed c.op.fmt
    let k := max (c.op.span + 1) ((m * elemBits c.op.fmt + 8 * p.side.length + 8191) / 8192)
    ({ g with regs := writeRegs g.regs c.op.vd bits k, regFlags := writeFlags g.regFlags c.op.vd (nfBits p.nonFinite) k },
     { c.tile with poisoned := c.tile.poisoned || (!whole && p.poisoned) }))

/-- STORE: VA into the output's row g, columns from IMM0; its source's flags join the tile's (R243, R246). -/
def execOpStore (h : Hub) (e : EngNo) (op : BitVec 256) (s : State) : Out :=
  s.tileOp h e op 0x09 (fun c g =>
    match c.output c.op.port with
    | some (i, o) =>
      let eb := elemBits c.op.fmt
      let m := movedCount c.op.fmt (opN c.op) (o.rowLen - c.op.imm0)
      let side := sideBytes c.op.fmt * ((m + 31) / 32)
      let span := max (c.op.span + 1) ((m * eb + 8 * side + 8191) / 8192) - 1
      let b := spanBits g c.op.va span
      (g, c.writeRow c.tile i o c.row c.op.imm0 ((List.range m).map (elemAt b eb))
        ((List.range side).map (fun j => bitsOf b (m * eb + 8 * j + 7) (m * eb + 8 * j)))
        (flagsOfBits (vecFlags g c.op.va c.op.span)))
    | none => (g, c.tile))

/-- LDLS (R246). -/
def execOpLdls (h : Hub) (e : EngNo) (op : BitVec 256) (s : State) : Out :=
  s.engineOp h e op 0x0A (fun c g => opLdls c.op g)

/-- STLS (R246). -/
def execOpStls (h : Hub) (e : EngNo) (op : BitVec 256) (s : State) : Out :=
  s.engineOp h e op 0x0B (fun c g => opStls c.op g)

/-- LDROWS: K elements of each tile row into the working area, a pitch apart (R246, R249, R261). -/
def execOpLdrows (h : Hub) (e : EngNo) (op : BitVec 256) (s : State) : Out :=
  s.tileOp h e op 0x0C (fun c g =>
    let x := c.input c.op.port
    let k := bitsOf c.op.imm2 12 0
    let ps := (List.range c.rows).map (fun r => x.piece (c.first + r) c.op.imm1 k)
    let n := (rowBytes c.op.fmt k).getD 0
    let work := (ps.zipIdx).foldl (fun (w : Tab Byte) q =>
      tabPaste w (c.op.imm0 + q.2 * rowPitch c.op.fmt k) n (natTab n (q.1.packed c.op.fmt))) g.work
    ({ g with work := work, workFlags := g.workFlags ||| nfBits (ps.any Piece.nonFinite) },
     { c.tile with poisoned := c.tile.poisoned || ps.any Piece.poisoned }))

/-- STACC: entries of each tile row, rounded once, into columns 0 to IMM0 − 1 of the output (R246, R291). -/
def execOpStacc (h : Hub) (e : EngNo) (op : BitVec 256) (s : State) : Out :=
  s.tileOp h e op 0x0D (fun c g =>
    match c.output c.op.port with
    | some (i, o) =>
      (g, (List.range c.rows).foldl (fun (t : TileRun) r =>
        let d := { c.draws with globalRow := c.first + r }
        let rs := (List.range c.op.imm0).map (fun j =>
          roundVal (fmtOf c.op.fmt) (accVal c.exact (tabGet accZero g.acc (accIdx c.op.acc (accAddr c.op r + j))))
            (opDraw d c.op j))
        c.writeRow t i o r 0 (rs.map (fun x => x.bits)) []
          (flagsOfBits (tabGet 0 g.accFlags c.op.acc ||| flagsOf rs))) c.tile)
    | none => (g, c.tile))

/-! ### Arithmetic and activations (R244, R245) -/

/-- ADD: a + b. -/
def execOpAdd (h : Hub) (e : EngNo) (op : BitVec 256) (s : State) : Out :=
  s.engineOp h e op 0x10 (fun c g => opElementwise 2 c.op c.draws g)

/-- SUB: a − b. -/
def execOpSub (h : Hub) (e : EngNo) (op : BitVec 256) (s : State) : Out :=
  s.engineOp h e op 0x11 (fun c g => opElementwise 2 c.op c.draws g)

/-- MUL: a × b. -/
def execOpMul (h : Hub) (e : EngNo) (op : BitVec 256) (s : State) : Out :=
  s.engineOp h e op 0x12 (fun c g => opElementwise 2 c.op c.draws g)

/-- FMA: a × b + c, rounded once. -/
def execOpFma (h : Hub) (e : EngNo) (op : BitVec 256) (s : State) : Out :=
  s.engineOp h e op 0x13 (fun c g => opElementwise 3 c.op c.draws g)

/-- MAX: the larger of a and b. -/
def execOpMax (h : Hub) (e : EngNo) (op : BitVec 256) (s : State) : Out :=
  s.engineOp h e op 0x14 (fun c g => opElementwise 2 c.op c.draws g)

/-- MIN: the smaller of a and b. -/
def execOpMin (h : Hub) (e : EngNo) (op : BitVec 256) (s : State) : Out :=
  s.engineOp h e op 0x15 (fun c g => opElementwise 2 c.op c.draws g)

/-- ADDS: a + IMM0. -/
def execOpAdds (h : Hub) (e : EngNo) (op : BitVec 256) (s : State) : Out :=
  s.engineOp h e op 0x16 (fun c g => opElementwise 1 c.op c.draws g)

/-- MULS: a × IMM0. -/
def execOpMuls (h : Hub) (e : EngNo) (op : BitVec 256) (s : State) : Out :=
  s.engineOp h e op 0x17 (fun c g => opElementwise 1 c.op c.draws g)

/-- RELU: a when a > 0, +0 otherwise. -/
def execOpRelu (h : Hub) (e : EngNo) (op : BitVec 256) (s : State) : Out :=
  s.engineOp h e op 0x18 (fun c g => opElementwise 1 c.op c.draws g)

/-- LRELU: a when a ≥ 0, a × IMM0 otherwise. -/
def execOpLrelu (h : Hub) (e : EngNo) (op : BitVec 256) (s : State) : Out :=
  s.engineOp h e op 0x19 (fun c g => opElementwise 1 c.op c.draws g)

/-- GELU: a × Φ(a). -/
def execOpGelu (h : Hub) (e : EngNo) (op : BitVec 256) (s : State) : Out :=
  s.engineOp h e op 0x1A (fun c g => opElementwise 1 c.op c.draws g)

/-- SIGMOID: 1 / (1 + e^−a). -/
def execOpSigmoid (h : Hub) (e : EngNo) (op : BitVec 256) (s : State) : Out :=
  s.engineOp h e op 0x1B (fun c g => opElementwise 1 c.op c.draws g)

/-- TANH. -/
def execOpTanh (h : Hub) (e : EngNo) (op : BitVec 256) (s : State) : Out :=
  s.engineOp h e op 0x1C (fun c g => opElementwise 1 c.op c.draws g)

/-- SILU: a / (1 + e^−a). -/
def execOpSilu (h : Hub) (e : EngNo) (op : BitVec 256) (s : State) : Out :=
  s.engineOp h e op 0x1D (fun c g => opElementwise 1 c.op c.draws g)

/-! ### Normalization, sums and accumulators (R247, R248, R287, R291) -/

/-- LNORM. -/
def execOpLnorm (h : Hub) (e : EngNo) (op : BitVec 256) (s : State) : Out :=
  s.engineOp h e op 0x20 (fun c g => opNorm true c.row c.op c.draws g)

/-- RMSNORM. -/
def execOpRmsnorm (h : Hub) (e : EngNo) (op : BitVec 256) (s : State) : Out :=
  s.engineOp h e op 0x21 (fun c g => opNorm false c.row c.op c.draws g)

/-- RSUM. -/
def execOpRsum (h : Hub) (e : EngNo) (op : BitVec 256) (s : State) : Out :=
  s.engineOp h e op 0x24 (fun c g => opRsum false c.exact c.row c.op g)

/-- RSUMSQ. -/
def execOpRsumsq (h : Hub) (e : EngNo) (op : BitVec 256) (s : State) : Out :=
  s.engineOp h e op 0x25 (fun c g => opRsum true c.exact c.row c.op g)

/-- ACCZERO. -/
def execOpAcczero (h : Hub) (e : EngNo) (op : BitVec 256) (s : State) : Out :=
  s.engineOp h e op 0x26 (fun c g => opAcczero c.row c.op g)

/-- ACCRD. -/
def execOpAccrd (h : Hub) (e : EngNo) (op : BitVec 256) (s : State) : Out :=
  s.engineOp h e op 0x27 (fun c g => opAccrd c.exact c.row c.op c.draws g)

/-! ### Pooling (R250) -/

/-- One element of a bag: the sum, the mean or the largest over rows `lo` to `hi − 1` (R250). -/
def poolElem (x : RunInput) (o : OpRec) (lo hi j : Nat) : Val :=
  let v (k : Nat) : Val := if k < x.rows && o.imm0 + j < x.rowLen then rowElem x.data x.format (k * x.rowSize) x.rowLen (o.imm0 + j)
    else vZero
  let ks := (List.range (hi - lo)).map (fun i => lo + i)
  if hi ≤ lo then vZero
  else if o.mode = 2 then
    if ks.any (fun k => vIsNan (v k)) then .nan
    else ks.foldl (fun a k => if vLt a (v k) then v k else a) (v lo)
  else
    let sum := ks.foldl (fun a k => rn32 (vAdd a (v k))) vZero
    if o.mode = 1 then divCount32 sum (hi - lo) else sum

/-- POOL (R250, R261). -/
def execOpPool (h : Hub) (e : EngNo) (op : BitVec 256) (s : State) : Out :=
  s.tileOp h e op 0x28 (fun c g =>
    let x := c.input c.op.port
    let offs := c.input (bitsOf c.op.imm1 3 0)
    let lo := offs.offsetAt c.g
    let hi := offs.offsetAt (c.g + 1)
    let n := opN c.op
    let rs := (List.range n).map (fun j => roundVal (fmtOf c.op.fmt) (poolElem x c.op lo hi j) (opDraw c.draws c.op j))
    let bad := (List.range (hi - lo)).any (fun i => (x.piece (lo + i) c.op.imm0 n).poisoned)
      || offs.poisonedIn (4 * c.g) (4 * c.g + 8)
    (writeVec g c.op.vd c.op.span (elemBits c.op.fmt) (rs.map (fun r => r.bits)) (flagsOf rs),
     { c.tile with poisoned := c.tile.poisoned || bad }))

/-! ### Rearranging, matrix products, masks, formats, digests -/

/-- CAT. -/
def execOpCat (h : Hub) (e : EngNo) (op : BitVec 256) (s : State) : Out :=
  s.engineOp h e op 0x2C (fun c g => opCat c.op g)

/-- TRANSP. -/
def execOpTransp (h : Hub) (e : EngNo) (op : BitVec 256) (s : State) : Out :=
  s.engineOp h e op 0x2D (fun c g => opTransp c.op g)

/-- MM: the column panel p of the WEIGHT or STREAM input on PORT (R249). -/
def execOpMm (h : Hub) (e : EngNo) (op : BitVec 256) (s : State) : Out :=
  s.engineOp h e op 0x30 (fun c g =>
    let x := c.input c.op.port
    let col (j : Nat) : Nat := 256 * bitsOf c.op.imm1 19 16 + j
    let elem (k j : Nat) : Val := if k < x.rows && col j < x.rowLen then
        rowElem x.data x.format (k * x.rowSize) x.rowLen (col j) else vZero
    let scale (k j : Nat) : Nat := if k < x.rows && col j < x.rowLen then
        (tabGet 0 x.data (k * x.rowSize + x.rowLen * elemBits x.format / 8 + col j / 32)).toNat else 0
    opMm c.rows c.op elem scale g)

/-- MMOUT. -/
def execOpMmout (h : Hub) (e : EngNo) (op : BitVec 256) (s : State) : Out :=
  s.engineOp h e op 0x31 (fun c g => opAccrd c.exact c.row c.op c.draws g)

/-- MASKGEN. -/
def execOpMaskgen (h : Hub) (e : EngNo) (op : BitVec 256) (s : State) : Out :=
  s.engineOp h e op 0x34 (fun c g => opMaskgen c.rowLen c.op c.draws g)

/-- MASKAPPLY. -/
def execOpMaskapply (h : Hub) (e : EngNo) (op : BitVec 256) (s : State) : Out :=
  s.engineOp h e op 0x35 (fun c g => opMaskapply c.op c.draws g)

/-- DROPOUT. -/
def execOpDropout (h : Hub) (e : EngNo) (op : BitVec 256) (s : State) : Out :=
  s.engineOp h e op 0x36 (fun c g => opDropout c.rowLen c.op c.draws g)

/-- RELUMASK. -/
def execOpRelumask (h : Hub) (e : EngNo) (op : BitVec 256) (s : State) : Out :=
  s.engineOp h e op 0x37 (fun c g => opRelumask c.op g)

/-- QUANT. -/
def execOpQuant (h : Hub) (e : EngNo) (op : BitVec 256) (s : State) : Out :=
  s.engineOp h e op 0x38 (fun c g => opQuant c.op c.draws g)

/-- DEQUANT. -/
def execOpDequant (h : Hub) (e : EngNo) (op : BitVec 256) (s : State) : Out :=
  s.engineOp h e op 0x39 (fun c g => opDequant c.op g)

/-- CVT. -/
def execOpCvt (h : Hub) (e : EngNo) (op : BitVec 256) (s : State) : Out :=
  s.engineOp h e op 0x3A (fun c g => opCvt c.op c.draws g)

/-- DIGEST folds the first elements of VA into the tile's check digest (R253, R297). -/
def execOpDigest (h : Hub) (e : EngNo) (op : BitVec 256) (s : State) : Out :=
  s.tileOp h e op 0x3C (fun c g =>
    let (n, v) := foldCheck c.tile.checkWords c.tile.check (vecBytes g c.op)
    (g, { c.tile with checkWords := n, check := v }))

end Sys2Proof.Machine
end

