-- ==== Sys2Proof/Machine/Tiles.lean ====
section
/-!
DEFINITION. How tiles end, are compared and stand, and how runs end (R79 to R84, R260 to R270).
-/
namespace Sys2Proof.Machine

/-! ### Severity (R699) -/

/-- How severe a status is: TIER_FAULT, TIER_READ_ONLY, CHECK_FAILED, RECOMPUTE_MISMATCH, POISONED (R699). -/
def severity (st : BitVec 8) : Nat :=
  if st = 0x22 then 5 else if st = 0x23 then 4 else if st = 0x21 then 3 else if st = 0x24 then 2
  else if st = 0x20 then 1 else 0

/-- The more severe of two statuses. -/
def worse (a b : BitVec 8) : BitVec 8 := if severity a < severity b then b else a

/-! ### A tile stands -/

/-- The first row of a tile and its rows (R235). -/
def Run.tileSpan (r : Run) (tile : Nat) : Nat × Nat :=
  let t := tileRows r.ops
  (tile * t, min r.rows ((tile + 1) * t) - tile * t)

/-- The 4 KiB blocks that `[off, off + len)` meets. -/
def blocksOf (off len : Nat) : List Nat :=
  if len = 0 then [] else (List.range ((off + len - 1) / 4096 + 1 - off / 4096)).map (fun i => off / 4096 + i)

/-- A tile's bytes of an output laid where the tile lies in it, with 0 outside (R235). -/
def Run.place (r : Run) (tile : Nat) (o : RunOutput) (d : Tab Byte) : Tab Byte :=
  let (f, n) := r.tileSpan tile
  tabPaste [] (f * o.rowSize) (n * o.rowSize) d

/-- The tile digest of an output (R296). -/
def Run.tileDigest (r : Run) (tile : Nat) (o : RunOutput) (d : Tab Byte) : BitVec 64 :=
  let (f, n) := r.tileSpan tile
  digestRange (r.place tile o d) (f * o.rowSize) (n * o.rowSize)

/-- An output of a tile that stands: it is kept, delivered to its host address, and written to a KEEP handle's range
(R63, R235, R261). -/
def State.standOutput (s : State) (r : Run) (tile : Nat) (o : RunOutput) (d : Tab Byte) (f : Flags3) (poisoned : Bool) :
    State × RunOutput :=
  let (first, n) := r.tileSpan tile
  let off := first * o.rowSize
  let len := n * o.rowSize
  let bad := if poisoned then blocksOf off len else []
  let skip := off % 4096
  let rel := bad.map (fun b => b - off / 4096)
  let s := if o.dest ≠ 0 && r.kind == RunKind.produce then s.hostDeliver (o.dest + off) len d skip rel else s
  let s := match r.kind, s.handle? o.key with
    | .produce, some h => if h.fate == Fate.keep then s.hostDeliver (h.keepAddr + off) len d skip rel else s
    | _, _ => s
  (s, { o with data := tabPaste o.data off len d, flags := o.flags.or f,
               poison := o.poison ++ bad.filter (fun b => b ∉ o.poison) })

/-- A tile stands. -/
def State.stand (s : State) (id tile : Nat) (d : TileDigests) (poisoned : Bool) : State :=
  match s.run? id with
  | some r =>
    let (s, outs) := (r.outputs.zipIdx).foldl (fun (a : State × List RunOutput) x =>
      if x.1.key.obj = 0 then (a.1, a.2 ++ [x.1])
      else
        let (s, o) := a.1.standOutput r tile x.1 (d.data.getD x.2 []) (d.flags.getD x.2 Flags3.none) poisoned
        (s, a.2 ++ [o])) (s, [])
    s.setRun { r with outputs := outs, standing := r.standing ++ [tile] }
  | none => s

/-! ### How a run ends -/

/-- Whether a tile of a run is on an engine. -/
def State.onEngine (s : State) (id : Nat) : Bool :=
  s.eng.engines.any (fun e => match e.2.tile with
    | some t => t.run == id
    | none => false)

/-- A run has nothing left to do. -/
def State.runOver (s : State) (r : Run) : Bool :=
  r.todo.isEmpty && r.dups.isEmpty && !s.onEngine r.id && r.inputs.all RunInput.ready
    && decide (r.standing.length = r.wanted.length)

/-- The status of a run: what its tiles met, and POISONED where an output is poisoned (R699). -/
def Run.ends (r : Run) : BitVec 8 :=
  worse r.status (if r.outputs.any (fun o : RunOutput => !o.poison.isEmpty && o.key.obj ≠ 0) then 0x20 else 0)

/-- The hubs whose ports carried a run's deliveries. -/
def State.runPorts (s : State) (r : Run) : List Hub :=
  (r.wanted.map (s.tileHub r.ops r.inputs r.rows)).dedup

/-- The digests of an output's tiles. -/
def Run.tileDigests (r : Run) (o : RunOutput) : List (BitVec 64) :=
  (List.range r.tiles).map (fun t =>
    let (f, n) := r.tileSpan t
    digestRange o.data (f * o.rowSize) (n * o.rowSize))

/-- An output handle takes what its run made (R76, Table 2-7); a stored one waits for its last block to be confirmed. -/
def State.takeOutput (s : State) (r : Run) (o : RunOutput) : State :=
  match s.handle? o.key with
  | some h =>
    if h.state == HState.filling && o.key.obj ≠ 0 then
      let h := h.received o.data o.poison o.flags false
      let h := { h with marks := { h.marks with tiles := r.tileDigests o, tilesKnown := true } }
      let s := s.setHandle h
      if h.fate.stored then s else (s.settleFill h).runWaiting h.key
    else s
  | none => s

/-- An OFFLOAD_FWD whose run is over completes once its filled handle and every output have left FILLING (R76). -/
def State.endProduce (s : State) (id : Nat) : State :=
  match s.run? id with
  | some r =>
    let waits := s.hs.list.any (fun h : Handle => (h.fill.bind Fill.run) == some id)
    if !s.runOver r || waits then s
    else
      let s := s.dropRun id
      match r.ticket, (r.outputs.head?).bind (fun o => s.handle? o.key) with
      | some t, some h0 =>
        let ds := r.outputs.map (fun o => match s.handle? o.key with
          | some h => h.marks.digest
          | none => 0)
        let i0 := (r.target.bind s.handle?).getD h0
        let d := h0.fillDone ds r.ends r.sampled r.disagreed
        let x := leBytes 8 i0.marks.received.toNat ++ d.xbytes.drop 8
        let ports := hubOf t.ring :: (if r.outputs.any (fun o : RunOutput => o.dest ≠ 0) then s.runPorts r else [])
        s.completeVia t ports { d with xbytes := x }
      | some t, none => s.complete t { status := r.ends }
      | none, _ => s
  | none => s

/-- A regeneration for a restore delivers its range and ends (R79 to R84, R260). -/
def State.endRegenerate (s : State) (r : Run) : State :=
  match r.restore, r.outputs.find? (fun o : RunOutput => some o.key == r.target) with
  | some w, some o =>
    match s.handle? o.key with
    | some h =>
      let len := w.len h.shape.size
      let poison := o.poison.filter (fun b => w.offset / 4096 ≤ b && b * 4096 < w.offset + len)
      let st := worse r.status (if poison.isEmpty then 0 else 0x20)
      let ports := s.runPorts r
      let s := s.deliverBytes w.glint false h.shape.format h.shape.size w.offset len w.dest o.data poison
      let s := (s.dropRun r.id).settleLatent h.key
      s.restoreEnded h.key w ports
        { status := st, flags := h.marks.bits, result := digestRange o.data w.offset len
          xbytes := restoreBytes (lowestPoison w.offset poison) poison.length r.disagreed r.wanted.length 0 0 }
    | none => s.dropRun r.id
  | _, _ => s.dropRun r.id

/-- A materialization that met an error: its new locations and charges are released, and the handle is LATENT again
(R64, Table 2-11). -/
def State.abortMaterialize (s : State) (h : Handle) (m : Mig) (st : BitVec 8) : State :=
  let s := (s.dropLaneWork h.key).returnCharges h
  let s := (s.setHandle { h with mig := none, chargeShade := 0, chargeUmbra := 0, chargePenumbra := 0, content := [] }).settleLatent
    h.key
  match m.ticket with
  | some t => s.complete t { status := st, flags := h.marks.bits }
  | none => s.event h.key.entry (ev 0x0025 1 h.word)

/-- A materialization's run is over: the content stands and its stripes may be committed, or it ends with its error
(R64, Table 2-5). -/
def State.endMaterialize (s : State) (r : Run) : State :=
  let s := s.dropRun r.id
  match r.target.bind s.handle?, r.outputs.find? (fun o : RunOutput => some o.key == r.target) with
  | some h, some o => match h.mig with
    | some m =>
      if r.ends ≠ 0 then s.abortMaterialize h m r.ends
      else s.setHandle { h with content := o.data }
    | none => s.settleLatent h.key
  | _, _ => s

/-- A regenerated input is handed to the run that reads it (R78). -/
def State.endInput (s : State) (r : Run) (parent idx : Nat) : State :=
  let s := s.dropRun r.id
  let s := match r.target with
    | some k => s.settleLatent k
    | none => s
  match s.run? parent, r.outputs.find? (fun o : RunOutput => some o.key == r.target) with
  | some p, some o =>
    let ins := p.inputs.modify idx (fun (x : RunInput) => { x with data := o.data, poison := o.poison, ready := true })
    let p := { p with inputs := ins, status := worse p.status r.status }
    s.setRun (if ins.all RunInput.ready && p.todo.isEmpty && p.standing.isEmpty then s.layTiles p else p)
  | _, _ => s

/-- The pending values that a REDUCE_UPDATE's run made, kept by their handles until the seal (R444). -/
def State.endReduce (s : State) (r : Run) : State :=
  r.outputs.foldl (fun (s : State) (o : RunOutput) => match s.handle? o.key with
    | some h => s.setHandle { h with pendingValue := some o.data }
    | none => s) s

/-- A run whose work is over ends as its kind asks. -/
def State.endRun (s : State) (id : Nat) : State :=
  match s.run? id with
  | some r =>
    if !s.runOver r then s
    else match r.kind with
      | .produce => (r.outputs.foldl (fun (s : State) (o : RunOutput) => s.takeOutput r o) s).endProduce id
      | .regenerate => s.endRegenerate r
      | .materialize => s.endMaterialize r
      | .input p i => s.endInput r p i
      | .reduce => s.endReduce r
  | none => s

/-! ### TILE_END (R80, R83, R235, R261 to R267) -/

/-- An engine's counters at tile end: each that differs from its value at tile start is restored, with its event
(R267). -/
def State.syncLeft (s : State) (h : Hub) (e number : Nat) (start : Tab (BitVec 32)) : State :=
  let g := s.engine h e
  let left := (List.range 32).filter (fun c => tabGet 0 g.ctrs c != tabGet 0 start c)
  let s := s.setEngine h e { g with ctrs := start }
  left.foldl (fun (s : State) c => s.event h (evU 0x0060 1 2 e (c + number * 65536))) s

/-- The unit an engine number stands for in records. -/
def engineUnit (i : Nat) : UnitName := { hub := i / 13, kind := 2, index := i % 13, sub := 0 }

/-- A tile's duplicate runs kept for comparison. -/
def Run.addDup (r : Run) (tile : Nat) (d : TileDigests) (poisoned : Bool) : Run :=
  if r.dups.any (fun x : Dup => x.tile == tile) then
    { r with dups := r.dups.map (fun (x : Dup) => if x.tile = tile then
        { x with runs := x.runs ++ [d], poisoned := x.poisoned || poisoned } else x) }
  else { r with dups := r.dups ++ [{ tile := tile, runs := [d], poisoned := poisoned }] }

/-- Another run of a tile is asked for, on an engine that ran none of them (R80, R264). -/
def Run.again (r : Run) (tile : Nat) (h : Hub) (role : TileRole) : Run :=
  let on := ((r.dups.filter (fun x : Dup => x.tile == tile)).flatMap Dup.runs).map (fun d => d.engine % 13)
  { r with todo := { hub := h, tile := tile, role := role, notOn := on, skip := 0 } :: r.todo }

/-- A tile's comparison is over. -/
def Run.dropDup (r : Run) (tile : Nat) : Run := { r with dups := r.dups.filter (fun x : Dup => x.tile ≠ tile) }

/-- O0's handle in a run's records. -/
def Run.word0 (r : Run) : Nat := match r.outputs.head? with
  | some o => handleWord o.key o.gen
  | none => 0

/-- A tile of a run that made every block of it poisoned and met RECOMPUTE_MISMATCH (R80, R264). -/
def State.standPoisoned (s : State) (id tile : Nat) (d : TileDigests) (h : Hub) : State :=
  let s := s.stand id tile d true
  match s.run? id with
  | some r =>
    let s := s.setRun { r with status := worse r.status 0x24 }
    if r.kind == RunKind.produce || r.kind == RunKind.reduce then s.poisonCreated h r.word0 else s
  | none => s

/-- A first run of a tile has ended: a regeneration is checked against its recorded digest, a sampled tile waits for its
duplicate, any other stands (R80, R83, R262, R264). -/
def State.firstRun (s : State) (h : Hub) (r : Run) (t : TileRun) (d : TileDigests) (poisoned : Bool) : State :=
  let idx := (r.outputs.findIdx? (fun o : RunOutput => some o.key == r.target)).getD 0
  let wrong := match s.knownTiles r with
    | some ks => match ks[t.tile]? with
      | some k => d.outs.getD idx 0 != k
      | none => false
    | none => false
  let dup (s : State) (role : TileRole) : State :=
    match s.run? r.id with
    | some x => s.setRun ((x.addDup t.tile d poisoned).again t.tile h role)
    | none => s
  if wrong && !r.tolerant then dup s .rerun
  else
    let s := if wrong then
        let s := s.event h (ev 0x0024 1 (match r.target.bind s.handle? with
          | some x => x.word
          | none => 0))
        s.setRun { r with disagreed := r.disagreed + 1 }
      else s
    if t.sampled then
      match s.run? r.id with
      | some x => dup (s.setRun { x with sampled := x.sampled + 1 }) .second
      | none => s
    else s.stand r.id t.tile d poisoned

/-- The rerun of R80 has ended: a match is delivered and the first engine goes to a targeted test; otherwise the tile is
delivered poisoned. -/
def State.rerun (s : State) (h : Hub) (r : Run) (t : TileRun) (d : TileDigests) (poisoned : Bool) : State :=
  let idx := (r.outputs.findIdx? (fun o : RunOutput => some o.key == r.target)).getD 0
  let right := match s.knownTiles r with
    | some ks => ks[t.tile]? == some (d.outs.getD idx 0)
    | none => true
  let firsts := (r.dups.filter (fun x : Dup => x.tile == t.tile)).flatMap Dup.runs
  let s := s.setRun (r.dropDup t.tile)
  if right then
    let s := s.stand r.id t.tile d poisoned
    match firsts.head? with
    | some f => s.sendTest (engineUnit f.engine) 4
    | none => s
  else s.standPoisoned r.id t.tile d h

/-- TILE_END: counters are compared and restored, and the tile stands, waits for its duplicate, or is run again. -/
def execTileEnd (h : Hub) (e : EngNo) (s : State) : Out :=
  let g := s.engine h e.val
  match g.tile with
  | some t => match s.run? t.run with
    | some r =>
      if t.pc < r.ops.length || s.start.quench.state == 2 then .next s
      else
        let s := s.setEngine h e.val { g with tile := none }
        let s := s.syncLeft h e.val r.number t.startCtrs
        let outs := (r.outputs.zip t.outs).map (fun x => if x.1.key.obj = 0 then 0 else r.tileDigest t.tile x.1 x.2)
        let d : TileDigests := { engine := h.val * 13 + e.val, outs := outs, check := t.check, data := t.outs,
                                 flags := t.outFlags }
        let bad := t.poisoned || r.inputs.any (fun i : RunInput => 2 ≤ i.mode && i.mode ≤ 4 && !i.poison.isEmpty)
        let s := match t.role with
          | .first => s.firstRun h r t d bad
          | .rerun => s.rerun h r t d bad
          | .second | .third => s.setRun (r.addDup t.tile d bad)
        .next (s.endRun r.id)
    | none => .next (s.setEngine h e.val { g with tile := none })
  | none => .next s

/-! ### DUPLICATE_COMPARE (R264) -/

/-- Two runs of a tile agree in every tile digest and the check digest. -/
def TileDigests.agrees (a b : TileDigests) : Bool := a.outs == b.outs && a.check == b.check

/-- A tile's decision: it stands as one of its runs left it, and an engine that disagreed goes to a targeted test. -/
def State.tileDecided (s : State) (r : Run) (tile : Nat) (d : TileDigests) (poisoned : Bool) (odd : Option TileDigests) : State :=
  let s := s.setRun (r.dropDup tile)
  let s := s.stand r.id tile d poisoned
  match odd with
  | some x => s.sendTest (engineUnit x.engine) 4
  | none => s

/-- DUPLICATE_COMPARE: the runs of a sampled tile are compared; two that differ ask for a third, of three the two that
agree decide, and three that differ poison the tile (R264). -/
def execDuplicateCompare (run tile : Nat) (s : State) : Out :=
  match s.run? run with
  | some r => match r.dups.find? (fun x : Dup => x.tile == tile) with
    | some x =>
      let busy := r.todo.any (fun w : TileWait => w.tile == tile)
        || s.eng.engines.any (fun e => match e.2.tile with
          | some t => t.run == run && t.tile == tile
          | none => false)
      if busy then .next s
      else match x.runs with
        | [a, b] =>
          if a.agrees b then .next ((s.tileDecided r tile a x.poisoned none).endRun run)
          else
            let h := hubOf (a.engine / 13)
            let s := s.setRun ({ r with disagreed := r.disagreed + (if r.repeats then 0 else 1) }.again tile h .third)
            .next (s.event h (evU 0x0049 2 2 (a.engine % 13) r.word0))
        | [a, b, c] =>
          let h := hubOf (a.engine / 13)
          let s' := if c.agrees a then s.tileDecided r tile a x.poisoned (some b)
            else if c.agrees b then s.tileDecided r tile b x.poisoned (some a)
            else (s.setRun (r.dropDup tile)).standPoisoned run tile a h
          .next (s'.endRun run)
        | _ => .next s
    | none => .next s
  | none => .next s

/-! ### Waits, stalls, retirement and the chain (R171, R265 to R270, R471) -/

/-- WAIT_REEVALUATE: a counter's raise makes a stalled WAIT look at its condition once (R471). -/
def execWaitReevaluate (h : Hub) (e : EngNo) (s : State) : Out :=
  let g := s.engine h e.val
  match g.tile with
  | some t => match s.run? t.run with
    | some r => match r.ops[t.pc]?, t.waiting with
      | some w, some _ =>
        let c : OpCtx := { tile := t, run := r, op := opFields w }
        if s.waitMet h e.val c then .next (s.setEngine h e.val { g with tile := some t.advance }) else .next s
      | _, _ => .next s
    | none => .next s
  | none => .next s

/-- The request a run serves ends with a status: the run and what it feeds end with it (R266, R699). -/
def State.failRun : Nat → State → Run → BitVec 8 → State
  | 0, s, _, _ => s
  | n + 1, s, r, st =>
    match r.kind with
    | .input p _ => match s.run? p with
      | some x => (State.failRun n s x st)
      | none => s.dropRun r.id
    | .produce => match s.hs.list.find? (fun h : Handle => (h.fill.bind Fill.run) == some r.id) with
      | some h => s.failFill h st
      | none =>
        let s := s.dropRun r.id
        (match r.ticket with
          | some t => s.complete t { status := st }
          | none => s)
    | .regenerate =>
      let s := s.dropRun r.id
      let s := match r.target with
        | some k => s.settleLatent k
        | none => s
      (match r.restore, r.target with
        | some w, some k => s.restoreEnded k w [] { status := st, xbytes := restoreBytes none 0 0 0 0 0 }
        | _, _ => s)
    | .materialize =>
      let s := s.dropRun r.id
      (match r.target.bind s.handle? with
        | some h => (match h.mig with
          | some m => s.abortMaterialize h m st
          | none => s.settleLatent h.key)
        | none => s)
    | .reduce => s.setRun { r with status := worse r.status st, todo := [], dups := [] }

/-- RECIPE_STALL: a WAIT unmet for 100 ms ends its request; the engine abandons the tile, its counters compared and
restored (R266, R267). -/
def execRecipeStall (h : Hub) (e : EngNo) (s : State) : Out :=
  let g := s.engine h e.val
  match g.tile with
  | some t => match t.waiting, s.run? t.run with
    | some since, some r =>
      if s.tick < since + 100 * msTicks then .next s
      else
        let s := s.setEngine h e.val { g with tile := none }
        let s := s.syncLeft h e.val r.number t.startCtrs
        .next (s.failRun 6 r 0x27)
    | _, _ => .next s
  | none => .next s

/-- ENGINE_RETIRED (R21, R268, R461). -/
def execEngineRetired (h : Hub) (e : EngNo) (s : State) : Out := .next (s.retireEngine h e.val)

/-- CHAIN_SPLICE: at the next panel boundary the spare stands in the retired engine's place of the chain, or with none
left the chain closes over the gap (R171, R270). -/
def execChainSplice (h : Hub) (e : EngNo) (s : State) : Out :=
  let x := s.rel.hubs[h]
  if x.splice == some e.val then .next (s.setHealth h { x with splice := none }) else .next s

end Sys2Proof.Machine
end

