-- ==== Sys2Proof/Machine/Fills.lean ====
section
/-!
DEFINITION. OFFLOAD, OFFLOAD_FWD, RESTORE, MIGRATE, UPDATE and QUERY_HANDLE, and the events that end fills and
migrations (chapters 02 and 09).
-/
namespace Sys2Proof.Machine

/-! ### Starting a fill (R53, R129 to R132, R140, R316) -/

/-- A handle enters FILLING: its charge is taken and its stripes are placed, or QUOTA_EXCEEDED (R140, R132). -/
def State.beginFill (s : State) (h : Handle) (f : Fill) : Except (BitVec 8) State :=
  let h := { h with state := .filling, fill := some f }
  if !h.fate.stored then .ok (s.setHandle h)
  else
    let tier := h.place.tier
    let n := chargeFor tier h.shape.size
    if !s.ledgerTakes h.key.ctx tier n then .error 0x17
    else match s.placeAll h.place h.key.obj h.shape.size (List.range (stripeCount h.shape.size)) with
      | none => .error 0x17
      | some p =>
        let homes : List Home := p.chosen.map (fun u => s.homeIn u (formOf h.fate))
        let s := ((s.charge h.key.ctx tier n).placed h.key.ctx p).setHandle ({ h with homes := homes }.setCharged tier n)
        if h.fate == Fate.stash then .ok s
        else
          let (id, s) := s.nextLaneRequest
          .ok (s.addJobs ((p.chosen.zipIdx).map (fun x => compressJob h.key h.shape.size x.2 x.1.hub f.prio id)))

/-- Blocks of a source taken into the handle being filled; blocks that meet poisoned flits are poisoned (R198, R343,
R526). -/
def State.takeBlocks (s : State) (k : HKey) (first count : Nat) : State :=
  match s.handle? k with
  | some h => match h.fill with
    | some f =>
      let off := first * 4096
      let len := min (count * 4096) (h.shape.size - off)
      let bad := (s.hostPoisonBlocks (f.source + off) len).map (fun b => first + b)
      let m := h.marks
      let h' := { h with content := tabPaste h.content off len (s.hostSlice (f.source + off) len),
                         marks := { m with poison := m.poison ++ bad.filter (fun b => b ∉ m.poison) },
                         fill := some { f with blocksIn := f.blocksIn + count } }
      bad.foldl (fun (s : State) _ => s.poisonCreated h.key.entry h.word) (s.setHandle h')
    | none => s
  | none => s

/-- The filled input of a run is whole: the run reads it, and lays its tiles once every input is ready (R236). -/
def State.feedRun (s : State) (id : Nat) (k : HKey) : State :=
  match s.run? id, s.handle? k with
  | some r, some h =>
    let ins := r.inputs.map (fun x : RunInput => if x.handle == some k && !x.ready then
      { s.snapInput x.mode h with ready := true } else x)
    let r := { r with inputs := ins }
    s.setRun (if ins.all RunInput.ready && r.todo.isEmpty && r.standing.isEmpty then s.layTiles r else r)
  | _, _ => s

/-- Whether every block of a fill's source is in. -/
def Handle.sourceIn (h : Handle) (f : Fill) : Bool := f.source = 0 || decide (blockCount h.shape.size ≤ f.blocksIn)

/-- A fill that waits for no counter takes its whole source at once (R316: READY_BLOCKS 0). -/
def State.takeSource (s : State) (k : HKey) : State :=
  match s.handle? k with
  | some h => match h.fill with
    | some f => if f.readyBlocks = 0 && f.source ≠ 0 then s.takeBlocks k 0 (blockCount h.shape.size) else s
    | none => s
  | none => s

/-- A tier has not come into service for a placement: the command waits (R315). -/
def State.placeWaits (s : State) (h : Handle) : Bool :=
  h.fate.stored && ((h.place.tier == 3 && !s.start.umbra) || (h.place.tier == 4 && !s.start.links))

/-- The fill a descriptor of Table 9-6 asks for. -/
def fillOf (d : Desc) (t : Ticket) (ctx source : Nat) : Fill :=
  { ticket := t, prio := d.prio.toNat, ringCtx := ctx, source := source, readyBlocks := d.f 255 224, readyBase := BitVec.ofNat 32 (d.f 287 256),
    readyHub := hubOf (d.f 217 216), readyCtr := d.f 215 208, nextBlock := 0, blocksIn := 0, run := none, op := none }

/-- A job ring's command names a readiness counter its context does not own (R468). -/
def State.foreignReady (s : State) (d : Desc) : Bool :=
  d.ring != 0 && d.f 255 224 ≠ 0 && !s.ownsCtr (hubOf (d.f 217 216)) (d.f 215 208) (s.descCtx d)

/-! ### Recipes named by commands (R77, R78, R255, R700) -/

/-- The recipe a number names in a context's active plan (R255). -/
def State.recipe? (s : State) (ctx number : Nat) : Option PlanRecipe :=
  match s.ctx? ctx with
  | some c => c.active.bind (fun p => p.recipes.find? (fun r : PlanRecipe => r.number == number))
  | none => none

/-- The handles a list of words names, none for the null handle; the first failing check of R698. -/
def State.namedAll (s : State) (ctx : Nat) (words : List Nat) : Except (BitVec 8) (List (Option Handle)) :=
  words.foldl (fun (a : Except (BitVec 8) (List (Option Handle))) w => match a with
    | .ok l => if w = 0 then .ok (l ++ [none]) else (match s.named ctx w with
      | .ok h => .ok (l ++ [some h])
      | .error e => .error e)
    | .error e => .error e) (.ok [])

/-- What Table 2-8 answers to an input's state: none where it accepts RESTORE. -/
def inputState (h : Handle) : Option (BitVec 8) :=
  match h.state with
  | .registered => some 0x14
  | .discarded => some 0x1C
  | .freeing => some 0x11
  | _ => none

/-- The slot that holds a stream's current layer: the oldest that is READY, DELIVERING or HELD (R169). -/
def Stream.current (x : Stream) : Option StreamSlot :=
  let live := x.slots.filter (fun y : StreamSlot => y.state == SlotState.ready || y.state == SlotState.delivering
    || y.state == SlotState.held)
  live.foldl (fun (a : Option StreamSlot) y => match a with
    | none => some y
    | some b => if y.entry < b.entry || (y.entry == b.entry && y.layer < b.layer) then some y else some b) none

/-- The current layer of a context's stream. -/
def State.currentLayer (s : State) (ctx number : Nat) : Option StreamSlot :=
  match s.ctx? ctx with
  | some c => (c.streams.find? (fun x : Stream => x.spec.number == number)).bind Stream.current
  | none => none

/-- A recipe bound to a command's handles: what a run of it needs. -/
structure Bound where
  recipe : PlanRecipe
  inputs : List (Option Handle)
  layers : List (Option StreamSlot)
  outputs : List (Option Handle)

/-- The shape an input has: its handle's, or its stream layer's source's. -/
def State.boundShape (s : State) (h : Option Handle) (l : Option StreamSlot) : Option Shape :=
  match h, l with
  | some h, _ => some h.shape
  | none, some l => (l.source.bind s.handle?).map Handle.shape
  | none, none => none

/-- Whether a recipe's stream inputs all have a current layer (R169). -/
def Bound.layersIn (b : Bound) : Bool :=
  (List.range b.recipe.inputs).all (fun i => inMode b.recipe.ops i != 4 || (b.layers.getD i none).isSome)

/-- The binding of R255. -/
def State.binds (s : State) (b : Bound) (alone : Bool) : Bool :=
  let ins := (List.range 8).map (fun i => s.boundShape (b.inputs.getD i none) (b.layers.getD i none))
  let outs := (b.outputs.map (fun o => o.map Handle.shape))
  bindOk b.recipe.ops b.recipe.inputs b.recipe.outputs ((List.range 8).map (fun i => (b.inputs.getD i none).isNone))
    ins outs alone

/-- What is recorded of each input: its handle and update count; a stream's layer stands for its source (R76, R258). -/
def State.recInputs (s : State) (b : Bound) : List RecInput :=
  (List.range b.recipe.inputs).map (fun i =>
    match b.inputs.getD i none, b.layers.getD i none with
    | some h, _ => { handle := BitVec.ofNat 64 h.word, updates := h.updates }
    | none, some l => match l.source.bind s.handle? with
      | some h => { handle := BitVec.ofNat 64 h.word, updates := h.updates }
      | none => { handle := 0, updates := 0 }
    | none, none => { handle := 0, updates := 0 })

/-- The tiles of a recipe run over R rows (R235). -/
def tileCount (ops : List (BitVec 256)) (rows : Nat) : Nat := (rows + tileRows ops - 1) / tileRows ops

/-- The chain of regenerations an output with these inputs would head (R78). -/
def State.depthOver (s : State) (ins : List (Option Handle)) : Nat :=
  1 + (ins.map (fun x => match x with
    | some h => if h.fate == Fate.recompute then s.chainDepth 5 h else 0
    | none => 0)).foldl max 0

/-- Whether an input's fate preserves its bits (R77). -/
def keepsBits (x : Option Handle) : Bool := match x with
  | some h => h.fate == Fate.keep || h.fate == Fate.stash || h.fate == Fate.press || h.fate == Fate.recompute
  | none => true

/-! ### OFFLOAD (R82, R316, R317) -/

/-- OFFLOAD in MODE 0 or 1 on a checked handle. -/
def State.offloadData (s : State) (d : Desc) (t : Ticket) (h : Handle) : State :=
  let inline := d.f 193 192 = 1
  let keep := h.fate == Fate.keep
  if inline && strayBits d.payload.toNat [(8 * h.shape.size - 1, 0)] then s.complete t { status := 0x02 }
  else if h.fate == Fate.recompute then s.complete t { status := 0x18 }
  else if (keep && (inline || d.f 191 128 ≠ 0)) || (inline && 192 < h.shape.size) then s.complete t { status := 0x03 }
  else if h.state != HState.registered then s.complete t { status := 0x14 }
  else if s.foreignReady d then s.complete t { status := 0x12 }
  else if s.placeWaits h then s
  else
    let f := fillOf d t (s.descCtx d) (if keep then h.keepAddr else if inline then 0 else d.f 191 128)
    let f := if inline then { f with readyBlocks := 0, blocksIn := 1 } else f
    let h := if inline then { h with content := natTab h.shape.size d.payload.toNat } else h
    match s.beginFill h f with
    | .error e => s.complete t { status := e }
    | .ok s => s.takeSource h.key

/-- OFFLOAD in MODE 2 fills a host-produced RECOMPUTE handle (R82, R255, R317, R700). -/
def State.offloadRecipe (s : State) (d : Desc) (t : Ticket) (h : Handle) : State :=
  let fail (e : BitVec 8) : State := s.complete t { status := e }
  let ctx := s.descCtx d
  match s.namedAll ctx ((List.range 8).map (fun i => d.p (8 + 8 * i) 8)) with
  | .error e => fail e
  | .ok ins =>
    if h.fate != Fate.recompute || h.perms.producer then fail 0x18
    else if !ins.all keepsBits then fail 0x18
    else if h.state != HState.registered then fail 0x14
    else match (ins.filterMap (fun x => x.bind inputState)).head? with
      | some e => fail e
      | none =>
        if ins.any (fun x => (x.map Handle.state) == some HState.filling) then s
        else if s.foreignReady d then fail 0x12
        else match s.recipe? ctx (d.p 0 2) with
          | none => fail 0x26
          | some rec_ =>
            let layers := (List.range 8).map (fun i =>
              if inMode rec_.ops i = 4 then s.currentLayer ctx (inStream rec_.ops i) else none)
            let b : Bound := { recipe := rec_, inputs := ins, layers := layers, outputs := [some h] }
            if !b.layersIn then s
            else if !s.binds b true then fail 0x26
            else if 4 < s.depthOver ins then fail 0x14
            else
              let (k0, k1) := match s.ctx? ctx with
                | some c => runKey c.seedLo c.seedHi h.key.obj
                | none => (0, 0)
              let r : RecipeRef :=
                { number := rec_.number, ops := rec_.ops, outputs := rec_.outputs, inputs := s.recInputs b, outIdx := 0,
                  tiles := tileCount rec_.ops h.shape.rows, key0 := k0, key1 := k1 }
              match s.beginFill { h with recipe := some r } (fillOf d t ctx (d.f 191 128)) with
              | .error e => fail e
              | .ok s => s.takeSource h.key

/-- What R313 checks of OFFLOAD. -/
def offloadSpec (d : Desc) : DescSpec :=
  let mode := d.f 193 192
  { job := true, admin := true, ext := mode == 1 || mode == 2, moves := true
    used := [(193, 64), (217, 208), (287, 224)]
    payload := if mode = 2 then [(0, 2), (8, 64)] else [(0, 192)]
    range := mode != 3 && !(mode == 2 && 1023 < d.p 0 2)
    addrs := [(d.f 191 128, 1)] }

/-- OFFLOAD (Table 9-6, R317). -/
def execOffload (d : Desc) (s : State) : Out :=
  let mode := d.f 193 192
  .next (s.withDesc d (offloadSpec d) (fun t s =>
    match s.named (s.descCtx d) (d.f 127 64) with
    | .error e => s.complete t { status := e }
    | .ok h => if mode = 2 then s.offloadRecipe d t h else s.offloadData d t h))

/-! ### OFFLOAD_FWD (R76 to R78, R251, R700) -/

/-- Regenerations for those of a run's inputs that are LATENT (R78). -/
def State.spawnInputs (s : State) (id prio : Nat) (ins : List (Option Handle)) : Except (BitVec 8) State :=
  (ins.zipIdx).foldl (fun (a : Except (BitVec 8) State) x => match a, x.1 with
    | .ok s, some y => if y.fate == Fate.recompute then s.regenerate 5 y (.input id x.2) none prio none else .ok s
    | a, _ => a) (.ok s)

/-- A stream layer as an input of a run, read from its slot (R169, R258). -/
def State.layerInput (s : State) (l : StreamSlot) : RunInput :=
  match l.source.bind s.handle? with
  | some h => { s.snapInput 4 h with data := l.data, poison := l.poison, ready := true }
  | none => noInput

/-- OFFLOAD_FWD once every check has passed but the quota's: all its handles enter FILLING and its run is accepted, or
nothing is changed (R140, R700). -/
def State.forward (s : State) (d : Desc) (t : Ticket) (b : Bound) (i0 : Handle) (outs : List (Nat × Handle)) :
    Except (BitVec 8) State :=
  let ctx := s.descCtx d
  let id := s.eng.nextRun
  let key := match s.ctx? ctx, outs.head? with
    | some c, some o => runKey c.seedLo c.seedHi o.2.key.obj
    | _, _ => (0, 0)
  let rows := ((outs.head?).map (fun o => o.2.shape.rows)).getD 0
  let ref (j : Nat) : RecipeRef :=
    { number := b.recipe.number, ops := b.recipe.ops, outputs := b.recipe.outputs, inputs := s.recInputs b, outIdx := j,
      tiles := tileCount b.recipe.ops rows, key0 := key.1, key1 := key.2 }
  let source := if i0.fate == Fate.keep then i0.keepAddr else d.f 127 64
  let f := { fillOf d t ctx source with run := some id }
  let begun := outs.foldl (fun (a : Except (BitVec 8) State) o => match a with
    | .ok s => s.beginFill { o.2 with recipe := some (ref o.1) } { f with source := 0, readyBlocks := 0 }
    | .error e => .error e) (s.beginFill i0 f)
  match begun with
  | .error e => .error e
  | .ok s =>
    let s := s.takeSource i0.key
    let ins := (List.range b.recipe.inputs).map (fun i =>
      match b.inputs.getD i none, b.layers.getD i none with
      | some h, _ => match s.handle? h.key with
        | some y => if i = 0 then { s.snapInput (inMode b.recipe.ops 0) y with ready := f.readyBlocks = 0 }
            else s.snapInput (inMode b.recipe.ops i) y
        | none => noInput
      | none, some l => s.layerInput l
      | none, none => noInput)
    let os : List RunOutput := outs.map (fun o => o.2.asOutput (d.p (96 + 8 * o.1) 8))
    let r : Run :=
      { id := id, kind := .produce, ticket := some t, ctx := ctx, prio := d.prio.toNat, number := b.recipe.number,
        ops := b.recipe.ops, key0 := key.1, key1 := key.2, inputs := ins, outputs := os,
        tiles := tileCount b.recipe.ops rows, tolerant := false, todo := [], standing := [], dups := [], disagreed := 0,
        sampled := 0, status := 0, restore := none, target := some i0.key }
    (s.addRun r).spawnInputs id d.prio.toNat (b.inputs.take b.recipe.inputs)

/-- OFFLOAD_FWD on its handles, in the order of R700. -/
def State.offloadFwd (s : State) (d : Desc) (t : Ticket) : State :=
  let fail (e : BitVec 8) : State := s.complete t { status := e }
  let ctx := s.descCtx d
  match s.namedAll ctx ((List.range 12).map (fun i => d.p (8 * i) 8)) with
  | .error e => fail e
  | .ok hs =>
    let ins := hs.take 8
    let outs := hs.drop 8
    let lazyOut := outs.any (fun x => (x.map Handle.fate) == some Fate.recompute)
    match ins.headD none with
    | none => fail 0x26
    | some i0 =>
      if i0.fate == Fate.recompute || (lazyOut && !ins.all keepsBits) then fail 0x18
      else if i0.state != HState.registered || outs.any (fun x => match x with
          | some o => o.state != HState.registered
          | none => false) then fail 0x14
      else match ((ins.drop 1).filterMap (fun x => x.bind inputState)).head? with
        | some e => fail e
        | none =>
          if (ins.drop 1).any (fun x => match x with
              | some h => h.state == HState.filling || s.permuting h.key
              | none => false) then s
          else match s.recipe? ctx (d.f 137 128) with
            | none => fail 0x26
            | some rec_ =>
              let layers := (List.range 8).map (fun i =>
                if inMode rec_.ops i = 4 then s.currentLayer ctx (inStream rec_.ops i) else none)
              let b : Bound := { recipe := rec_, inputs := ins, layers := layers, outputs := outs }
              let live := (outs.zipIdx).filterMap (fun x => x.1.map (fun h => (x.2, h)))
              if !b.layersIn then s
              else if !s.binds b false then fail 0x26
              else if lazyOut && 4 < s.depthOver ins then fail 0x14
              else if s.foreignReady d then fail 0x12
              else if s.placeWaits i0 || live.any (fun o => s.placeWaits o.2) then s
              else match s.forward d t b i0 live with
                | .ok s => s
                | .error e => fail e

/-- What R313 checks of OFFLOAD_FWD. -/
def offloadFwdSpec (d : Desc) : DescSpec :=
  { job := true, admin := true, ext := true, moves := true
    used := [(137, 64), (217, 208), (287, 224)], payload := [(0, 128)]
    addrs := (d.f 127 64, 1) :: (List.range 4).map (fun j => (d.p (96 + 8 * j) 8, 1)) }

/-- OFFLOAD_FWD (Tables 9-6 and 9-7). -/
def execOffloadFwd (d : Desc) (s : State) : Out :=
  .next (s.withDesc d (offloadFwdSpec d) (fun t s => s.offloadFwd d t))

/-! ### Fill events -/

/-- READY_BLOCK_READ: the next source block is read once the readiness counter has reached its step (R316). -/
def execReadyBlockRead (k : HKey) (s : State) : Out :=
  match s.handle? k with
  | some h => match h.fill with
    | some f =>
      let block := f.nextBlock
      let target := f.readyBase + BitVec.ofNat 32 (block / max 1 f.readyBlocks + 1)
      if h.state == HState.filling && f.readyBlocks ≠ 0 && block < blockCount h.shape.size
          && reached (s.hostCtr f.readyHub f.readyCtr) target then
        let s := s.setHandle { h with fill := some { f with nextBlock := block + 1 } }
        .next (s.sendRead (h.stripeHub (block / 512)) (f.source + block * 4096)
          (min 4096 (h.shape.size - block * 4096)) (.readyBlock k block))
      else .next s
    | none => .next s
  | none => .next s

/-- The status a fill or layer ends with. -/
def HopEnd.code : HopEnd → BitVec 8
  | .ok => 0 | .checkFailed => 0x21 | .tierFault => 0x22 | .readOnly => 0x23

/-- FILL_COMPLETE: the last block of a fill is confirmed, or read through, and the handle leaves FILLING; or the fill
ends with an error (R57, R59, R76). -/
def execFillComplete (k : HKey) (result : HopEnd) (s : State) : Out :=
  if s.stalled then .next s else
  match s.handle? k with
  | some h => match h.fill with
    | some f =>
      if h.state != HState.filling then .next s
      else if result != HopEnd.ok then .next (s.failFill h (HopEnd.code result))
      else if f.op.isSome || s.anyOnLanes k then .next s
      else match f.run with
        | none =>
          if !h.sourceIn f then .next s
          else
            let m := h.marks
            let tiles := match h.recipe with
              | some r => if f.source = 0 then [] else (List.range r.tiles).map (fun i =>
                  let rs := h.shape.rowSize
                  let n := min h.shape.rows ((i + 1) * tileRows r.ops) - i * tileRows r.ops
                  digestRange h.content (i * tileRows r.ops * rs) (n * rs))
              | none => []
            let empty := h.fate == Fate.recompute && f.source = 0
            let x := h.received h.content m.poison Flags3.none (!empty)
            let x := if empty then { x with marks := Marks.none } else x
            .next (s.endFill { x with marks := { x.marks with tiles := tiles, tilesKnown := !tiles.isEmpty } } f)
        | some id =>
          match s.run? id with
          | some r =>
            if r.target == some k then
              if !h.sourceIn f then .next s
              else
                let x := h.received h.content h.marks.poison Flags3.none true
                .next (((s.settleFill x).runWaiting k).endProduce id)
            else if s.runOver r then .next (((s.settleFill h).runWaiting k).endProduce id)
            else .next s
          | none => .next s
    | none => .next s
  | none => .next s

/-! ### RESTORE (R58, R59, R85 to R88) -/

/-- The checks on a restore's range and form, after those on its handle (R58, R85, R176). -/
def restoreCheck (h : Handle) (off len dest : Nat) (glint : Bool) : Option (BitVec 8) :=
  let stop := if len = 0 then h.shape.size else off + len
  if h.state == HState.discarded then some 0x1C
  else if h.state == HState.registered then some 0x14
  else if h.shape.size ≤ off || h.shape.size < stop then some 0x13
  else if glint && (h.fate == Fate.narrow || off % 4096 ≠ 0 || dest % 64 ≠ 0
      || (len % 4096 ≠ 0 && stop ≠ h.shape.size)) then some 0x19
  else none

/-- A restore that passed its checks: it waits for a fill, and runs otherwise (R59). -/
def State.acceptRestore (s : State) (h : Handle) (w : WaitingRestore) : State :=
  if h.state == HState.filling then s.setHandle { h with waiting := h.waiting ++ [w] } else s.startRestore h w

/-- What R313 checks of RESTORE. -/
def restoreSpec (d : Desc) : DescSpec :=
  { job := true, admin := true, moves := true
    used := [(127, 64), (167, 128), (231, 192), (319, 256), (321, 320)]
    addrs := [(d.f 319 256, 1)] }

/-- RESTORE (Table 9-8). -/
def execRestore (d : Desc) (s : State) : Out :=
  .next (s.withDesc d (restoreSpec d) (fun t s =>
    match s.named (s.descCtx d) (d.f 127 64) with
    | .error e => s.complete t { status := e }
    | .ok h =>
      let off := d.f 167 128
      let glint := d.f 320 320 == 1
      match restoreCheck h off (d.f 231 192) (d.f 319 256) glint with
      | some e => s.complete t { status := e }
      | none =>
        if !s.tiersUp h || s.permuting h.key then s
        else s.acceptRestore h { ticket := t, ringCtx := s.descCtx d, offset := off, length := d.f 231 192,
                                 dest := d.f 319 256, glint := glint, release := d.f 321 321 == 1,
                                 prio := d.prio.toNat, batch := none }))

/-! ### MIGRATE (R56, R62 to R68, R141, R701) -/

/-- Whether Table 2-5 lists a change and its condition holds (R52, R55, R56). -/
def changeAllowed (h : Handle) (goal : Fate) : Bool :=
  match h.fate, goal with
  | .stash, .stash | .press, .press | .narrow, .narrow => true
  | .stash, .press => !h.perms.mutable
  | .press, .stash => true
  | .stash, .narrow | .press, .narrow => h.perms.narrow && !h.perms.mutable
  | .stash, .recompute | .press, .recompute => h.perms.producer && h.recipe.isSome && !h.perms.mutable
  | .recompute, .stash | .recompute, .press => true
  | _, _ => false

/-- Whether every recipe input of a handle is live (R56). -/
def State.inputsLive (s : State) (h : Handle) : Bool :=
  match h.recipe with
  | some r => r.inputs.all (fun i => i.handle == 0 || (match s.handle? (wordKey i.handle.toNat) with
      | some x => x.state != HState.freeing && x.gen.toNat = i.handle.toNat % 256
      | none => false))
  | none => false

/-- The units a placement names. -/
def State.placeUnits (s : State) (pl : Placement) : List TierUnit :=
  (s.unitList pl).flatMap (fun i =>
    if pl.tier = 2 then (List.finRange 16).map (fun b => TierUnit.shade (hubOf i) b)
    else if pl.tier = 3 then [.umbra (Fin.ofNat 8 i)] else [.penumbra (Fin.ofNat 32 i)])

/-- R64 step 1 on the target units: TIER_FAULT or TIER_READ_ONLY when none of them takes stripes. -/
def State.targetStatus (s : State) (pl : Placement) : Option (BitVec 8) :=
  let us := s.placeUnits pl
  if us.any (fun u => (s.unitState u).takes) then none
  else if us.isEmpty || us.any (fun u => s.unitState u == UnitState.out) then some 0x22 else some 0x23

/-- Whether a stripe already lies at a target (R66): in the units it names, in the form asked for. -/
def State.atTarget (s : State) (h : Handle) (pl : Placement) (goal : Fate) (k : Nat) : Bool :=
  match h.homes[k]? with
  | some x => h.fate == goal && x.unit.tier == pl.tier && (s.placeUnits pl).any (fun u => s.sameUnit u x.unit)
  | none => false

/-- A migration that has passed its checks starts: the target tier is charged unless the handle is charged there
already, and stripes begin their copies (R64 steps 2 and 3, R141, R701). -/
def State.startMigrate (s : State) (h : Handle) (goal : Fate) (pl : Placement) (prio : Nat) (t : Option Ticket) :
    Except (BitVec 8) State :=
  let n := chargeFor pl.tier h.shape.size
  let free := h.homes.all (fun x => x.unit.tier == pl.tier) && h.fate != Fate.recompute || h.charged pl.tier ≠ 0
  if !free && !s.ledgerTakes h.key.ctx pl.tier n then .error 0x17
  else
    let s := if free then s else s.charge h.key.ctx pl.tier n
    let h := if free then h else h.setCharged pl.tier n
    let todo := (List.range (stripeCount h.shape.size)).filter (fun k => !s.atTarget h pl goal k)
    let m : Mig := { order := s.nextMigOrder, fate := goal, place := pl, prio := prio, ticket := t, drain := false,
                     byController := t.isNone, todo := todo, copies := [], committed := 0, old := [], ending := none }
    if h.fate == Fate.recompute then
      match s.placeAll pl h.key.obj h.shape.size (List.range (stripeCount h.shape.size)) with
      | none => .error 0x17
      | some p =>
        let copies : List Copy := (p.chosen.zipIdx).map (fun x => { stripe := x.2, target := s.homeIn x.1 .plain })
        let s := (s.placed h.key.ctx p).setHandle { h with mig := some { m with todo := [], copies := copies } }
        let s := (List.range p.chosen.length).foldl (fun (s : State) k => s.laneWork h m k) s
        (match s.handle? h.key with
          | some x => s.regenerate 5 x .materialize t prio none
          | none => .ok s)
    else .ok ((s.setHandle { h with state := .migrating, mig := some m }).pumpMigs)

/-- A dematerialization: the home is released, the charges are returned and the recipe is kept; the inputs are pinned
again (Tables 2-5 and 2-7). -/
def State.dematerialize (s : State) (h : Handle) : State :=
  (s.returnCharges h).setHandle { h with state := .latent, fate := .recompute, homes := [], content := [], chargeShade := 0,
                                         chargeUmbra := 0, chargePenumbra := 0 }

/-- MIGRATE on a checked handle, in the order of R58, R64 step 1 and R56. -/
def State.migrate (s : State) (d : Desc) (t : Ticket) (h : Handle) : State :=
  let fail (e : BitVec 8) : State := s.complete t { status := e }
  let goal := Fate.ofCode (d.f 130 128)
  let pl : Placement := { tier := d.f 323 320, hubMask := d.f 339 336, stackMask := d.f 351 344, peer := d.f 359 352 }
  if h.state != HState.resident && h.state != HState.latent then fail 0x14
  else if goal != Fate.recompute && (pl.tier = 0 || (pl.tier = 2 && pl.hubMask = 0) || (pl.tier = 3 && pl.stackMask = 0)) then
    fail 0x03
  else if !changeAllowed h goal then fail 0x18
  else if (h.state == HState.latent) != (h.fate == Fate.recompute) then fail 0x14
  else if (h.fate == Fate.recompute || goal == Fate.recompute) && !s.inputsLive h then fail 0x14
  else if goal == Fate.recompute then
    (s.dematerialize h).complete t { status := 0, flags := h.marks.bits, xbytes := h.resultBytes [h.marks.digest] 0 0 }
  else if (pl.tier = 3 && !s.start.umbra) || (pl.tier = 4 && !s.start.links) || s.hasPending h.key || s.permuting h.key then s
  else match s.targetStatus pl with
    | some e => fail e
    | none => match s.startMigrate h goal pl d.prio.toNat (some t) with
      | .ok s => s
      | .error e => fail e

/-- What R313 checks of MIGRATE. -/
def migrateSpec (d : Desc) : DescSpec :=
  { job := true, admin := true, moves := true
    used := [(130, 64), (323, 320), (339, 336), (359, 344)]
    range := d.f 130 128 ≤ 5 && (d.f 323 320 = 0 || (2 ≤ d.f 323 320 && d.f 323 320 ≤ 4))
      && d.f 359 352 < 32 }

/-- MIGRATE (Table 9-8). -/
def execMigrate (d : Desc) (s : State) : Out :=
  .next (s.withDesc d (migrateSpec d) (fun t s =>
    match s.named (s.descCtx d) (d.f 127 64) with
    | .error e => s.complete t { status := e }
    | .ok h => s.migrate d t h))

/-- A materialized handle whose stripes are all committed is RESIDENT with its new fate (Table 2-7). -/
def State.settleMigration (s : State) (k : HKey) : State :=
  match s.handle? k with
  | some h => match h.mig with
    | some m =>
      if h.fate == Fate.recompute && m.copies.isEmpty then s.finishMig h m else s.pumpMigs
    | none => s
  | none => s

/-- A stripe's home becomes its new location by one write of the handle entry; its old location is held until its
readers are gone (R62, R64 steps 5 and 6, R223). -/
def State.commitStripe (s : State) (h : Handle) (m : Mig) (c : Copy) : State :=
  let old := h.homes[c.stripe]?
  let (h, cause) := if m.fate == Fate.narrow && h.fate != Fate.narrow then
      let (h, n) := h.storeNarrow (s.isExhausted h.key) (decide ((h.key, c.stripe) ∈ s.codec.unverified)) c.stripe
      ({ h with marks := { h.marks with digest := tensorDigest h.content h.shape.size } }, n.cause)
    else (h, 0)
  let s := s.exhaust h.key cause
  let form : StripeForm := if m.fate == Fate.narrow then (if cause = 0 then .narrowed else .full cause) else .plain
  let homes := if c.stripe < h.homes.length then h.homes.modify c.stripe (fun _ => { c.target with form := form })
    else h.homes ++ [{ c.target with form := form }]
  let m := { m with copies := m.copies.filter (fun x : Copy => x.stripe ≠ c.stripe), committed := m.committed + 1,
                    old := match old with
                      | some u => m.old ++ [(c.stripe, u)]
                      | none => m.old }
  (s.setHandle { h with homes := homes, mig := some m }).settleMigration h.key

/-- STRIPE_COMMIT: the lowest stripe in copy is confirmed whole and committed, or its second confirmation fails and the
migration stops there (R64, R65, R146). -/
def execStripeCommit (k : HKey) (stripe : Nat) (c : Confirm) (s : State) : Out :=
  if s.stalled then .next s else
  match s.handle? k with
  | some h => match h.mig with
    | some m => match m.copies with
      | x :: _ =>
        let making := s.eng.runs.any (fun r : Run => r.kind == RunKind.materialize && r.target == some k)
        if x.stripe ≠ stripe || making || (c == Confirm.good && s.onLanes k stripe) then .next s
        else match c with
          | .good => .next (s.commitStripe h m x)
          | .failedTwice =>
            let s := s.event h.key.entry (ev 0x0071 1 h.word)
            if h.fate == Fate.recompute then .next (s.abortMaterialize h m 0x21)
            else .next ((s.stopMig h m 0x21).pumpMigs)
      | [] => .next s
    | none => .next s
  | none => .next s

/-- OLD_LOCATION_RELEASE: no reader that began on a committed stripe's old location remains, and it is released; the
migration ends with the last one (R64 steps 6 and 7, R71). -/
def execOldLocationRelease (k : HKey) (stripe : Nat) (s : State) : Out :=
  match s.handle? k with
  | some h => match h.mig with
    | some m =>
      if !m.old.any (fun x => x.1 == stripe) then .next s
      else
        let m := { m with old := m.old.filter (fun x => x.1 ≠ stripe) }
        let s := s.setHandle { h with mig := some m }
        if m.ending.isSome && m.old.isEmpty then .next ((s.finishMig { h with mig := some m } m).pumpMigs)
        else .next s.pumpMigs
    | none => .next s
  | none => .next s

/-- MIGRATION_STOPPED: C3 of a hub that copies stripes is retired, which stops the migrations it copies for, or C1 of an
entry hub, which stops those of its handles; each ends with SUCCESS once its committed stripes' old locations are
released (R66). -/
def execMigrationStopped (hub : Hub) (core : StopCore) (s : State) : Out :=
  let hit (h : Handle) (m : Mig) : Bool := match core with
    | .c3 => m.copies.any (fun c : Copy => h.copyHub c.stripe == hub)
    | .c1 => h.key.entry == hub
  let ks := s.hs.list.filterMap (fun h : Handle => match h.mig with
    | some m => if h.state == HState.migrating && hit h m then some h.key else none
    | none => none)
  .next ((ks.foldl (fun (s : State) (k : HKey) => match s.handle? k with
    | some h => match h.mig with
      | some m => (s.event h.key.entry (ev 0x0071 1 h.word)).stopMig h m 0
      | none => s
    | none => s) s).pumpMigs)

/-! ### UPDATE (R61, R74, R318, R359) -/

/-- UPDATE writes its bytes into the home. -/
def State.writeUpdate (s : State) (h : Handle) (d : Desc) (off len : Nat) : State × Handle :=
  let src := d.f 319 256
  let data := if d.ext then natTab len d.payload.toNat else s.hostSlice src len
  let hit := if d.ext then [] else ((tabSlice s.host.poison src len).map (fun e => (off + e.1) / 4096)).dedup
  let whole (b : Nat) : Bool := decide (off ≤ b * 4096 ∧ min h.shape.size (b * 4096 + 4096) ≤ off + len)
  let keep := h.marks.poison.filter (fun b => !(blocksOf off len).contains b || !whole b)
  let new := hit.filter (fun b => b ∉ keep)
  let fresh := hit.filter (fun b => b ∉ h.marks.poison)
  let content := tabPaste h.content off len data
  let s := fresh.foldl (fun (s : State) _ => s.poisonCreated h.key.entry h.word) s
  (s, { h with content := content, updates := h.updates + 1,
               marks := { h.marks with poison := keep ++ new, digest := tensorDigest content h.shape.size } })

/-- UPDATE on a checked handle. -/
def State.update (s : State) (d : Desc) (t : Ticket) (h : Handle) : State :=
  let fail (e : BitVec 8) : State := s.complete t { status := e }
  let off := d.f 167 128
  let len := if d.f 231 192 = 0 then h.shape.size - off else d.f 231 192
  let count := d.f 320 320 == 1
  if d.ext && strayBits d.payload.toNat [(8 * len - 1, 0)] then fail 0x02
  else if !h.perms.mutable then fail 0x1A
  else if h.state != HState.resident && h.state != HState.migrating then fail 0x14
  else if count != (h.fate == Fate.keep) then fail 0x03
  else if h.shape.size ≤ off || h.shape.size < off + len then fail 0x13
  else if d.ext && 192 < len then fail 0x03
  else if h.mig.isSome || 0 < h.readers || !s.tiersUp h || s.hasPending h.key || s.permuting h.key then s
  else if count then
    (s.setHandle { h with updates := h.updates + 1 }).complete t
      { status := 0, result := BitVec.ofNat 64 (h.updates + 1).toNat }
  else
    let ks := (List.range ((off + len + 2097151) / 2097152 - off / 2097152)).map (fun i => off / 2097152 + i)
    let st (k : Nat) : UnitState := match h.homes[k]? with
      | some x => s.unitState x.unit
      | none => .out
    if ks.any (fun k => st k == UnitState.out) then fail 0x22
    else if ks.any (fun k => !(st k).takes) then fail 0x23
    else
      let (s, h) := s.writeUpdate h d off len
      (s.setHandle h).complete t { status := 0, result := BitVec.ofNat 64 h.updates.toNat }

/-- What R313 checks of UPDATE. -/
def updateSpec (d : Desc) : DescSpec :=
  { job := true, admin := true, ext := d.ext, moves := true
    used := [(127, 64), (167, 128), (231, 192), (320, 320)] ++ (if d.ext then [] else [(319, 256)])
    payload := [(0, if d.f 231 192 = 0 then 192 else min 192 (d.f 231 192))]
    addrs := [(d.f 319 256, 1)] }

/-- UPDATE (Table 9-8, R318). -/
def execUpdate (d : Desc) (s : State) : Out :=
  .next (s.withDesc d (updateSpec d) (fun t s =>
    match s.named (s.descCtx d) (d.f 127 64) with
    | .error e => s.complete t { status := e }
    | .ok h => s.update d t h))

/-! ### QUERY_HANDLE (R43, Table 9-11) -/

/-- The entry of a handle as page 0 returns it. -/
def State.entryBytes (s : State) (h : Handle) : List Byte :=
  let p := h.perms
  let m := h.marks
  let bit (b : Bool) (i : Nat) : Nat := if b then 2 ^ i else 0
  let tier (t : Nat) : Nat := (h.homes.filter (fun x : Home => x.unit.tier == t)).length
  let ins := (h.recipe.map RecipeRef.inputs).getD []
  leBytes 8 h.word ++ leBytes 8 (h.shape.size - 1)
    ++ leBytes 1 h.shape.format ++ leBytes 1 h.fate.code ++ leBytes 1 h.state.code ++ leBytes 1 m.bits.toNat
    ++ leBytes 1 h.shape.set
    ++ leBytes 1 (bit p.narrow 0 + bit p.tolerant 1 + bit p.mutable 2 + bit p.producer 3 + bit p.adaptNarrow 4
      + bit p.pinTier 5 + bit p.noSwap 6)
    ++ leBytes 2 h.shape.tag.toNat ++ leBytes 4 h.shape.rows ++ leBytes 4 h.shape.rowLen
    ++ leBytes 4 h.readers ++ leBytes 4 (s.pins h.key) ++ leBytes 4 h.updates.toNat ++ leBytes 4 m.poison.length
    ++ (match m.poison with
        | [] => leBytes 8 (2 ^ 64 - 1)
        | b :: bs => leBytes 8 (bs.foldl min b * 4096))
    ++ leBytes 8 m.digest.toNat
    ++ leBytes 8 h.chargeShade ++ leBytes 8 h.chargeUmbra ++ leBytes 8 h.chargePenumbra
    ++ leBytes 4 (tier 2) ++ leBytes 4 (tier 3) ++ leBytes 4 (tier 4) ++ leBytes 4 ((h.mig.map (fun x => x.copies.length)).getD 0)
    ++ leBytes 2 ((h.recipe.map RecipeRef.number).getD 0) ++ leBytes 1 ins.length ++ leBytes 1 0
    ++ leBytes 4 ((h.recipe.map RecipeRef.tiles).getD 0)
    ++ leBytes 8 ((h.recipe.map (fun r => r.key0.toNat)).getD 0) ++ leBytes 8 ((h.recipe.map (fun r => r.key1.toNat)).getD 0)
    ++ (List.range 8).flatMap (fun i => leBytes 8 ((ins[i]?).map (fun x => x.handle.toNat) |>.getD 0))
    ++ (List.range 8).flatMap (fun i => leBytes 4 ((ins[i]?).map (fun x => x.updates.toNat) |>.getD 0))
    ++ leBytes 8 h.keepAddr ++ leBytes 24 0

/-- The narrow report as page 1 returns it; all zero for a handle that is not NARROW (Table 6-7). -/
def Handle.reportBytes (h : Handle) : List Byte :=
  if h.fate != Fate.narrow then leBytes 128 0
  else
    let r := h.report
    (List.range 4).flatMap (fun i => leBytes 8 (r.levels.getD i 0)) ++ leBytes 8 r.widens
      ++ (List.range 16).flatMap (fun i => leBytes 4 (r.classes.getD i 0)) ++ leBytes 4 r.unframeable ++ leBytes 4 r.narrowed
      ++ (List.range 4).flatMap (fun i => leBytes 2 (r.full.getD i 0)) ++ leBytes 4 r.poisonedThrough
      ++ leBytes 4 r.exhausted.toNat

/-- The handle a query names: every state counts, and a FREE entry keeps only its generation (R43, R698). -/
def State.queried (s : State) (ctx w : Nat) : Except (BitVec 8) (Option Handle) :=
  if 4095 < w / 2 ^ 48 || w / 2 ^ 8 % 2 ^ 40 = 0 then .error 0x10
  else if w / 2 ^ 48 ≠ ctx then .error 0x12
  else if w % 256 = 0 || (s.genOf (wordKey w)).toNat ≠ w % 256 then .error 0x11
  else .ok (s.handle? (wordKey w))

/-- What R313 checks of QUERY_HANDLE. -/
def queryHandleSpec (d : Desc) : DescSpec :=
  { job := true, admin := true, needX := true
    used := [(129, 64), (319, 192)], range := d.f 129 128 ≤ 1 && d.f 319 288 ≤ 65536
    addrs := [(d.f 255 192, 1)] }

/-- QUERY_HANDLE (Tables 9-9 and 9-11). -/
def execQueryHandle (d : Desc) (s : State) : Out :=
  .next (s.withDesc d (queryHandleSpec d) (fun t s =>
    let w := d.f 127 64
    match s.queried (s.descCtx d) w with
    | .error e => s.complete t { status := e }
    | .ok none =>
      s.complete t { status := 0, result := BitVec.ofNat 64 w
                     xbytes := if d.f 129 128 = 0 then leBytes 8 w ++ leBytes 248 0 else leBytes 128 0 }
    | .ok (some h) =>
      let tiles := (List.range (d.f 319 288)).flatMap (fun i =>
        leBytes 8 ((h.marks.tiles[d.f 287 256 + i]?).map BitVec.toNat |>.getD 0))
      let s := if d.f 255 192 = 0 then s else s.hostWrite (d.f 255 192) tiles
      s.complete t { status := 0, result := BitVec.ofNat 64 h.word
                     xbytes := if d.f 129 128 = 0 then s.entryBytes h else h.reportBytes }))

end Sys2Proof.Machine
end

