-- ==== Sys2Proof/Machine/PlanImage.lean ====
section
/-!
DEFINITION. The plan image: its records, the checks of LOAD_PLAN in the order of Table 3-13, the recipe checks of
Table 7-8, and the plan an accepted image makes (chapters 03 and 07).
-/
namespace Sys2Proof.Machine

/-! ### Records (Tables 3-3 to 3-14) -/

/-- A record as its position and 512-bit value. -/
structure Record where
  pos : Nat
  w : Nat

/-- Bits of a record. -/
def Record.f (r : Record) (hi lo : Nat) : Nat := bitsOf r.w hi lo

/-- TYPE (Table 3-3). -/
def Record.typ (r : Record) : Nat := r.f 63 56

/-- The records of one type. -/
def ofType (rs : List Record) (t : Nat) : List Record := rs.filter (fun r => r.typ == t)

/-- An image as read: its header, records and recipe section. -/
structure Image9 where
  head : Record
  records : List Record
  recipes : List (BitVec 256)
  recipeBytes : Nat
  size : Nat

/-- The fields of a record of a known TYPE above bit 63. -/
def recUsed (t : Nat) : List (Nat × Nat) :=
  match t with
  | 1 => [(511, 480), (383, 320), (312, 312), (310, 308), (306, 304), (298, 128), (127, 80), (75, 64)]
  | 2 => [(261, 128), (103, 64)]
  | 3 => [(223, 192), (163, 144), (139, 132), (130, 128), (103, 64)]
  | 4 => [(159, 144), (134, 96), (91, 64)]
  | 5 => [(319, 256), (233, 192), (167, 88), (75, 64)]
  | 6 => [(223, 96), (75, 64)]
  | 7 => [(103, 96), (91, 80), (75, 64)]
  | 8 => [(143, 96), (91, 72), (69, 64)]
  | _ => [(223, 208), (203, 196), (194, 192), (175, 144), (141, 136), (133, 128), (111, 88), (83, 80), (76, 64)]

/-- A reserved bit of a record is set; of a record of unknown TYPE only bits [55:32] are tested (0x32). -/
def Record.reserved (r : Record) : Bool :=
  r.f 55 32 != 0 || (1 ≤ r.typ && r.typ ≤ 9 && strayBits r.w ([(63, 0)] ++ recUsed r.typ))

/-- A placement's fields are within range for a fate (0x33): a tier of Table 3-7 with a mask for it, none for the fates
without a home, and a link number. -/
def placeOk (fate tier hubs stackMask peer : Nat) : Bool :=
  (tier == 0 || (2 ≤ tier && tier ≤ 4)) && !(tier == 2 && hubs == 0) && !(tier == 3 && stackMask == 0) && peer < 32
    && !((fate == 0 || fate == 4 || fate == 5) && tier != 0)

/-- The TENSOR record of an object. -/
def tensorOf (rs : List Record) (obj : Nat) : Option Record := (ofType rs 2).find? (fun t => t.f 103 64 == obj)

/-- The FATE record of an object. -/
def fateOf (rs : List Record) (obj : Nat) : Option Record := (ofType rs 3).find? (fun t => t.f 103 64 == obj)

/-- A FATE record's fields (Table 3-7, R211). -/
def fateOk (rs : List Record) (r : Record) : Bool :=
  let fate := r.f 130 128
  let narrow := fate == 3 || r.f 161 161 == 1
  fate ≤ 5 && placeOk fate (r.f 135 132) (r.f 139 136) (r.f 151 144) (r.f 159 152)
    && (narrow || r.f 223 192 == 0)
    && (!narrow || (1 ≤ r.f 199 192 && r.f 199 192 ≤ 3 && 1 ≤ r.f 207 200
        && (match tensorOf rs (r.f 103 64) with
            | some t => 1 ≤ t.f 175 168 && t.f 175 168 ≤ 3
            | none => true)))
    && !(r.f 160 160 == 1 && fate != 4) && !(r.f 161 161 == 1 && fate != 1 && fate != 2)

/-- Whether a record meets the checks of PLAN_BAD_RECORD (0x33). -/
def recordOk (rs : List Record) (r : Record) : Bool :=
  r.f 31 0 == r.pos && (match r.typ with
  | 1 => r.pos == 0 && 1 ≤ r.f 351 320 && r.f 306 304 ≤ r.f 310 308 && r.f 310 308 ≤ 6 && 1 ≤ r.f 223 192
      && r.f 255 224 % 32 == 0
  | 2 => r.f 103 64 != 0 && fmtValid (r.f 175 168)
      && shapeOk (r.f 175 168) (r.f 167 128 + 1) (r.f 223 192) (r.f 255 224)
  | 3 => fateOk rs r
  | 4 => 1 ≤ r.f 134 132 && r.f 134 132 ≤ 4 && 1 ≤ r.f 131 128 && r.f 131 128 ≤ 8 && 1 ≤ r.f 91 80
      && r.f 79 64 ≤ 1023 && r.f 127 96 % 32 == 0
  | 5 => true
  | 6 => r.f 159 128 ≤ r.f 191 160
  | 7 => 1 ≤ r.f 99 96 && r.f 99 96 ≤ r.f 103 100 && r.f 103 100 ≤ 8 && r.f 75 64 ≤ r.f 91 80
  | 8 => 1 ≤ r.f 143 128 && 1 ≤ r.f 127 96 && r.f 91 89 ≤ 6 && 1 ≤ r.f 87 80 && r.f 87 80 ≤ 8 && r.f 79 76 != 0
      && r.f 75 72 ≤ 1
  | 9 => (r.f 194 192 == 0 || r.f 194 192 == 1 || r.f 194 192 == 2 || r.f 194 192 == 5)
      && placeOk (r.f 194 192) (r.f 199 196) (r.f 203 200) (r.f 215 208) (r.f 223 216)
      && r.f 141 136 ≤ 40 && r.f 133 128 ≤ r.f 141 136 && (r.f 159 144 &&& r.f 175 160) == r.f 159 144
      && (r.f 95 88 == 0xFF || fmtValid (r.f 95 88)) && r.f 83 82 != 3 && r.f 81 80 != 3
  | _ => false)

/-! ### References (0x34, R100) -/

/-- The records that conflict with an earlier one: of each pair, the record of higher INDEX. -/
def conflicts (l : List Record) (p : Record → Record → Bool) : List Nat :=
  (l.filter (fun b => l.any (fun a => decide (a.pos < b.pos) && p a b))).map Record.pos

/-- The batch numbers RESTORE and DEADLINE records name. -/
def batchesNamed (rs : List Record) : List Nat := ((ofType rs 5).map (fun r => r.f 75 64) ++ (ofType rs 6).map (fun r => r.f 75 64)).dedup

/-- The first batch number, from 0, that none names. -/
def firstMissing (bs : List Nat) : Nat := ((List.range 4097).find? (fun b => b ∉ bs)).getD 4097

/-- The record that a batch without one of its parts is charged to: its DEADLINE, else its first RESTORE. -/
def batchRecord (rs : List Record) (b : Nat) : Nat :=
  match (ofType rs 6).find? (fun r => r.f 75 64 == b) with
  | some r => r.pos
  | none => match (ofType rs 5).find? (fun r => r.f 75 64 == b) with
    | some r => r.pos
    | none => 0

/-- Two DEADLINE records break the rising order of deadlines, or name one batch. -/
def deadlineClash (a b : Record) : Bool :=
  a.f 75 64 == b.f 75 64 || (decide (a.f 75 64 < b.f 75 64) && decide (b.f 127 96 < a.f 127 96))
    || (decide (b.f 75 64 < a.f 75 64) && decide (a.f 127 96 < b.f 127 96))

/-- Two RESTOREs of one object, the one of the lower batch with RELEASE. -/
def releaseClash (a b : Record) : Bool :=
  a.f 127 88 == b.f 127 88 && ((decide (a.f 75 64 < b.f 75 64) && a.f 233 233 == 1)
    || (decide (b.f 75 64 < a.f 75 64) && b.f 233 233 == 1))

/-- Two WINDOWs cover a common batch. -/
def windowClash (bs : List Nat) (a b : Record) : Bool :=
  bs.any (fun n => a.f 75 64 ≤ n && n ≤ a.f 91 80 && b.f 75 64 ≤ n && n ≤ b.f 91 80)

/-- The records the reference checks name (0x34). -/
def referenceFails (rs : List Record) : List Nat :=
  let tensors := ofType rs 2
  let fates := ofType rs 3
  let restores := ofType rs 5
  let bs := batchesNamed rs
  let gap := firstMissing bs
  let later := bs.filter (fun b => gap < b)
  let same (hi lo : Nat) (a b : Record) : Bool := a.f hi lo == b.f hi lo
  (tensors.filter (fun t => (fateOf rs (t.f 103 64)).isNone)).map Record.pos
    ++ (fates.filter (fun t => (tensorOf rs (t.f 103 64)).isNone)).map Record.pos
    ++ conflicts tensors (same 103 64) ++ conflicts fates (same 103 64)
    ++ conflicts (ofType rs 4) (same 79 64) ++ conflicts (ofType rs 8) (same 69 64) ++ conflicts (ofType rs 9) (same 71 64)
    ++ conflicts (ofType rs 6) deadlineClash ++ conflicts restores releaseClash
    ++ conflicts (ofType rs 7) (windowClash bs)
    ++ (restores.filter (fun r => match tensorOf rs (r.f 127 88), fateOf rs (r.f 127 88) with
        | none, _ => true
        | some _, some x => x.f 130 128 == 5
        | some _, none => false)).map Record.pos
    ++ (match later with
        | [] => []
        | b :: bs' => let low := bs'.foldl min b
          (rs.filter (fun r => (r.typ == 5 || r.typ == 6) && r.f 75 64 == low)).map Record.pos)
    ++ (bs.filter (fun b => !restores.any (fun r => r.f 75 64 == b)
        || !(ofType rs 6).any (fun r => r.f 75 64 == b)
        || !(ofType rs 7).any (fun r => r.f 75 64 ≤ b && b ≤ r.f 91 80))).map (batchRecord rs)

/-- A RESTORE with GLINT of what cannot go to a glint, or at a range that is not whole blocks (0x19, R85). -/
def glintFails (rs : List Record) : List Nat :=
  ((ofType rs 5).filter (fun r =>
    r.f 232 232 == 1 && (match fateOf rs (r.f 127 88), tensorOf rs (r.f 127 88) with
      | some x, some t => x.f 130 128 == 3 || x.f 161 161 == 1 || r.f 167 128 % 4096 != 0
          || (r.f 231 192 != 0 && r.f 231 192 % 4096 != 0 && r.f 167 128 + r.f 231 192 != t.f 167 128 + 1)
      | _, _ => false))).map Record.pos

/-- A FATE that R52 or R55 does not permit (0x18). -/
def permitFails (rs : List Record) : List Nat :=
  ((ofType rs 3).filter (fun x => match tensorOf rs (x.f 103 64) with
    | some t => (x.f 130 128 == 4 && t.f 260 260 == 0 && x.f 160 160 == 0)
        || (t.f 261 261 == 1 && x.f 130 128 != 0 && x.f 130 128 != 1)
    | none => false)).map Record.pos

/-! ### Recipe checks (R240, R254, R275, Table 7-8) -/

/-- The bits an op's row of Table 7-7 gives a meaning (R240); none for a code the table does not list. -/
def opUsed (o : OpRec) : Option (List (Nat × Nat)) :=
  let vd := (20, 16)
  let va := (25, 21)
  let vb := (30, 26)
  let vc := (35, 31)
  let fm := (15, 8)
  let span := (39, 36)
  let port := (43, 40)
  let acc := (45, 44)
  let round := (47, 46)
  let imm0 := (95, 64)
  let imm1 := (127, 96)
  let aa := (159, 128)
  let ctr := match o.mode % 4 with
    | 0 => (68, 64)
    | 1 => (72, 64)
    | _ => (71, 64)
  match o.opcode with
  | 0x01 => some [(72, 64), (119, 96), (175, 128), (51, 48)]
  | 0x02 => some [imm0, imm1]
  | 0x03 => some [(50, 48), ctr, imm1]
  | 0x04 => some [(49, 48), ctr, imm1]
  | 0x08 => some [vd, span, fm, port, (48, 48), imm0, imm1]
  | 0x09 => some [va, span, fm, port, imm0]
  | 0x0A => some [vd, span, fm, imm0]
  | 0x0B => some [va, span, fm, imm0]
  | 0x0C => some [port, fm, imm0, imm1, (140, 128)]
  | 0x0D => some [port, acc, fm, round, imm0, aa]
  | 0x10 | 0x11 | 0x12 => some [vd, va, vb, span, fm, round]
  | 0x13 => some [vd, va, vb, vc, span, fm, round]
  | 0x14 | 0x15 => some [vd, va, vb, span, fm]
  | 0x16 | 0x17 | 0x19 => some [vd, va, span, fm, round, imm0]
  | 0x18 => some [vd, va, span, fm]
  | 0x1A | 0x1B | 0x1C | 0x1D => some [vd, va, span, fm, round]
  | 0x20 => some [vd, va, vb, vc, span, fm, round, acc, imm0, imm1, aa]
  | 0x21 => some [vd, va, vb, span, fm, round, acc, imm0, imm1, aa]
  | 0x24 | 0x25 => some [acc, va, span, fm, imm1, aa]
  | 0x26 => some [acc, imm1, aa]
  | 0x27 | 0x31 => some [vd, span, fm, round, acc, aa]
  | 0x28 => some [vd, span, fm, round, port, (49, 48), imm0, (99, 96)]
  | 0x2C => some [vd, va, vb, span, fm, imm0, imm1]
  | 0x2D => some [fm, imm0, imm1, (136, 128), (152, 144)]
  | 0x30 => some [acc, fm, port, (48, 48), imm0, (108, 96), (115, 112), aa]
  | 0x34 => some [vd, span, fm, (79, 64), imm1, aa, (51, 48)]
  | 0x35 => some [vd, va, vb, span, fm, round, imm0]
  | 0x36 => some [vd, va, span, fm, round, (51, 48), (79, 64), imm1, aa]
  | 0x37 => some [vd, va, span, fm, imm1]
  | 0x38 | 0x3A => some [vd, va, span, fm, round, (71, 64)]
  | 0x39 => some [vd, va, span, fm, (71, 64)]
  | 0x3C => some [va, span, fm, imm1]
  | _ => none

/-- Fields: the code is listed and no bit is set that it does not use (R240). -/
def opFieldsOk (w : BitVec 256) : Bool :=
  match opUsed (opFields w) with
  | some l => !strayBits w.toNat ((7, 0) :: l)
  | none => false

/-- A format of the arithmetic row of Table 8-3. -/
def isScalar (f : Nat) : Bool := 1 ≤ f && f ≤ 5

/-- The formats a recipe op accepts (R275, Table 8-3), with ROUND 0, or 1 where the op rounds. -/
def opFormatOk (o : OpRec) : Bool :=
  let reg := 1 ≤ o.fmt && o.fmt ≤ 0x0B
  let src := o.imm0 % 256
  o.round ≤ 1 && (match o.opcode with
  | 0x01 | 0x02 | 0x26 => true
  | 0x03 | 0x04 => o.mode % 4 != 3
  | 0x08 | 0x09 | 0x0A | 0x0B | 0x0C | 0x3C | 0x2C | 0x2D => reg
  | 0x34 => o.fmt == 0x0B
  | 0x30 => o.fmt == 2 || (4 ≤ o.fmt && o.fmt ≤ 9)
  | 0x38 => 6 ≤ o.fmt && o.fmt ≤ 0x0A && 1 ≤ src && src ≤ 3
  | 0x39 => 1 ≤ o.fmt && o.fmt ≤ 3 && 6 ≤ src && src ≤ 0x0A
  | 0x3A => isScalar o.fmt && isScalar src
  | 0x28 => isScalar o.fmt && o.mode % 4 != 3
  | _ => isScalar o.fmt)

/-- Registers that hold n elements of a format, a block format's side data included. -/
def regsFor (fmt n : Nat) : Nat :=
  (n * elemBits fmt + 8 * (if isBlockFmt fmt then n / 32 * (if fmt = 0x0A then 2 else 1) else 0) + 8191) / 8192

/-- The registers an op names: each span's base and length (R241). -/
def opSpans (o : OpRec) : List (Nat × Nat) :=
  let n := o.span + 1
  let src := o.imm0 % 256
  let d := (o.vd, n)
  let a := (o.va, n)
  let b := (o.vb, n)
  match o.opcode with
  | 0x08 | 0x0A | 0x27 | 0x28 | 0x31 | 0x34 => [d]
  | 0x09 | 0x0B | 0x24 | 0x25 | 0x3C => [a]
  | 0x10 | 0x11 | 0x12 | 0x14 | 0x15 | 0x21 | 0x2C => [d, a, b]
  | 0x13 | 0x20 => [d, a, b, (o.vc, n)]
  | 0x16 | 0x17 | 0x18 | 0x19 | 0x1A | 0x1B | 0x1C | 0x1D | 0x36 => [d, a]
  | 0x35 => [d, a, (o.vb, (opN o + 8191) / 8192)]
  | 0x37 => [(o.vd, (o.imm1 + 8191) / 8192), a]
  | 0x38 => [(o.vd, regsFor o.fmt (n * perReg src)), a]
  | 0x39 => [d, (o.va, regsFor src (opN o))]
  | 0x3A => [d, (o.va, regsFor src (opN o))]
  | _ => []

/-- Counts an op states a range for: elements within its vectors, sides of a matrix, mask bits (Table 7-7, R247). -/
def opCountsOk (o : OpRec) : Bool :=
  match o.opcode with
  | 0x20 | 0x21 => 1 ≤ o.imm1 && o.imm1 ≤ opN o
  | 0x24 | 0x25 | 0x3C => o.imm1 ≤ opN o
  | 0x37 => o.imm1 ≤ opN o
  | 0x2C => o.imm0 + o.imm1 ≤ opN o
  | 0x2D => 1 ≤ bitsOf o.imm2 8 0 && bitsOf o.imm2 8 0 ≤ 256 && 1 ≤ bitsOf o.imm2 24 16 && bitsOf o.imm2 24 16 ≤ 256
  | 0x34 => 1 ≤ o.imm1 && o.imm1 ≤ 8192 * (o.span + 1)
  | 0x30 => 1 ≤ bitsOf o.imm1 12 0 && bitsOf o.imm1 12 0 ≤ 4096 && (rowBytes o.fmt (bitsOf o.imm1 12 0)).isSome
  | 0x0C => 1 ≤ bitsOf o.imm2 12 0 && bitsOf o.imm2 12 0 ≤ 4096 && (rowBytes o.fmt (bitsOf o.imm2 12 0)).isSome
  | 0x01 => 1 ≤ o.imm0 && o.imm0 ≤ 256
  | _ => true

/-- Ports and Modes: what PORT names, and the mode it has. -/
def opPortOk (ops : List (BitVec 256)) (ins outs : Nat) (o : OpRec) : Bool :=
  let input (p : Nat) (modes : List Nat) : Bool := p < ins && inMode ops p ∈ modes
  match o.opcode with
  | 0x08 => input o.port (if bitOf o.mode 0 then [1] else [1, 2])
  | 0x0C => input o.port [1]
  | 0x30 => input o.port [3, 4]
  | 0x28 => input o.port [5] && input (bitsOf o.imm1 3 0) [5]
  | 0x09 | 0x0D => 8 ≤ o.port && o.port < 8 + outs
  | _ => true

/-- The entries an op touches from the accumulator address of a row. -/
def accExtent (o : OpRec) : Option Nat :=
  match o.opcode with
  | 0x0D => some o.imm0
  | 0x20 => some 2
  | 0x21 | 0x24 | 0x25 => some 1
  | 0x26 => if o.imm1 = 0 then none else some o.imm1
  | 0x27 | 0x31 => some (opN o)
  | 0x30 => some 256
  | _ => none

/-- Accumulators: the entries over all rows of a tile exist, and the set is of the kind the op needs. -/
def opAccOk (ops : List (BitVec 256)) (o : OpRec) : Bool :=
  (match accExtent o with
    | some n => decide (accAddr o (tileRows ops - 1) + n ≤ 65536)
    | none => true)
  && (match o.opcode with
    | 0x20 | 0x21 => !setExact ops o.acc
    | 0x24 | 0x25 => setExact ops o.acc == (o.fmt == 4 || o.fmt == 5)
    | 0x30 => setExact ops o.acc == (o.fmt != 2)
    | _ => true)

/-- The size of an engine's working area (Table 7-1). -/
def workArea : Nat := 2031616

/-- Local store: the regions an op names lie in the working area. -/
def opStoreOk (ops : List (BitVec 256)) (o : OpRec) : Bool :=
  match o.opcode with
  | 0x0A | 0x0B => decide (o.imm0 + 1024 * (o.span + 1) ≤ workArea)
  | 0x0C => decide (o.imm0 + tileRows ops * rowPitch o.fmt (bitsOf o.imm2 12 0) ≤ workArea)
  | 0x30 => decide (o.imm0 + tileRows ops * rowPitch o.fmt (bitsOf o.imm1 12 0) ≤ workArea)
  | 0x2D =>
    let n := elemBytes o.fmt (bitsOf o.imm2 8 0 * bitsOf o.imm2 24 16)
    decide (o.imm0 + n ≤ workArea ∧ o.imm1 + n ≤ workArea)
  | _ => true

/-- Loops: each body holds an op, lies within the recipe and within the body around it, and no more than two are open;
`opens` holds the first op after each open body. -/
def loopsOk (n : Nat) : List (OpRec × Nat) → List Nat → Bool
  | [], _ => true
  | (o, i) :: rest, opens =>
    let opens := opens.filter (fun e => i < e)
    if o.opcode = 2 then
      let stop := i + 1 + o.imm1
      decide (1 ≤ o.imm1 ∧ stop ≤ n) && opens.all (fun e => stop ≤ e) && opens.length < 2 && loopsOk n rest (opens ++ [stop])
    else loopsOk n rest opens

/-- The ops of a RECIPE record, where its extent lies in the recipe section. -/
def recipeOps (img : Image9) (r : Record) : Option (List (BitVec 256)) :=
  if r.f 127 96 % 32 = 0 && r.f 127 96 + 32 * r.f 91 80 ≤ img.recipeBytes then
    some ((img.recipes.drop (r.f 127 96 / 32)).take (r.f 91 80))
  else none

/-- The checks of Table 7-8 on a recipe. -/
def recipeOk (img : Image9) (r : Record) : Bool :=
  match recipeOps img r with
  | none => false
  | some ops =>
    let os := ops.map opFields
    let ins := r.f 131 128
    let outs := r.f 134 132
    let streams := (ofType img.records 8).map (fun x => x.f 69 64)
    ((os.headD (opFields 0)).opcode == 1) && (os.drop 1).all (fun o => o.opcode != 1)
      && ops.all opFieldsOk
      && os.all (fun o => opFormatOk o && opCountsOk o && (opSpans o).all (fun x => decide (x.1 + x.2 ≤ 32))
        && opPortOk ops ins outs o && opAccOk ops o && opStoreOk ops o)
      && (List.range 8).all (fun i => inMode ops i ≤ 5 && (i < ins || inMode ops i == 0)
        && (inMode ops i == 4 || inStream ops i == 0) && (inMode ops i != 4 || inStream ops i ∈ streams))
      && (List.range outs).all (fun j => os.any (fun o => (o.opcode == 9 || o.opcode == 0x0D) && o.port == 8 + j))
      && loopsOk os.length os.zipIdx []

/-! ### Limits (Table 3-1) -/

/-- The records beyond a limit, each by its INDEX. -/
def limitFails (img : Image9) : List Nat :=
  let beyond (t n : Nat) : List Nat := ((ofType img.records t).drop n).map Record.pos
  (if 131072 < img.head.f 223 192 || 1048576 < img.recipeBytes then [0] else [])
    ++ beyond 2 32768 ++ beyond 4 1024 ++ beyond 8 64 ++ beyond 9 256
    ++ (batchesNamed img.records).flatMap (fun b =>
        (((ofType img.records 5).filter (fun r => r.f 75 64 == b)).drop 256).map Record.pos)

/-- The lowest INDEX of a list. -/
def lowestOf (l : List Nat) : Option Nat := match l with
  | [] => none
  | a :: as => some (as.foldl min a)

/-! ### The plan an image makes -/

/-- A placement as its record gives it; HOME_TIER 0 with a stored fate is Umbra over all stacks (R107). -/
def placeOf (fate tier hubs stackMask peer : Nat) : Placement :=
  if tier = 0 && 1 ≤ fate && fate ≤ 3 then defaultPlace
  else { tier := tier, hubMask := hubs, stackMask := stackMask, peer := peer }

/-- A TENSOR record with its FATE record. -/
def planTensor (rs : List Record) (t : Record) : Option PlanTensor :=
  (fateOf rs (t.f 103 64)).map (fun x =>
    let fate := x.f 130 128
    let producer := t.f 260 260 == 1
    let mutable_ := t.f 261 261 == 1
    { obj := t.f 103 64
      shape := { size := t.f 167 128 + 1, format := t.f 175 168, rows := t.f 223 192, rowLen := t.f 255 224,
                 tag := BitVec.ofNat 16 (t.f 191 176), set := t.f 259 256 }
      producer := producer, mutable := mutable_, fate := Fate.ofCode fate
      place := placeOf fate (x.f 135 132) (x.f 139 136) (x.f 151 144) (x.f 159 152)
      perms := { narrow := fate == 3, tolerant := x.f 160 160 == 1, mutable := mutable_, producer := producer,
                 adaptNarrow := x.f 161 161 == 1, pinTier := x.f 162 162 == 1, noSwap := x.f 163 163 == 1, planned := true,
                 narrowFormat := x.f 199 192, errorBound := x.f 207 200, widenBudget := x.f 223 208 } })

/-- The batches of an image, in ascending number, each with its restores in record order. -/
def planBatches (rs : List Record) : List PlanBatch :=
  (List.range (firstMissing (batchesNamed rs))).filterMap (fun b =>
    match (ofType rs 6).find? (fun r => r.f 75 64 == b), (ofType rs 7).find? (fun r => r.f 75 64 ≤ b && b ≤ r.f 91 80) with
    | some d, some w => some
      { deadline := d.f 127 96, openTicks := d.f 159 128, openMax := d.f 191 160, afterMark := d.f 223 192,
        look := w.f 99 96, lookMax := w.f 103 100
        restores := ((ofType rs 5).filter (fun r => r.f 75 64 == b)).map (fun r =>
          { obj := r.f 127 88, offset := r.f 167 128, length := r.f 231 192, dest := r.f 319 256, glint := r.f 232 232 == 1,
            release := r.f 233 233 == 1 }) }
    | _, _ => none)

/-- A RULE record (Table 3-14). -/
def planRule (r : Record) : Rule :=
  { number := r.f 71 64, priority := r.f 75 72, enable := r.f 76 76 == 1, producerSel := r.f 81 80, mutableSel := r.f 83 82,
    format := r.f 95 88, hsetMask := r.f 111 96, sizeMin := r.f 133 128, sizeMax := r.f 141 136, tagValue := r.f 159 144,
    tagMask := r.f 175 160, fate := Fate.ofCode (r.f 194 192)
    place := placeOf (r.f 194 192) (r.f 199 196) (r.f 203 200) (r.f 215 208) (r.f 223 216) }

/-- The plan of an accepted image. -/
def planOf (img : Image9) : Plan :=
  let h := img.head
  { planId := BitVec.ofNat 64 (h.f 191 128), stepTicks := h.f 287 256
    markCounter := if h.f 298 298 = 1 then some (hubOf (h.f 297 296), h.f 295 288) else none
    basePrio := h.f 306 304, prioMax := h.f 310 308, controllerEn := h.f 312 312 == 1, guardTicks := h.f 351 320,
    fillTicks := h.f 367 352, migrateBudget := h.f 383 368, imageBytes := img.size
    tensors := (ofType img.records 2).filterMap (planTensor img.records)
    recipes := (ofType img.records 4).filterMap (fun r => (recipeOps img r).map (fun ops =>
      { number := r.f 79 64, inputs := r.f 131 128, outputs := r.f 134 132, cost := r.f 159 144, ops := ops }))
    batches := planBatches img.records
    streams := (ofType img.records 8).map (fun r =>
      { number := r.f 69 64, kind := r.f 75 72, hubMask := r.f 79 76, depth := r.f 87 80, chain := r.f 88 88 == 1,
        prio := r.f 91 89, layerBlocks := r.f 127 96, layers := r.f 143 128 })
    rules := (ofType img.records 9).map planRule }

/-! ### The image as read, and its checks in order -/

/-- The image a LOAD_PLAN names, or none where it is no plan image (0x30): the header's TYPE and MAGIC, the extent, the
CRC with its own field taken as 0, and no poisoned byte read. -/
def State.readImage (s : State) (addr bytes : Nat) : Option Image9 :=
  let head : Record := { pos := 0, w := s.hostNum addr 64 }
  let count := head.f 223 192
  let recipeBytes := head.f 255 224
  let size := count * 64 + recipeBytes
  if bytes < 64 || bytes < size || head.typ != 1 || head.f 127 96 != 0x4145504C then none
  else
    let all := s.hostRead addr size
    let crc := crc32c ((all.take 60) ++ List.replicate (min 64 size - 60) 0 ++ all.drop 64)
    if crc.toNat != head.f 511 480 || !(s.hostPoisonBlocks addr size).isEmpty then none
    else some
      { head := head
        records := (List.range count).map (fun i => { pos := i, w := leValue ((all.drop (64 * i)).take 64) })
        recipes := (List.range (recipeBytes / 32)).map (fun i =>
          BitVec.ofNat 256 (leValue ((all.drop (64 * count + 32 * i)).take 32)))
        recipeBytes := recipeBytes, size := size }

/-- The first failing check of an image in the order of Table 3-13, before the Shade charge, with the INDEX it names. -/
def imageCheck (img : Image9) (ctx : Nat) : Option (BitVec 8 × Nat) :=
  let rs := img.records
  let bad (l : List Nat) (st : BitVec 8) : Option (BitVec 8 × Nat) := (lowestOf l).map (fun i => (st, i))
  let at_ (p : Record → Bool) : List Nat := (rs.filter p).map Record.pos
  (bad (if img.head.f 95 88 != 1 || img.head.f 87 80 != 0 then [0] else []) 0x31)
    |>.orElse (fun _ => bad (if img.head.f 75 64 != ctx then [0] else []) 0x12)
    |>.orElse (fun _ => bad (limitFails img) 0x35)
    |>.orElse (fun _ => bad (at_ Record.reserved) 0x32)
    |>.orElse (fun _ => bad ((if recordOk rs img.head then [] else [0]) ++ at_ (fun r => !recordOk rs r)) 0x33)
    |>.orElse (fun _ => bad (referenceFails rs) 0x34)
    |>.orElse (fun _ => bad (glintFails rs) 0x19)
    |>.orElse (fun _ => bad (permitFails rs) 0x18)
    |>.orElse (fun _ => bad (at_ (fun r => r.typ == 4 && !recipeOk img r)) 0x3B)

end Sys2Proof.Machine
end

