-- ==== Sys2Proof/Machine/SyncOps.lean ====
section
/-!
DEFINITION. What the sync block's meanings share: waiters on a host-visible counter, and realignment (R469, R484).
-/
namespace Sys2Proof.Machine

/-- SYN_BAR_CFG fields (Table 13-10). -/
def BarSlot.on (b : BarSlot) : Bool := b.cfg.getLsbD 31
def BarSlot.grouped (b : BarSlot) : Bool := b.cfg.getLsbD 30
def BarSlot.group (b : BarSlot) : Nat := bitsOf b.cfg.toNat 29 26
def BarSlot.hubs (b : BarSlot) : List Nat := maskList 4 (bitsOf b.cfg.toNat 25 22)
def BarSlot.wakes (b : BarSlot) : Bool := b.cfg.getLsbD 21
def BarSlot.arriveCtr (b : BarSlot) : Nat := bitsOf b.cfg.toNat 20 13
def BarSlot.releaseCtr (b : BarSlot) : Nat := bitsOf b.cfg.toNat 12 5
def BarSlot.ctx (b : BarSlot) : Nat := bitsOf b.cfg2.toNat 31 20
def BarSlot.arriveStep (b : BarSlot) : Nat := bitsOf b.cfg2.toNat 19 12
def BarSlot.timeoutMs (b : BarSlot) : Nat := bitsOf b.cfg2.toNat 11 0

/-- A tile of a hub stalls in a WAIT on a host-visible counter (R265). -/
def State.tileWaits (s : State) (h : Hub) (c : Nat) : Bool :=
  (List.range 13).any (fun e => match (s.engine h e).tile with
    | some t =>
      t.waiting.isSome && (match s.run? t.run with
        | some r =>
          let o := opFields (r.ops.getD t.pc 0)
          o.opcode == 3 && o.mode % 4 == 2 && o.imm0 % 256 == c
        | none => false)
    | none => false)

/-- A fill still waits for a readiness counter (R316). -/
def State.fillWaits (s : State) (h : Hub) (c : Nat) : Bool :=
  s.hs.list.any (fun x : Handle => match x.fill with
    | some f => f.readyBlocks ≠ 0 && f.readyHub == h && f.readyCtr == c && f.nextBlock < blockCount x.shape.size
    | none => false)

/-- A barrier slot waits for its arrivals on a counter (R479). -/
def State.barWaits (s : State) (h : Hub) (c : Nat) : Bool :=
  s.syn.bars.toList.any (fun b : BarSlot => b.state == BarState.waiting && h.val ∈ b.hubs && b.arriveCtr == c)

/-- Whether a waiter is pending on a counter (R469, R484). -/
def State.ctrWaited (s : State) (h : Hub) (c : Nat) : Bool := s.tileWaits h c || s.fillWaits h c || s.barWaits h c

/-- A counter set to 0 at a realignment: no raise, and its realignment count rises (R484). -/
def State.zeroCtr (s : State) (h : Hub) (c : Nat) : State :=
  let s := s.setHostCtr h c 0
  let y := s.syn.hubs[h]
  s.setSync h { y with realigns := tabPut 0 y.realigns c (tabGet 0 y.realigns c + 1) }

/-- A counter reaches a realignment point (R484). -/
def State.realign (s : State) (h : Hub) (c : Nat) : State :=
  let w := (s.ctrCfg h c).toNat
  let p := bitsOf w 22 15
  if bitOf w 23 then
    if s.hostCtr h c == s.hostCtr h p && !s.ctrWaited h c && !s.ctrWaited h p then
      if p = c then s.zeroCtr h c else (s.zeroCtr h c).zeroCtr h p
    else s.event h (ev 0x0061 1 (c + p * 256 + (s.hostCtr h c).toNat * 2 ^ 32))
  else if !s.ctrWaited h c then s.zeroCtr h c
  else s.event h (ev 0x0061 1 (c + p * 256 + (s.hostCtr h c).toNat * 2 ^ 32))

/-- Whether a counter's pair is realigned with its lower-numbered half (R484: both are set together, once). -/
def State.pairedBelow (s : State) (h : Hub) (sel : Nat → Bool) (c : Nat) : Bool :=
  let w := (s.ctrCfg h c).toNat
  let p := bitsOf w 22 15
  let v := (s.ctrCfg h p).toNat
  bitOf w 23 && decide (p < c) && sel v && bitOf v 23 && bitsOf v 22 15 == c

/-- The counters of a hub whose SYN_CTR_CFG passes a test reach a realignment point, in ascending order; a counter whose
configuration is at its reset value is owned by no context. -/
def State.realignOn (s : State) (sel : Nat → Bool) (h : Hub) : State :=
  (s.syn.hubs[h].cfg.filter (fun e => sel e.2.toNat && !s.pairedBelow h sel e.1)).foldl
    (fun (s : State) e => s.realign h e.1) s

/-- The counters of every hub that pass a test reach a realignment point. -/
def State.realignWhere (s : State) (sel : Nat → Bool) : State :=
  (List.finRange 4).foldl (fun (s : State) (h : Hub) => s.realignOn sel h) s

end Sys2Proof.Machine
end

