-- ==== Sys2Proof/Machine/Plans.lean ====
section
/-!
DEFINITION. Plans, steps and batches: LOAD_PLAN, STEP_BEGIN, MARK, STEP_END, and the issue and completion of batches
(chapter 03).
-/
namespace Sys2Proof.Machine

/-! ### Charges (R92, R159, Table 4-2) -/

/-- The Shade charge of a plan's copy. -/
def Plan.copyCharge (p : Plan) : Nat := roundUp p.imageBytes 65536

/-- The Shade charge of a stream's window (R159). -/
def PlanStream.windowCharge (x : PlanStream) : Nat :=
  roundUp (x.depth * x.layerBlocks * 4096) 65536 * (if x.chain then (maskList 4 x.hubMask).length else 1)

/-- Whether a stream carries over to a new plan's record (R158). -/
def PlanStream.carries (a b : PlanStream) : Bool :=
  a.number == b.number && a.kind == b.kind && a.hubMask == b.hubMask && a.depth == b.depth
    && a.layerBlocks == b.layerBlocks && a.chain == b.chain

/-- What a plan's acceptance charges: its copy, and the windows that no stream of the active plan brings along. -/
def Ctx.planCharge (c : Ctx) (p : Plan) : Nat :=
  p.copyCharge + ((p.streams.filter (fun x => !c.streams.any (fun y : Stream => y.spec.carries x))).map
    PlanStream.windowCharge).sum

/-! ### A plan becomes active (R94, R104, R158) -/

/-- The restore of a layer that a slot fetches no longer reads its source (R165). -/
def State.dropReader (s : State) (k : HKey) : State :=
  match s.handle? k with
  | some h => s.setHandle { h with readers := h.readers - 1 }
  | none => s

/-- A stream ends: its queued arms end with ABORTED, and fetches under way end (R158). -/
def State.endStream (s : State) (x : Stream) : State :=
  let s := x.slots.foldl (fun (s : State) (y : StreamSlot) => match y.state, y.source with
    | .fetching, some k => s.dropReader k
    | _, _ => s) s
  (x.queue.filter (fun e : ArmEntry => !e.flushed)).foldl
    (fun (s : State) (e : ArmEntry) => s.complete e.ticket { status := 0x25 }) s

/-- An empty slot of a window. -/
def StreamSlot.none : StreamSlot :=
  { state := .empty, entry := 0, layer := 0, source := Option.none, offset := 0, size := 0, format := 0, press := false,
    ports := [], data := [], poison := [], releaseMark := 0,
    flushed := false }

/-- The stream of a new plan's record: carried over, or new. -/
def streamOf (old : List Stream) (x : PlanStream) : Stream :=
  match old.find? (fun y : Stream => y.spec.carries x) with
  | some y => { y with spec := x }
  | none => { spec := x, queue := [], nextSerial := 0, slots := List.replicate x.depth StreamSlot.none }

/-- A plan becomes a context's active plan: the old plan's charges are returned, its streams end or carry over, and its
rules become the policy table (R92, R104, R158). -/
def State.activate (s : State) (ctx : Nat) (p : Plan) : State :=
  match s.ctx? ctx with
  | none => s
  | some c =>
    let gone := c.streams.filter (fun y : Stream => !p.streams.any (fun x => y.spec.carries x))
    let back := ((c.active.map Plan.copyCharge).getD 0) + (gone.map (fun y : Stream => y.spec.windowCharge)).sum
    let s := (gone.foldl State.endStream s).charge ctx 2 (-(back : Int))
    match s.ctx? ctx with
    | none => s
    | some c => s.setCtx { c with active := some p, staged := none, rules := p.rules,
                                  streams := p.streams.map (streamOf c.streams) }

/-! ### LOAD_PLAN (R90 to R94, R100) -/

/-- LOAD_PLAN acts (Table 3-2). A refusal names an INDEX in RESULT (Table 9-13). -/
def State.loadPlan (s : State) (d : Desc) (t : Ticket) : State :=
  let fail (e : BitVec 8) (i : Nat) : State := s.complete t { status := e, result := BitVec.ofNat 64 i }
  let ctx := s.descCtx d
  match s.ctx? ctx with
  | none => fail 0x51 0
  | some c =>
    if c.staged.isSome then fail 0x36 0
    else match s.readImage (d.f 127 64) (d.f 159 128) with
      | none => fail 0x30 0
      | some img => match imageCheck img ctx with
        | some (e, i) => fail e i
        | none =>
          let p := planOf img
          let n := c.planCharge p
          if !s.ledgerTakes ctx 2 n then fail 0x17 0
          else
            let s := s.charge ctx 2 n
            let s := match s.ctx? ctx with
              | some c => s.setCtx { c with planRing := d.ring.toNat }
              | none => s
            let s := if c.step.isSome then (match s.ctx? ctx with
                | some c => s.setCtx { c with staged := some p }
                | none => s)
              else s.activate ctx p
            s.complete t { status := 0, result := p.planId }

/-- What R313 checks of LOAD_PLAN. -/
def loadPlanSpec (d : Desc) : DescSpec :=
  { job := true, admin := false, used := [(159, 64)], range := d.f 159 128 ≤ 9437184
    addrs := [(d.f 127 64, 64)] }

/-- LOAD_PLAN (Table 9-9). -/
def execLoadPlan (d : Desc) (s : State) : Out :=
  .next (s.withDesc d (loadPlanSpec d) (fun t s => s.loadPlan d t))

/-! ### Steps (R94 to R97) -/

/-- A batch before a step issues it. -/
def BatchRun.fresh (prio : Nat) : BatchRun :=
  { issued := false, done := false, prio := prio, widened := false, actions := 0, stage := 0, ended := [] }

/-- A step's start opens the gates of the arm entries that wait for its number (R163). -/
def Stream.openGate (number : BitVec 32) (x : Stream) : Stream :=
  { x with queue := x.queue.map (fun e : ArmEntry =>
      ({ e with gateOpen := e.gateOpen || number.toNat % 65536 == e.stepLow } : ArmEntry)) }

/-- STEP_BEGIN acts: the step begins, exhaustion ends, and the context's counters that realign at STEP_BEGIN do so (R94,
R223, R468, R484). -/
def State.stepBegin (s : State) (d : Desc) (t : Ticket) : State :=
  let ctx := s.descCtx d
  match s.ctx? ctx with
  | none => s.complete t { status := 0x51 }
  | some c =>
    let foreign := match c.active.bind Plan.markCounter with
      | some (h, m) => !s.ownsCtr h m ctx
      | none => false
    if c.step.isSome then s.complete t { status := 0x38 }
    else if foreign then s.complete t { status := 0x12 }
    else
      let bs := match c.active with
        | some p => p.batches.map (fun _ => BatchRun.fresh p.basePrio)
        | none => []
      let r : StepRun := { number := BitVec.ofNat 32 (d.f 95 64), start := s.tick, batches := bs, calm := 0,
                           ending := none }
      let s := s.setCtx { c with step := some r, exhausted := [], mark := 0, lastStep := some r.number,
                                 streams := c.streams.map (Stream.openGate r.number) }
      let s := s.realignWhere (fun w => bitOf w 31 && bitsOf w 11 0 == ctx && bitsOf w 28 27 == 1)
      s.complete t { status := 0, result := BitVec.ofNat 64 s.tick }

/-- What R313 checks of STEP_BEGIN. -/
def stepBeginSpec : DescSpec :=
  { job := true, admin := false, used := [(95, 64)] }

/-- STEP_BEGIN (Table 9-9). -/
def execStepBegin (d : Desc) (s : State) : Out :=
  .next (s.withDesc d stepBeginSpec (fun t s => s.stepBegin d t))

/-- The running step of a context, with the context. -/
def State.stepOf (s : State) (ctx : Nat) : Option (Ctx × StepRun) :=
  (s.ctx? ctx).bind (fun c => c.step.map (fun r => (c, r)))

/-- What R313 checks of MARK. -/
def markSpec : DescSpec :=
  { job := true, admin := false, used := [(95, 64)] }

/-- MARK (R94, Table 9-9). -/
def execMark (d : Desc) (s : State) : Out :=
  .next (s.withDesc d markSpec (fun t s =>
    match s.stepOf (s.descCtx d) with
    | none => s.complete t { status := 0x39 }
    | some (c, _) =>
      let m := BitVec.ofNat 32 (d.f 95 64)
      if m ≤ c.mark then s.complete t { status := 0x3A }
      else (s.setCtx { c with mark := m }).complete t { status := 0 }))

/-- What R313 checks of STEP_END. -/
def stepEndSpec : DescSpec :=
  { job := true, admin := false }

/-- STEP_END: batches not issued are cancelled; it completes once those issued are complete (R94). -/
def execStepEnd (d : Desc) (s : State) : Out :=
  .next (s.withDesc d stepEndSpec (fun t s =>
    match s.stepOf (s.descCtx d) with
    | none => s.complete t { status := 0x39 }
    | some (c, r) =>
      if r.ending.isSome then s.complete t { status := 0x39 }
      else
        let n := (r.batches.filter (fun b : BatchRun => !b.issued)).length
        s.setCtx { c with step := some { r with ending := some (t, n) } }))

/-- Step counts of nothing. -/
def StepCounts.zero : StepCounts :=
  { completed := 0, late := 0, lateSum := 0, lateWorst := 0, priority := 0, widen := 0, faster := 0, unpress := 0,
    narrow := 0, none := 0, exhausted := 0, ties := 0 }

/-- The step counts as STEP_END returns them (Table 9-14). -/
def StepCounts.bytes (k : StepCounts) (length : Nat) : List Byte :=
  leBytes 4 k.completed ++ leBytes 4 k.late ++ leBytes 8 k.lateSum ++ leBytes 4 k.lateWorst ++ leBytes 4 k.priority
    ++ leBytes 4 k.widen ++ leBytes 4 k.faster ++ leBytes 4 k.unpress ++ leBytes 4 k.narrow ++ leBytes 4 k.none
    ++ leBytes 4 k.exhausted ++ leBytes 4 k.ties ++ leBytes 4 0 ++ leBytes 8 length

/-- STEP_END_COMPLETE: the issued batches of an ended step are complete; the counts are returned and cleared, and a staged
plan becomes active (R94, R104, R124). -/
def execStepEndComplete (ctx : Nat) (s : State) : Out :=
  match s.stepOf ctx with
  | some (c, r) => match r.ending with
    | some (t, n) =>
      if r.batches.any (fun b : BatchRun => b.issued && !b.done) then .next s
      else
        let len := s.tick - r.start
        let s := s.setCtx { c with step := none, counts := StepCounts.zero }
        let s := s.complete t { status := 0, result := BitVec.ofNat 64 (n % 65536 + len % 2 ^ 32 * 2 ^ 32)
                                xbytes := c.counts.bytes len }
        let shown := s.regs.lastCounts.filter (fun x : Nat × List Byte => x.1 ≠ ctx)
        let s := { s with regs := { s.regs with lastCounts := shown ++ [(ctx, c.counts.bytes len)] } }
        .next (match c.staged with
          | some p => s.activate ctx p
          | none => s)
    | none => .next s
  | none => .next s

/-! ### Batches (R108 to R112, R123 to R125) -/

/-- The ticks a step has run. -/
def StepRun.now (r : StepRun) (tick : Nat) : Nat := tick - r.start

/-- How many batches are in flight. -/
def StepRun.inFlight (r : StepRun) : Nat := (r.batches.filter (fun b : BatchRun => b.issued && !b.done)).length

/-- The tick from which a batch may issue, widened or not (R108). -/
def PlanBatch.gate (b : PlanBatch) (widened : Bool) : Nat := b.deadline - (if widened then b.openMax else b.openTicks)

/-- The batches in flight a batch issues beside (R108). -/
def PlanBatch.lookahead (b : PlanBatch) (widened : Bool) : Nat := if widened then b.lookMax else b.look

/-- The four conditions of R108 on batch `b`. -/
def StepRun.mayIssue (r : StepRun) (mark tick b : Nat) (p : PlanBatch) (x : BatchRun) : Bool :=
  !x.issued && r.ending.isNone && (r.batches.take b).all (fun y : BatchRun => y.issued)
    && decide (p.afterMark ≤ mark) && decide (p.gate x.widened ≤ r.now tick)
    && decide (r.inFlight < p.lookahead x.widened)

/-- Restore `i` of a batch starts as a RESTORE of its object's current generation (R109). -/
def State.batchRestore (s : State) (ctx ring b prio i : Nat) (p : PlanRestore) : State :=
  let k : HKey := { ctx := ctx, obj := p.obj }
  let t : Ticket := { ring := ring, sseq := 0, quiet := false, xres := false, resultAddr := 0 }
  match s.named ctx (handleWord k (s.genOf k)) with
  | .error e => s.batchEnded ctx b i e
  | .ok h =>
    if 2 ^ 57 ≤ p.dest then s.batchEnded ctx b i 0x05
    else match restoreCheck h p.offset p.length p.dest p.glint with
      | some e => s.batchEnded ctx b i e
      | none => s.acceptRestore h { ticket := t, ringCtx := ctx, offset := p.offset, length := p.length, dest := p.dest,
                                    glint := p.glint, release := p.release, prio := prio, batch := some (b, i) }

/-- BATCH_ISSUE: the next batch issues at the first moment R108 allows, its restores in record order (R108, R109). It
waits, as a RESTORE does, for a tier that has not come into service (R315). -/
def execBatchIssue (ctx b : Nat) (s : State) : Out :=
  if s.stalled || s.shutting then .next s else
  match s.stepOf ctx with
  | some (c, r) => match c.active.bind (fun p => p.batches[b]?), r.batches[b]? with
    | some p, some x =>
      let waits := p.restores.any (fun q => match s.handle? { ctx := ctx, obj := q.obj } with
        | some h => !s.tiersUp h || s.permuting h.key
        | none => false)
      if !r.mayIssue c.mark.toNat s.tick b p x || waits then .next s
      else
        let bs := r.batches.modify b (fun (y : BatchRun) => { y with issued := true })
        let s := s.setCtx { c with step := some { r with batches := bs } }
        .next ((p.restores.zipIdx).foldl (fun (s : State) q => s.batchRestore ctx c.planRing b x.prio q.2 q.1) s)
    | _, _ => .next s
  | none => .next s

/-- The status of restore `i` of a batch, SUCCESS where it has not ended. -/
def BatchRun.statusOf (x : BatchRun) (i : Nat) : BitVec 8 := ((x.ended.find? (fun e => e.1 == i)).map Prod.snd).getD 0

/-- A batch's status: that of its first restore, in record order, that did not succeed. -/
def BatchRun.status (x : BatchRun) (n : Nat) : BitVec 8 :=
  (((List.range n).map x.statusOf).find? (fun e => e != 0)).getD 0

/-- BATCH_COMPLETE: every restore of an issued batch has ended; the plan ring receives a completion for each that did not
succeed, then the batch's (R111, R123 to R125). -/
def execBatchComplete (ctx b : Nat) (s : State) : Out :=
  match s.stepOf ctx with
  | some (c, r) => match c.active.bind (fun p => p.batches[b]?), r.batches[b]? with
    | some p, some x =>
      let n := p.restores.length
      if !x.issued || x.done || x.ended.length < n then .next s
      else
        let late : Int := ((r.now s.tick : Nat) : Int) - (p.deadline : Int)
        let ssl := r.number.toNat % 65536
        let k := c.counts
        let over_ := late.toNat
        let k := { k with completed := k.completed + 1, late := k.late + (if 0 < late then 1 else 0),
                          lateSum := k.lateSum + over_, lateWorst := max k.lateWorst over_ }
        let bs := r.batches.modify b (fun (y : BatchRun) => { y with done := true })
        let s := s.setCtx { c with step := some { r with batches := bs }, counts := k }
        let s := (p.restores.zipIdx).foldl (fun (s : State) q =>
          let st := x.statusOf q.2
          if st = 0 then s
          else s.post c.planRing true ssl st 0 false 2 (BitVec.ofNat 64 (q.1.obj * 2 ^ 24 + b * 4096))) s
        let res := ofSigned 32 late * 2 ^ 32 + b * 2 ^ 20 + x.stage % 8 * 2 ^ 17 + x.actions.toNat * 2 ^ 12
        let s := s.post c.planRing true ssl (x.status n) 0 false 1 (BitVec.ofNat 64 res)
        .next (if 0 < late then s.event (hubOf c.planRing) (ev 0x0020 1 (ctx + b * 4096 + over_ % 2 ^ 32 * 2 ^ 32)) else s)
    | _, _ => .next s
  | none => .next s

end Sys2Proof.Machine
end

