-- ==== Sys2Proof/Machine/Units.lean ====
section
/-!
DEFINITION. Units of the tiers: reduced, frozen, drained, emptied, out and returned, and the Penumbra of a peer (R73 to
R75, R148 to R156, R402, R405, R512).
-/
namespace Sys2Proof.Machine

/-! ### What else a freeze and a loss end -/

/-- Whether a home lies in a unit. -/
def State.inUnit (s : State) (u : TierUnit) (x : Home) : Bool := s.sameUnit x.unit u

/-- GRANT is sent on one link of a bundle: the Umbra granted, and FROZEN (R402, Table 11-3). -/
def State.sendGrant (s : State) (pkg : BitVec 64) (frozen : Bool) : State :=
  match s.bundle pkg, s.peer? pkg with
  | l :: _, some p => s.sendMsg l (lmsg 2 0 (BitVec.ofNat 64 (p.grantGiven % 2 ^ 48 + (if frozen then 2 ^ 63 else 0))))
  | _, _ => s

/-- Fills whose homes lie in a unit end with a status (Table 2-9). -/
def State.failFillsIn (s : State) (u : TierUnit) (st : BitVec 8) : State :=
  let ks := (s.hs.list.filter (fun h : Handle => h.state == HState.filling && h.homes.any (s.inUnit u))).map Handle.key
  ks.foldl (fun (s : State) (k : HKey) => match s.handle? k with
    | some h => s.failFill h st
    | none => s) s

/-- Migrations that copy into a unit stop with a status; a drain takes its stripes back to be placed elsewhere (R74,
R154, Table 2-9). -/
def State.stopMigsInto (s : State) (u : TierUnit) (st : BitVec 8) : State :=
  let hit (m : Mig) : Bool := m.copies.any (fun c : Copy => s.inUnit u c.target)
  let ks := (s.hs.list.filter (fun h : Handle => match h.mig with
    | some m => hit m
    | none => false)).map Handle.key
  ks.foldl (fun (s : State) (k : HKey) => match s.handle? k with
    | some h => match h.mig with
      | some m =>
        if m.drain then
          let back := (m.copies.filter (fun c : Copy => s.inUnit u c.target)).map Copy.stripe
          let m := { m with copies := m.copies.filter (fun c : Copy => !s.inUnit u c.target), todo := back ++ m.todo }
          s.setHandle { h with mig := some m }
        else
          let s := s.event h.key.entry (ev 0x0071 1 h.word)
          if h.fate == Fate.recompute then s.abortMaterialize h m st else s.stopMig h m st
      | none => s
    | none => s) s

/-- A unit that takes stripes reports a persistent fault: it is FROZEN, or EMPTIED at once when it holds no home; fills and
migrations into it stop, peers whose windows lie in it are told, and a tier left short of its quotas is reported (R73,
R74, R144, R148, R402, R545). -/
def State.freezeUnit (s : State) (u : TierUnit) : State :=
  if !(s.unitState u).takes then s
  else
    let before := s.capacity u.tier
    let s := s.setUnit u (if s.holdsHome u then .frozen else .emptied)
    let s := s.cper 3 10 u.name 0x0031 0 3 0 0 0 0
    let s := (s.failFillsIn u 0x23).stopMigsInto u 0x23
    let s := match u with
      | .umbra k => (s.lnk.peers.filter (fun p : Peer => p.frameStacks.any (fun f => f.2 == k.val))).foldl
          (fun (s : State) (p : Peer) => s.sendGrant p.pkg true) s
      | _ => s
    (s.checkShrunk u.tier before u.hub).pumpMigs

/-- A unit becomes unreachable: handles with a home in it are FAULTED, and fills and migrations that need it end with
TIER_FAULT (R75, R148, R156). -/
def State.unitOut (s : State) (u : TierUnit) : State :=
  if s.unitState u == UnitState.out then s
  else
    let s := s.setUnit u .out
    let s := (s.failFillsIn u 0x22).stopMigsInto u 0x22
    let ks := (s.hs.list.filter (fun h : Handle => h.homes.any (s.inUnit u)
      && (h.state == HState.resident || h.state == HState.migrating))).map Handle.key
    let s := ks.foldl (fun (s : State) (k : HKey) => match s.handle? k with
      | some h =>
        let s := match h.mig with
          | some m => s.stopMig h m 0x22
          | none => s
        (match s.handle? k with
          | some x => s.setHandle { x with state := .faulted }
          | none => s)
      | none => s) s
    s.pumpMigs

/-- FAULTED handles whose whole home can be read again are RESIDENT (R75, R512). -/
def State.reviveHandles (s : State) : State :=
  { s with hs := { s.hs with list := s.hs.list.map (fun h : Handle =>
      ({ h with state := if h.state == HState.faulted && h.homes.all s.homeReadable then .resident else h.state } : Handle)) } }

/-! ### Commands -/

/-- UNIT_REDUCED: calibration drift has exceeded margin (R148, R149). -/
def execUnitReduced (u : TierUnit) (s : State) : Out :=
  .next (if s.unitState u == UnitState.inService then s.setUnit u .reduced else s)

/-- UNIT_FREEZE (R73, R74, R148). -/
def execUnitFreeze (u : TierUnit) (s : State) : Out := .next (s.freezeUnit u)

/-- The earliest deadline a running plan's unissued or unfinished batches name for a handle (R152). -/
def State.earliestDeadline (s : State) (h : Handle) : Option Nat :=
  match s.stepOf h.key.ctx with
  | some (c, r) => match c.active with
    | some p => (((p.batches.zip r.batches).filter (fun q => !q.2.done && q.1.restores.any (fun x => x.obj == h.key.obj))).map
        (fun q => r.start + q.1.deadline)).foldl (fun (a : Option Nat) d => match a with
          | none => some d
          | some b => some (min b d)) none
    | none => none
  | none => none

/-- The handles a drain moves, in its order: by earliest planned deadline, then by object number (R152). -/
def State.drainOrder (s : State) (u : TierUnit) : List HKey :=
  let hs := s.hs.list.filter (fun h : Handle => h.state == HState.resident && h.mig.isNone && h.homes.any (s.inUnit u))
  let key (h : Handle) : Nat := match s.earliestDeadline h with
    | some d => d
    | none => 2 ^ 64 + h.key.obj
  ((hs.map (fun h => (key h, h.key))).mergeSort (fun a b => decide (a.1 ≤ b.1))).map Prod.snd

/-- A handle's stripes in a unit begin to leave it, at priority 7, charged as before (R67, R74, R143, R147). -/
def State.beginDrain (s : State) (u : TierUnit) (k : HKey) : State :=
  match s.handle? k with
  | some h =>
    let todo := ((h.homes.zipIdx).filter (fun x => s.inUnit u x.1)).map Prod.snd
    let m : Mig := { order := s.nextMigOrder, fate := h.fate, place := h.place, prio := 7, ticket := none, drain := true,
                     byController := false, todo := todo, copies := [], committed := 0, old := [], ending := none }
    s.setHandle { h with state := .migrating, mig := some m }
  | none => s

/-- DRAIN_START: every handle with a home in a FROZEN unit begins to leave it (R74, R151 to R154). A handle that migrates
is drained once its migration has ended. -/
def execDrainStart (u : TierUnit) (s : State) : Out :=
  if s.unitState u != UnitState.frozen then .next s
  else .next (((s.drainOrder u).foldl (fun (s : State) (k : HKey) => s.beginDrain u k) s).pumpMigs)

/-- UNIT_EMPTIED: the last home of a FROZEN unit has been drained (R148). -/
def execUnitEmptied (u : TierUnit) (s : State) : Out :=
  .next (if s.unitState u == UnitState.frozen && !s.holdsHome u then s.setUnit u .emptied else s)

/-- A stack has lost its contents: the window frames mapped there are lost, and so is every image, whose frames lie spread
over the stacks (R502, R512, assumption 13). -/
def State.loseGuests (s : State) (k : Stack) : State :=
  let lose (p : Peer) : Peer :=
    let gone := (p.frameStacks.filter (fun f => f.2 == k.val)).map Prod.fst
    { p with frames := p.frames.filter (fun f => f ∉ gone), frameStacks := p.frameStacks.filter (fun f => f.2 ≠ k.val),
             window := p.window.filter (fun e => e.1 / 2097152 ∉ gone), poison := p.poison.filter (fun b => b / 512 ∉ gone) }
  { s with lnk := { s.lnk with peers := s.lnk.peers.map lose }, vault := { s.vault with images := [] } }

/-- UNIT_RETURN: a unit EMPTIED or OUT returns. With its epoch matching it keeps its contents, and an EMPTIED unit needs a
passing test; otherwise its epoch rises by 1, its contents are lost, and it returns empty after a passing test (R148,
R512). -/
def execUnitReturn (u : TierUnit) (epochMatches testPassed : Bool) (s : State) : Out :=
  let st := s.unitState u
  if st != UnitState.emptied && st != UnitState.out then .next s
  else if epochMatches then
    if st == UnitState.emptied && !testPassed then .next s
    else .next ((s.setUnit u .inService).reviveHandles)
  else
    let s := match u with
      | .penumbra _ => s
      | .umbra k => (s.bumpEpoch u.name).loseGuests k
      | .shade _ _ => s.bumpEpoch u.name
    .next (if testPassed then s.setUnit u .inService else s)

/-! ### Penumbra requests (R155, R156, R395) -/

/-- The link of a bundle after one, wrapping. -/
def nextLink (l : List LinkNo) (n : Nat) : Option LinkNo :=
  match l.find? (fun x => n < x.val) with
  | some x => some x
  | none => l.head?

/-- The message of a Penumbra-type request (Table 11-2). -/
def PnReq.msg (q : PnReq) : LMsg :=
  { typ := if q.write then 9 else 8, addr := q.addr, arg := 0, tag := q.tag, status := 0, poison := q.poison,
    prio := q.prio, wseq := 0, bcrc := if q.write && q.data.length = 4096 then crc32c q.data else 0,
    readLen := if q.write then 0 else q.len, data := if q.write then q.data else [] }

/-- PENUMBRA_RESEND: a request not answered within 1 ms is sent again over the next link of the bundle (R155, R395). -/
def execPenumbraResend (link : LinkNo) (tag : BitVec 16) (s : State) : Out :=
  match s.lnk.reqs.find? (fun q : PnReq => q.tag == tag && q.link == link.val) with
  | some q => match s.lnk.links[link].peer with
    | some p => match nextLink (s.bundle p.pkg) link.val with
      | some l =>
        if s.tick < q.since + msTicks then .next s
        else
          let q' : PnReq := { q with link := l.val, since := s.tick }
          let reqs := s.lnk.reqs.map (fun x : PnReq => if x.tag = tag ∧ x.link = link.val then q' else x)
          .next (({ s with lnk := { s.lnk with reqs := reqs } }).sendMsg l q'.msg)
      | none => .next s
    | none => .next s
  | none => .next s

end Sys2Proof.Machine
end

