-- ==== Sys2Proof/Machine/Links.lean ====
section
/-!
DEFINITION. Chip-to-chip links: frames, replay, retraining, spare lanes, link-up, versions, grants, remote signals, power
states and the link admin commands (R384 to R417).
-/
namespace Sys2Proof.Machine

/-! ### Leaving traffic -/

/-- A link leaves its session for a state that carries no traffic (R400, R408). -/
def State.linkDown (s : State) (l : LinkNo) (st : LState) : State := (s.leaveSession l).linkState l st

/-- Whether a link is in a state. -/
def State.linkIs (s : State) (l : LinkNo) (sts : List LState) : Bool := sts.contains s.lnk.links[l].state

/-- An idle period of a link begins, under LNK_IDLE.L1 as it stands (R416, R677). -/
def State.linkIdle (s : State) (l : LinkNo) : State :=
  s.setLink l { s.lnk.links[l] with idleSince := s.tick, l1Us := s.regs.hubs[linkHub l].lnkIdle.toNat }

/-! ### Lanes (R396 to R398) -/

/-- The end with the lower package identity drives the spare's exchange (R398). -/
def State.lowerEnd (s : State) (l : LinkNo) : Bool := match s.lnk.links[l].peer with
  | some p => decide (Config.packageId.toNat < p.pkg.toNat)
  | none => false

/-- A link runs on what its rotation holds: UP on four lanes, REDUCED on three, FAILED below (R397, R398). A link that
carries no traffic keeps its state. -/
def State.linkByLanes (s : State) (l : LinkNo) : State :=
  let k := s.lnk.links[l]
  if !s.linkIs l [.up, .reduced] then s
  else if k.map.length < 3 then s.linkDown l .failed
  else if k.state == k.running then s
  else s.linkState l k.running

/-- LANE_CTRL (Table 11-3). -/
def laneCtrlMsg (spare : Nat) (done : Bool) : LMsg := lmsg 3 0 (BitVec.ofNat 64 (spare + done.toNat * 256))

/-- A physical lane becomes bad: recorded, sent to a targeted test, and dropped from the rotation when it has lost lock or
no spare can take its place; an unused spare begins to train (R396 to R398). -/
def State.laneGoesBad (s : State) (l : LinkNo) (lane : Nat) (lostLock : Bool) : State :=
  let k := s.lnk.links[l]
  if lane ∈ k.bad then s
  else
    let s := s.event (linkHub l) (evU 0x0051 1 10 l.val (lane + lostLock.toNat * 8))
    let s := s.sendTest { hub := l.val / 8, kind := 10, index := l.val, sub := lane } 6
    let k := { k with bad := k.bad ++ [lane] }
    if lane ∈ k.map then
      let fresh := k.spareState == 0
      let drops := lostLock || !(fresh || k.spareState == 1)
      let k := { k with map := if drops then k.map.erase lane else k.map,
                        spareState := if fresh then 1 else if k.spareState = 2 then 3 else k.spareState }
      let s := s.setLink l k
      let s := if fresh && s.lowerEnd l then s.sendMsg l (laneCtrlMsg k.spare false) else s
      s.linkByLanes l
    else s.setLink l { k with spareState := if lane = k.spare then 3 else k.spareState }

/-- The spare enters the rotation in the bad lane's place, and the link is UP (R398). -/
def State.swapSpare (s : State) (l : LinkNo) : State :=
  let k := s.lnk.links[l]
  let pause := decide (k.minor < 3)
  let gone := k.bad.headD 0
  let map := if gone ∈ k.map then k.map.map (fun x => if x = gone then k.spare else x)
    else k.map.insertIdx (min gone k.map.length) k.spare
  let s := s.setLink l { k with map := map, spareState := 2, localTrained := false, peerTrained := false, swapPending := false }
  (s.event (linkHub l) (evU 0x0052 0 15 l.val (k.spare + pause.toNat * 8))).linkByLanes l

/-- A control flit of its own, carrying LANE_SWAP or POWER. -/
def Link.flag (k : Link) (swap power : Bool) : Link :=
  { k with unacked := k.unacked ++ [{ seq := k.txSeq, msg := none, flits := 0, resends := 0, swap := swap, power := power }],
           txSeq := k.txSeq + 1 }

/-- Once both ends have trained the spare, the lower end sets LANE_SWAP: at once at minor 3 or above, below it once every
frame is acknowledged, taking no new data meanwhile (R398). -/
def State.trySwap (s : State) (l : LinkNo) : State :=
  let k := s.lnk.links[l]
  if !(k.spareState == 1 && k.localTrained && k.peerTrained && s.lowerEnd l) then s
  else if 3 ≤ k.minor || k.unacked.isEmpty then (s.setLink l (k.flag true false)).swapSpare l
  else s.setLink l { k with swapPending := true }

/-- Whether a lane's error estimate exceeds LNK_LANE_BER.THRESHOLD (R396, R652, R676). -/
def State.overBer (s : State) (l : LinkNo) (lane : Nat) : Bool :=
  vLt (decodeFloat fmtFP32 s.regs.hubs[linkHub l].laneBer.toNat)
    (decodeFloat fmtFP32 (tabGet 0 s.lnk.links[l].ber lane).toNat)

/-- LANE_BAD: a lane loses codeword lock, or its error estimate exceeds the threshold (R396). -/
def execLaneBad (l : LinkNo) (lane : Fin 5) (lostLock : Bool) (s : State) : Out :=
  .next (if lostLock || s.overBer l lane.val then s.laneGoesBad l lane.val lostLock else s)

/-- LANE_CTRL: the peer names the spare to train, or has trained it (R398). -/
def execLaneCtrl (l : LinkNo) (arg : BitVec 64) (s : State) : Out :=
  let k := s.lnk.links[l]
  if !s.linkIs l [.up, .reduced] || bitsOf arg.toNat 2 0 ≠ k.spare then .next s
  else if arg.getLsbD 8 then .next ((s.setLink l { k with peerTrained := true }).trySwap l)
  else .next (s.setLink l { k with spareState := if k.spareState = 0 then 1 else k.spareState })

/-- SPARE_LANE_TRAINED: the spare has trained at this end, which says so (R398). -/
def execSpareLaneTrained (l : LinkNo) (s : State) : Out :=
  let k := s.lnk.links[l]
  if k.spareState ≠ 1 || k.localTrained then .next s
  else .next (((s.setLink l { k with localTrained := true }).sendMsg l (laneCtrlMsg k.spare true)).trySwap l)

/-! ### Frames (R388 to R394) -/

/-- The virtual channel of a type, none where Table 11-3 has no such type or it is refused (Table 12-6). -/
def typeVc (t : Nat) : Option Nat :=
  if 1 ≤ t && t ≤ 5 then some 3 else if t = 8 ∨ t = 9 then some 0 else if 0x10 ≤ t && t ≤ 0x13 then some 2
  else if t = 0x88 ∨ t = 0x89 then some 1 else none

/-- Why a receiver refuses a header: 1 its type, 2 its VC, 3 a reserved field (R390, R481). -/
def refusal (h : BitVec 256) : Option Nat :=
  let t := bitsOf h.toNat 111 104
  match typeVc t with
  | none => some 1
  | some vc =>
    if bitsOf h.toNat 103 102 ≠ vc then some 2
    else if h.getLsbD 96 || (t = 5 && (bitsOf h.toNat 31 16 ≠ 0 || bitsOf h.toNat 11 8 ≠ 0 || h.getLsbD 3)) then some 3
    else none

/-- An answer to a Penumbra-type request (Table 11-3). -/
def answerMsg (write : Bool) (tag : BitVec 16) (status : Nat) (poison : Bool) (prio : Nat) (arg : BitVec 64)
    (data : List Byte) : LMsg :=
  { typ := if write then 0x89 else 0x88, addr := 0, arg := arg, tag := tag, status := status, poison := poison,
    prio := prio, wseq := 0, bcrc := if data.length = 4096 && !poison then crc32c data else 0, readLen := 0,
    data := data }

/-- A refused message is dropped, counted and recorded; the link stays up (R390). -/
def State.refuse (s : State) (l : LinkNo) (typ cause : Nat) : State :=
  let k := s.lnk.links[l]
  let s := s.setLink l { k with counts := { k.counts with refused := k.counts.refused + 1 } }
  s.event (linkHub l) (evU 0x0053 1 15 l.val (typ + cause * 256))

/-- A refused header; a request is answered with STATUS ERROR (R390). -/
def State.refuseHeader (s : State) (l : LinkNo) (h : BitVec 256) : State :=
  match refusal h with
  | none => s
  | some c =>
    let t := bitsOf h.toNat 111 104
    let s := s.refuse l t c
    if t = 8 ∨ t = 9 then
      s.sendMsg l (answerMsg (t == 9) (BitVec.ofNat 16 (bitsOf h.toNat 127 112)) 1 false (bitsOf h.toNat 99 97) 0 [])
    else s

/-- A SIGNAL sent is done once the ACKs received cover it and every PN_WR its marks name (R409). -/
def State.signalLanded (s : State) (x : TxSignal) : Bool :=
  let waits (k : Link) (p : LMsg → Bool) : Bool :=
    k.queue.any p || k.unacked.any (fun f : UFrame => (f.msg.map p).getD false)
  !waits s.lnk.links[Fin.ofNat 32 x.link] (fun m => m.typ == 4 && bitsOf m.arg.toNat 63 32 == x.number.toNat)
    && x.marks.all (fun m => !waits s.lnk.links[Fin.ofNat 32 (bitsOf m.toNat 7 0)]
      (fun q => q.typ == 9 && decide (q.wseq.toNat ≤ bitsOf m.toNat 63 32)))

/-- Signals that are done are no longer kept (R409). -/
def State.endSignals (s : State) : State :=
  let gone := s.lnk.txSignals.filter s.signalLanded
  let s := { s with lnk := { s.lnk with txSignals := s.lnk.txSignals.filter (fun x => !s.signalLanded x) } }
  gone.foldl (fun (s : State) (x : TxSignal) => match x.ticket with
    | some t => s.complete t { status := 0 }
    | none => s) s

/-- The contents of a frame taken in order: what it acknowledges and asks for, its credits, its flags, and the headers it
carries (Table 11-1, R393, R394, R398, R416). -/
def State.takeFrame (s : State) (l : LinkNo) (f : LinkFrame) : State :=
  let k := s.lnk.links[l]
  let covered (x : UFrame) : Bool := decide ((f.ack - x.seq).toNat < 2 ^ 15)
  let slept := k.unacked.any (fun x => covered x && x.power)
  let add (a b : Nat × Nat) : Nat × Nat := (a.1 + b.1, a.2 + b.2)
  let k := { k with rxExpect := k.rxExpect + 1, ackOut := f.seq, nakOut := false, laneBadOut := 0,
                    unacked := k.unacked.filter (fun x => !covered x), nakSeen := k.nakSeen || f.nak,
                    credits := (List.range 4).map (fun i => add (k.credits.getD i (0, 0)) (f.credits.getD i (0, 0))),
                    counts := { k.counts with dataReceived := k.counts.dataReceived + 256 * f.dataUsed } }
  let s := s.setLink l (if k.swapPending then k else k.pump)
  let s := if f.headers.isEmpty then s else s.linkIdle l
  let s := if f.laneBad = 0 then s else s.laneGoesBad l (f.laneBad.toNat - 1) true
  let s := if f.laneSwap && s.lnk.links[l].spareState = 1 then s.swapSpare l else s
  let s := if s.lnk.links[l].swapPending then (s.trySwap l) else s
  let s := f.headers.foldl (fun (s : State) h => s.refuseHeader l h) s
  let s := s.endSignals
  if (f.power || slept) && s.linkIs l [.up, .reduced] then s.linkState l .l1 else s

/-- Whether a link receives frames in its state (Table 11-4). -/
def State.linkReceives (s : State) (l : LinkNo) : Bool := s.linkIs l [.hello, .up, .reduced, .downVersion]

/-- LINK_FRAME_RECEIVE: a correct frame is taken in SEQ order; any other is discarded, and answered with NAK unless it is
a copy of one already taken (R386, R387, R389 to R393). -/
def execLinkFrameReceive (l : LinkNo) (f : LinkFrame) (s : State) : Out :=
  if !s.linkReceives l then .next s
  else
    let k := s.lnk.links[l]
    let c := { k.counts with corrected := k.counts.corrected + f.corrected, uncorrectable := k.counts.uncorrectable + f.uncorrectable }
    let k := { k with counts := c }
    if !(f.codewordsOk && f.fcrcOk && f.dcrcOk) then
      let lane : BitVec 3 := match f.failingLane with
        | some p => if f.codewordsOk then k.laneBadOut else BitVec.ofNat 3 (p.val + 1)
        | none => k.laneBadOut
      .next (s.setLink l { k with nakOut := true, laneBadOut := lane })
    else if f.seq ≠ k.rxExpect then
      let old := decide ((k.rxExpect - f.seq).toNat < 2 ^ 15)
      .next (s.setLink l { k with nakOut := k.nakOut || !old })
    else .next ((s.setLink l k).takeFrame l f)

/-- LINK_RESEND: every unacknowledged frame is sent again; a frame already resent 8 times makes the link retrain (R394). -/
def execLinkResend (l : LinkNo) (s : State) : Out :=
  let k := s.lnk.links[l]
  if !k.nakSeen || !s.linkReceives l then .next s
  else if k.unacked.any (fun f : UFrame => 8 ≤ f.resends) then .next (s.linkRetrainNow l 1)
  else
    let fs := k.unacked.map (fun f : UFrame => ({ f with resends := f.resends + 1 } : UFrame))
    .next (s.setLink l { k with unacked := fs, nakSeen := false,
                                counts := { k.counts with resent := k.counts.resent + fs.length } })

/-- LINK_RETRAIN_DONE: the link goes to HELLO and a new session, or, after three failures, to FAILED (R395, R400). -/
def execLinkRetrainDone (l : LinkNo) (ok : Bool) (s : State) : Out :=
  let k := s.lnk.links[l]
  if k.state != .retrain then .next s
  else if ok then .next ((s.leaveSession l).linkHello l)
  else
    let s := s.setLink l { k with trainFails := k.trainFails + 1 }
    .next (if 3 ≤ k.trainFails + 1 then s.linkDown l .failed else s)

/-- LINK_TRAINED: four lanes, or three, have trained, and the link goes to HELLO (R400). -/
def execLinkTrained (l : LinkNo) (lanes : BitVec 5) (s : State) : Out :=
  let k := s.lnk.links[l]
  let ok := ((List.range 5).filter (fun i => lanes.getLsbD i && i ∉ k.bad)).take 4
  if k.state != .training || ok.length < 3 then .next s
  else
    let spare := if k.spare ∈ ok then 2 else k.spareState
    .next (((s.setLink l { k with map := ok, spareState := spare }).leaveSession l).linkHello l)

/-- TRAINING_RETRY: with no answer a link trains again, after 100 ms for the first 2 s and after 10 s then (R400). -/
def execTrainingRetry (l : LinkNo) (s : State) : Out :=
  let k := s.lnk.links[l]
  let gap := if k.trainSince < k.trainFirst + 2000 * msTicks then 100 * msTicks else 10000 * msTicks
  .next (if k.state == .training && k.trainSince + gap ≤ s.tick then s.setLink l { k with trainSince := s.tick } else s)

/-! ### HELLO and versions (R399, R405, R411, R413) -/

/-- The fields of HELLO data (Table 11-6). -/
def helloOf (data : BitVec 512) : PeerHello :=
  let d := data.toNat
  { pkg := BitVec.ofNat 64 (bitsOf d 63 0), hub := BitVec.ofNat 8 (bitsOf d 71 64), link := BitVec.ofNat 8 (bitsOf d 79 72),
    major := BitVec.ofNat 8 (bitsOf d 87 80), compat := BitVec.ofNat 8 (bitsOf d 95 88),
    minorMax := BitVec.ofNat 8 (bitsOf d 103 96), minorCap := BitVec.ofNat 8 (bitsOf d 111 104),
    epoch := BitVec.ofNat 32 (bitsOf d 159 128), session := BitVec.ofNat 32 (bitsOf d 191 160),
    slot := BitVec.ofNat 8 (bitsOf d 199 192), patch := BitVec.ofNat 16 (bitsOf d 215 200) }

/-- The smallest of minors and of the caps that are not 0xFF (R411). -/
def capped (m : Nat) (caps : List Nat) : Nat := (caps.filter (fun c => c ≠ 0xFF)).foldl min m

/-- The versions a link runs at, none where it is DOWN_VERSION: this firmware speaks major 1, minors 0 to 3, with
MAJOR_COMPAT 1 (R411). -/
def versions (cap : Nat) (p : PeerHello) : Option (Nat × Nat) :=
  let caps := [cap, p.minorCap.toNat]
  if p.major = 1 then some (1, capped (min 3 p.minorMax.toNat) caps)
  else if 1 < p.major.toNat then if p.compat.toNat ≤ 1 then some (1, capped 3 caps) else none
  else if 1 ≤ p.major.toNat then some (p.major.toNat, capped p.minorMax.toNat caps)
  else none

/-- Handles with a home that can no longer be read are FAULTED (R75, R405). -/
def State.faultUnread (s : State) : State :=
  let hit (h : Handle) : Bool := (h.state == HState.resident || h.state == HState.migrating) && !h.homes.all s.homeReadable
  let s := (s.hs.list.filter hit).foldl (fun (s : State) (h : Handle) => match (s.handle? h.key).bind Handle.mig, s.handle? h.key with
    | some m, some x => s.stopMig x m 0x22
    | _, _ => s) s
  let hs := s.hs.list.map (fun h : Handle => ({ h with state := if hit h then .faulted else h.state } : Handle))
  { s with hs := { s.hs with list := hs } }

/-- A peer's epoch as its HELLO names it. A new one says that its Umbra was lost: homes there stay FAULTED and what moves
there ends; this Aedvos, as its holder, releases the peer's window frames and WRITING images, and keeps its SEALED images
as orphans (R405, R501, R502). The same epoch makes its handles RESIDENT again (R75). -/
def State.peerEpoch (s : State) (l : LinkNo) (pkg : BitVec 64) (epoch : BitVec 32) : State :=
  match s.peer? pkg with
  | none => s.setPeer (Peer.fresh pkg epoch)
  | some p =>
    let s := if p.epoch = epoch then s.setPeer { p with out := false }
      else
        let s := (s.failFillsIn (.penumbra l) 0x22).stopMigsInto (.penumbra l) 0x22
        let s := s.setPeer { p with out := false, frozen := false, epoch := epoch, lost := true, frames := [], frameStacks := [],
                                    window := [], poison := [] }
        let imgs := (s.vault.images.filter (fun i : Image => !(i.creator == pkg && i.state == ImgState.writing))).map
          (fun i : Image => ({ i with orphan := i.orphan || i.creator == pkg } : Image))
        { s with vault := { s.vault with images := imgs } }
    s.faultUnread.reviveHandles.pumpMigs

/-- A link whose versions agree comes up, on its lanes, and GRANT follows (R400, R402); one whose versions disagree is
DOWN_VERSION. -/
def State.linkAgree (s : State) (l : LinkNo) (p : PeerHello) : State :=
  match versions s.lnk.cap.toNat p with
  | none => (s.linkState l .downVersion).pumpForms
  | some (major, minor) =>
    let k := s.lnk.links[l]
    let s := (s.setLink l { k with major := major, minor := minor }).linkState l k.running
    let s := match s.peer? p.pkg with
      | some q => s.sendGrant p.pkg (q.frameStacks.any (fun f =>
          let st := s.units.stack[Fin.ofNat 8 f.2]; st == UnitState.frozen || st == UnitState.emptied))
      | none => s
    (s.linkIdle l).pumpForms

/-- HELLO (R399, R405, R411, R413): the link's versions follow it; a new session restarts the landed mark. -/
def execHello (l : LinkNo) (data : BitVec 512) (s : State) : Out :=
  if !s.linkReceives l then .next s
  else
    let p := helloOf data
    let k := s.lnk.links[l]
    let again := (k.peer.map PeerHello.session) == some p.session && (k.peer.map PeerHello.pkg) == some p.pkg
    let s := if again then s else s.leaveSession l
    let k := { k with peer := some p, landed := if again then k.landed else 0,
                      landedAhead := if again then k.landedAhead else [] }
    let s := (s.setLink l k).peerEpoch l p.pkg p.epoch
    if k.state == .hello then .next (s.linkAgree l p)
    else if k.state == .downVersion then
      if (versions s.lnk.cap.toNat p).isSome then .next (((s.linkState l .hello).sendHello l).linkAgree l p) else .next s
    else match versions s.lnk.cap.toNat p with
      | some (major, minor) => .next (s.setLink l { s.lnk.links[l] with major := major, minor := minor })
      | none => .next s

/-- GRANT: the Umbra the peer grants; FROZEN freezes all Penumbra held on it (R402). -/
def execGrant (l : LinkNo) (arg : BitVec 64) (s : State) : Out :=
  if !s.linkIs l [.hello, .up, .reduced] then .next s
  else match s.linkPeer l with
    | none => .next s
    | some p =>
      let s := s.setPeer { p with grantHeld := bitsOf arg.toNat 47 0 }
      .next (if arg.getLsbD 63 then s.freezeUnit (.penumbra l) else s)

/-! ### Remote signals (R406 to R409) -/

/-- REMOTE_SIGNAL: a SIGNAL received is held until its marks have landed; one whose number has raised its counter is
discarded, and a resend replaces what is held. A counter that takes no remote signals is left alone, with a SYNC_FOREIGN
event (R407, R408, R468). -/
def execRemoteSignal (l : LinkNo) (addr : BitVec 48) (arg : BitVec 64) (marks : List (BitVec 64)) (s : State) : Out :=
  if !s.linkIs l [.up, .reduced] then .next s
  else match s.lnk.links[l].peer with
    | none => .next s
    | some p =>
      let n := BitVec.ofNat 32 (bitsOf arg.toNat 63 32)
      let hub := bitsOf addr.toNat 9 8
      let c := bitsOf addr.toNat 7 0
      if (p.pkg, n) ∈ s.lnk.raised then .next s
      else if !(s.ctrCfg (hubOf hub) c).getLsbD 30 then
        let y := s.syn.hubs[hubOf hub]
        let (w, s) := (s.setSync (hubOf hub) { y with foreign := y.foreign + 1 }).fresh 12
        .next (s.event (hubOf hub) (ev 0x0062 1 (c + w.toNat * 256)))
      else
        let x : RxSignal := { pkg := p.pkg, number := n, hub := hub, ctr := c, increment := BitVec.ofNat 32 (bitsOf arg.toNat 31 0),
                              marks := marks }
        let held := s.lnk.rxSignals.filter (fun y : RxSignal => !(y.pkg == p.pkg && y.number == n))
        .next ({ s with lnk := { s.lnk with rxSignals := held ++ [x] } }).raiseSignals

/-- The SIGNAL message of a signal kept (Table 11-3). -/
def TxSignal.msg (x : TxSignal) : LMsg :=
  { lmsg 4 x.addr (BitVec.ofNat 64 (x.increment.toNat + x.number.toNat * 2 ^ 32)) with
      data := x.marks.flatMap (fun m => leBytes 8 m.toNat) }

/-- Whether a link still runs the session a mark names. -/
def State.markLives (s : State) (m : BitVec 64) : Bool :=
  let k := s.lnk.links[Fin.ofNat 32 (bitsOf m.toNat 7 0)]
  k.state.counts && k.session.toNat % 65536 == bitsOf m.toNat 31 16

/-- Every PN_WR not yet answered that went over a link goes over another link of the bundle; answers the links that took
one, each with the last WSEQ it gave (R155, R408). -/
def State.moveWrites (s : State) (from_ : Nat) (to_ : LinkNo) : State :=
  (s.lnk.reqs.filter (fun q : PnReq => q.write && q.link == from_)).foldl (fun (s : State) (q : PnReq) =>
    let q' : PnReq := { q with link := to_.val, since := s.tick }
    let reqs := s.lnk.reqs.map (fun x : PnReq => if x.tag = q.tag ∧ x.link = from_ ∧ x.write then q' else x)
    ({ s with lnk := { s.lnk with reqs := reqs } }).sendMsg to_ q'.msg) s

/-- The mark a link now carries: its number, session and the WSEQ last given (R406). -/
def State.markOf (s : State) (l : LinkNo) : BitVec 64 :=
  let k := s.lnk.links[l]
  BitVec.ofNat 64 (l.val + k.session.toNat % 65536 * 2 ^ 16 + (k.wseq - 1).toNat * 2 ^ 32)

/-- SIGNAL_RESEND: a link named in a mark has left its session, so its unacknowledged PN_WRs and then the SIGNAL go over
the next link of the bundle, under the same number (R408). -/
def execSignalResend (number : BitVec 32) (s : State) : Out :=
  match s.lnk.txSignals.find? (fun x : TxSignal => x.number == number) with
  | some x =>
    let dead := x.marks.filter (fun m => !s.markLives m)
    match dead, s.bundle x.pkg with
    | d :: _, l0 :: ls =>
      let to_ := ((nextLink (l0 :: ls) (bitsOf d.toNat 7 0)).getD l0)
      let s := dead.foldl (fun (s : State) m => s.moveWrites (bitsOf m.toNat 7 0) to_) s
      let kept := x.marks.filter (fun m => s.markLives m && bitsOf m.toNat 7 0 ≠ to_.val)
      let x' : TxSignal := { x with marks := kept ++ [s.markOf to_], link := to_.val }
      let s := { s with lnk := { s.lnk with txSignals := s.lnk.txSignals.map (fun y : TxSignal => if y.number = number then x' else y) } }
      .next (s.sendMsg to_ x'.msg)
    | _, _ => .next s
  | none => .next s

/-- SIGNAL_TIMEOUT: a SIGNAL not done within 100 ms ends its command with TIER_FAULT (R409). -/
def execSignalTimeout (number : BitVec 32) (s : State) : Out :=
  match s.lnk.txSignals.find? (fun x : TxSignal => x.number == number) with
  | some x =>
    if s.tick < x.since + 100 * msTicks then .next s
    else
      let s := { s with lnk := { s.lnk with txSignals := s.lnk.txSignals.filter (fun y : TxSignal => y.number ≠ number) } }
      .next (match x.ticket with
        | some t => s.complete t { status := 0x22 }
        | none => s)
  | none => .next s

/-! ### Power states (R416) -/

/-- LINK_L1_ENTRY: a link idle for LNK_IDLE.L1 microseconds, at minor 2 or above, sets POWER; it enters L1 once that
frame is acknowledged (R416). -/
def execLinkL1Entry (l : LinkNo) (s : State) : Out :=
  let k := s.lnk.links[l]
  let due := 0 < k.l1Us && decide (k.l1Us * 156250 ≤ (s.tick - k.idleSince) * 1000)
  if s.linkIs l [.up, .reduced] && 2 ≤ k.minor && due && k.queue.isEmpty && k.unacked.isEmpty then
    .next (s.setLink l (k.flag false true))
  else .next s

/-- LINK_L1_WAKE: a link returns from L1 to the state its lanes give, and what waits is sent (R416). -/
def execLinkL1Wake (l : LinkNo) (s : State) : Out :=
  let k := s.lnk.links[l]
  if k.state != .l1 then .next s
  else
    let s := (s.linkState l k.running).linkIdle l
    .next (s.setLink l s.lnk.links[l].pump)

/-! ### Admin commands (R413 to R415) -/

/-- A link's record (Table 11-12). What names a peer that no HELLO has named, and the bundle number of a link in no
bundle, are free values. -/
def State.linkRecord (s : State) (l : LinkNo) : List Byte × State :=
  let k := s.lnk.links[l]
  let (v, s) := s.fresh 144
  let lanes := (k.map.map (fun p => 2 ^ p)).sum
  let bundle := match s.bundlePeer l with
    | some pkg => ((s.bundle pkg).head?.map Fin.val).getD 0
    | none => bitsOf v.toNat 23 16
  let grants := match k.peer.bind (fun p => s.peer? p.pkg) with
    | some p => leBytes 4 (p.grantHeld / 1048576) ++ leBytes 4 (p.grantGiven / 1048576)
    | none => leBytes 8 0
  let ids := match k.peer with
    | some p => [BitVec.ofNat 8 p.link.toNat, BitVec.ofNat 8 p.hub.toNat, BitVec.ofNat 8 bundle] ++ leBytes 8 p.pkg.toNat
        ++ leBytes 4 p.epoch.toNat ++ leBytes 4 p.session.toNat
    | none => leBytes 3 v.toNat ++ leBytes 16 (v.toNat / 2 ^ 24)
  ([BitVec.ofNat 8 k.state.code, BitVec.ofNat 8 lanes, BitVec.ofNat 8 k.spareState, BitVec.ofNat 8 k.major,
    BitVec.ofNat 8 k.minor] ++ ids ++ leBytes 8 k.counts.corrected ++ leBytes 8 k.counts.uncorrectable
    ++ leBytes 4 k.counts.resent ++ leBytes 4 k.counts.retrains ++ leBytes 8 (k.counts.dataSent / 4096) ++ grants, s)

/-- What R313 checks of LINK_QUERY. -/
def linkQuerySpec (d : Desc) : DescSpec :=
  let l0 := d.f 69 64
  let n := d.f 133 128
  { job := false, admin := true, needX := true, used := [(69, 64), (133, 128)]
    range := l0 < 32 && 1 ≤ n && l0 + n ≤ 32 }

/-- LINK_QUERY (R414, Tables 11-9 and 11-12). -/
def execLinkQuery (d : Desc) (s : State) : Out :=
  let l0 := d.f 69 64
  let n := d.f 133 128
  .next (s.withDesc d (linkQuerySpec d) (fun t s =>
    let r := (List.range n).foldl (fun (a : List Byte × State) i =>
      let (b, s) := a.2.linkRecord (Fin.ofNat 32 (l0 + i))
      (a.1 ++ b, s)) ([], s)
    r.2.complete t { status := 0, result := BitVec.ofNat 64 n, xbytes := r.1 }))

/-- What R313 checks of LINK_SET_CAP. -/
def linkSetCapSpec : DescSpec :=
  { job := false, admin := true, used := [(143, 136)] }

/-- LINK_SET_CAP: the minor cap, told by a new HELLO on every link that carries HELLO (R413). -/
def execLinkSetCap (d : Desc) (s : State) : Out :=
  .next (s.withDesc d linkSetCapSpec (fun t s =>
    let old := s.lnk.cap
    let s := { s with lnk := { s.lnk with cap := BitVec.ofNat 8 (d.f 143 136) } }
    let s := (List.finRange 32).foldl (fun (s : State) (l : LinkNo) =>
      if !s.linkReceives l then s
      else
        let s := s.sendHello l
        let k := s.lnk.links[l]
        match k.peer.bind (versions s.lnk.cap.toNat) with
        | some (_, minor) => s.setLink l { k with minor := minor }
        | none => s) s
    s.complete t { status := 0, result := old.setWidth 64 }))

/-- The descriptor check of an admin command that names one link (Table 11-10). -/
def linkSpec (d : Desc) : DescSpec := { job := false, admin := true, used := [(69, 64)], range := d.f 69 64 < 32 }

/-- LINK_DISABLE: the link goes OFF (R415). -/
def execLinkDisable (d : Desc) (s : State) : Out :=
  .next (s.withDesc d (linkSpec d) (fun t s => (s.linkDown (Fin.ofNat 32 (d.f 69 64)) .off).complete t { status := 0 }))

/-- LINK_ENABLE: an OFF link trains, and a FAILED or QUENCHED one once its cause has cleared (R400). -/
def execLinkEnable (d : Desc) (s : State) : Out :=
  .next (s.withDesc d (linkSpec d) (fun t s =>
    let l : LinkNo := Fin.ofNat 32 (d.f 69 64)
    let s := if s.linkIs l [.off, .failed] || (s.linkIs l [.quenched] && s.start.quench.state != 2) then s.linkTrain l else s
    s.complete t { status := 0 }))

/-- LINK_RETRAIN (R400, Table 11-9). -/
def execLinkRetrain (d : Desc) (s : State) : Out :=
  .next (s.withDesc d (linkSpec d) (fun t s =>
    let l : LinkNo := Fin.ofNat 32 (d.f 69 64)
    if s.lnk.links[l].state.counts then (s.linkRetrainNow l 2).complete t { status := 0 }
    else s.complete t { status := 0x60 }))

end Sys2Proof.Machine
end

