-- ==== Sys2Proof/Machine/Streams.lean ====
section
/-!
DEFINITION. Weight streams: arming, flushing, fetches, deliveries and slots (R158 to R172).
-/
namespace Sys2Proof.Machine

/-! ### A stream of a context -/

/-- A stream of a context's active plan. -/
def State.stream? (s : State) (ctx n : Nat) : Option Stream :=
  (s.ctx? ctx).bind (fun c => c.streams.find? (fun x : Stream => x.spec.number == n))

/-- A stream replaced. -/
def State.setStream (s : State) (ctx : Nat) (x : Stream) : State :=
  match s.ctx? ctx with
  | some c => s.setCtx { c with streams := c.streams.map (fun y : Stream => if y.spec.number = x.spec.number then x else y) }
  | none => s

/-- An entry of a queue changed. -/
def Stream.onEntry (x : Stream) (serial : Nat) (f : ArmEntry → ArmEntry) : Stream :=
  { x with queue := x.queue.map (fun e : ArmEntry => if e.serial = serial then f e else e) }

/-- A slot of a window changed. -/
def Stream.onSlot (x : Stream) (i : Nat) (f : StreamSlot → StreamSlot) : Stream := { x with slots := x.slots.modify i f }

/-- An entry of a queue. -/
def Stream.entry? (x : Stream) (serial : Nat) : Option ArmEntry := x.queue.find? (fun e : ArmEntry => e.serial == serial)

/-! ### STREAM_ARM (R160, R161, Tables 4-6, 4-7 and 9-10) -/

/-- The arm entry a descriptor's payload spells. -/
def armOf (d : Desc) (t : Ticket) (serial : Nat) (open_ : Bool) : ArmEntry :=
  let flags := d.p 55 1
  { ticket := t, sourceObject := d.p 0 8, objectStride := toSigned 64 (d.p 8 8), sourceOffset := d.p 16 8,
    sourceStride := toSigned 64 (d.p 24 8), dest := d.p 32 8, destStride := toSigned 64 (d.p 40 8), destSlots := d.p 54 1,
    length := d.p 48 4, count := d.p 52 2, glint := bitOf flags 0, stepEn := bitOf flags 1, stepLow := d.p 56 2,
    perLayer := bitOf flags 2
    signal := if bitOf flags 3 then some (hubOf (bitsOf (d.p 58 2) 9 8), bitsOf (d.p 58 2) 7 0) else none
    deliverMark := d.p 64 4, markStride := d.p 68 4, releaseMark := d.p 72 4, releaseStride := d.p 76 4,
    afterUpdate := d.p 80 4, serial := serial, fetched := 0, started := [], ended := [], delivered := 0, flushed := false,
    gateOpen := open_ }

/-- Whether an entry's fields are within the ranges of Table 4-6 for its stream. -/
def ArmEntry.ok (e : ArmEntry) (x : PlanStream) : Bool :=
  1 ≤ e.sourceObject && e.sourceOffset % 4096 == 0 && e.sourceStride % 4096 == 0
    && 4096 ≤ e.length && e.length ≤ x.layerBlocks * 4096 && 1 ≤ e.count && e.count ≤ x.layers
    && 1 ≤ e.destSlots && e.destSlots ≤ 8
    && (e.dest == 0 || e.destSlots == 1 || e.length ≤ e.destStride.natAbs)

/-- STREAM_ARM acts. -/
def State.streamArm (s : State) (d : Desc) (t : Ticket) : State :=
  let ctx := s.descCtx d
  match s.stream? ctx (d.f 69 64) with
  | none => s.complete t { status := 0x40 }
  | some x =>
    let step := ((s.ctx? ctx).bind Ctx.lastStep).map (fun n => n.toNat % 65536)
    let e := armOf d t x.nextSerial (!bitOf (d.p 55 1) 1 || step == some (d.p 56 2))
    let foreign := match e.signal with
      | some (h, c) => !s.ownsCtr h c ctx
      | none => false
    if 16 ≤ (x.queue.filter (fun y : ArmEntry => !y.flushed)).length then s.complete t { status := 0x41 }
    else if !e.ok x.spec then s.complete t { status := 0x42 }
    else if foreign then s.complete t { status := 0x12 }
    else s.setStream ctx { x with queue := x.queue ++ [e], nextSerial := x.nextSerial + 1 }

/-- What R313 checks of STREAM_ARM; bytes 55 and 59 of its payload are used in part. -/
def streamArmSpec (d : Desc) : DescSpec :=
  let stray := strayBits (d.p 55 1) [(3, 0)] || strayBits (d.p 58 2) [(9, 0)]
  let base := [(0, 5), (8, 47), (56, 3), (64, 20)]
  { job := true, admin := false, ext := true, used := [(69, 64)]
    payload := if stray then base else [(55, 1), (59, 1)] ++ base
    addrs := [(d.p 32 8, 1)] }

/-- STREAM_ARM (Tables 9-9 and 9-10); it stays in flight until its entry ends. -/
def execStreamArm (d : Desc) (s : State) : Out :=
  .next (s.withDesc d (streamArmSpec d) (fun t s => s.streamArm d t))

/-! ### STREAM_FLUSH (R167) -/

/-- An entry after a flush: it stays only while deliveries that started go on. -/
def ArmEntry.flush (e : ArmEntry) : Option ArmEntry :=
  if e.started.all (fun n => e.ended.any (fun y => y.1 == n)) then none else some { e with flushed := true }

/-- A slot after a flush: a layer not delivered is dropped, at once or when its fetch ends. -/
def StreamSlot.flush (y : StreamSlot) : StreamSlot :=
  match y.state with
  | .ready => StreamSlot.none
  | .fetching => { y with flushed := true }
  | _ => y

/-- What R313 checks of STREAM_FLUSH. -/
def streamFlushSpec : DescSpec :=
  { job := true, admin := false, used := [(69, 64)] }

/-- STREAM_FLUSH (R160, R167). -/
def execStreamFlush (d : Desc) (s : State) : Out :=
  .next (s.withDesc d streamFlushSpec (fun t s =>
    let ctx := s.descCtx d
    match s.stream? ctx (d.f 69 64) with
    | none => s.complete t { status := 0x40 }
    | some x =>
      let live := x.queue.filter (fun e : ArmEntry => !e.flushed)
      let s := s.setStream ctx { x with queue := x.queue.filterMap ArmEntry.flush, slots := x.slots.map StreamSlot.flush }
      let s := live.foldl (fun (s : State) (e : ArmEntry) => s.complete e.ticket { status := 0x25 }) s
      s.complete t { status := 0, result := BitVec.ofNat 64 live.length }))

/-! ### How layers end (R166, R323) -/

/-- A fence wait of kind 3 names its layer so. -/
def layerMark (ctx stream serial layer : Nat) : BitVec 64 :=
  BitVec.ofNat 64 (((ctx * 64 + stream) * 2 ^ 28 + serial % 2 ^ 28) * 65536 + layer)

/-- The first status other than SUCCESS among the layers that have ended, by layer. -/
def ArmEntry.status (e : ArmEntry) : BitVec 8 :=
  (((List.range e.count).filterMap (fun n => (e.ended.find? (fun y => y.1 == n)).map Prod.snd)).find? (fun st => st != 0)).getD 0

/-- A layer ends with a status: its completion where PER_LAYER is 1, SIGNAL where its delivery ended, and the entry's
completion with its last layer (R163, R166). -/
def State.layerEnded (s : State) (ctx stream serial layer : Nat) (st : BitVec 8) (delivered : Bool) : State :=
  match s.stream? ctx stream with
  | none => s
  | some x => match x.entry? serial with
    | none => s
    | some e =>
      let e := { e with ended := e.ended ++ [(layer, st)], delivered := e.delivered + delivered.toNat
                        started := if layer ∈ e.started then e.started else e.started ++ [layer] }
      let over_ := decide (e.count ≤ e.ended.length)
        || (e.flushed && e.started.all (fun n => e.ended.any (fun y => y.1 == n)))
      let x := if over_ then { x with queue := x.queue.filter (fun y : ArmEntry => y.serial ≠ serial) }
        else x.onEntry serial (fun _ => e)
      let s := s.setStream ctx x
      let s := match e.signal with
        | some (h, c) => if delivered then s.raiseHost h c 1 else s
        | none => s
      let s := if e.perLayer then s.post e.ticket.ring true (e.ticket.sseq.toNat % 65536) st 0 false 3
          (BitVec.ofNat 64 (layer * 2 ^ 48 + stream * 2 ^ 42)) else s
      if over_ && !e.flushed then
        s.complete e.ticket { status := e.status, result := if e.status = 0 then BitVec.ofNat 64 e.delivered else 0 }
      else s

/-! ### Fetches (R161, R162, R165, R172) -/

/-- The hub whose Shade takes stripe `k` of a layer: the one that holds the source stripe when it is in HUB_MASK, and R129's
otherwise (R162). -/
def windowHub (x : PlanStream) (h : Handle) (k : Nat) : Nat :=
  let own := (h.stripeHub k).val
  let l := maskList 4 x.hubMask
  if own ∈ l then own else l.getD ((k + h.key.obj % max 1 l.length) % max 1 l.length) 0

/-- The first entry with a layer whose fetch has not started, when nothing before it is still to be fetched. -/
def Stream.nextFetch (x : Stream) : Option ArmEntry :=
  x.queue.find? (fun e : ArmEntry => !e.flushed && e.fetched < e.count)

/-- What the checks at a layer's fetch answer: a status, or the handle and range to read; `none` where the fetch waits
(R59, R161, R162, Table 4-7). -/
def State.layerSource (s : State) (ctx : Nat) (x : Stream) (e : ArmEntry) : Option (Except (BitVec 8) (Handle × Nat)) :=
  let n := e.fetched
  let obj : Int := (e.sourceObject : Int) + n * e.objectStride
  let off : Int := (e.sourceOffset : Int) + n * e.sourceStride
  let dest : Int := (e.dest : Int) + ((n % e.destSlots : Nat) : Int) * e.destStride
  if obj < 1 || 2 ^ 40 ≤ obj then some (.error 0x10)
  else
    let k : HKey := { ctx := ctx, obj := obj.toNat }
    match s.named ctx (handleWord k (s.genOf k)) with
    | .error st => some (.error st)
    | .ok h =>
      if h.fate != Fate.keep && h.fate != Fate.stash && h.fate != Fate.press then some (.error 0x18)
      else if x.spec.kind == 1 && (h.perms.mutable || e.afterUpdate != 0) then some (.error 0x18)
      else if off < 0 then some (.error 0x13)
      else if e.dest ≠ 0 && (dest < 0 || 2 ^ 57 ≤ dest) then some (.error 0x05)
      else match restoreCheck h off.toNat e.length (if e.dest = 0 then 0 else dest.toNat) e.glint with
        | some st => some (.error st)
        | none =>
          if h.state == HState.filling || h.updates.toNat < e.afterUpdate || !s.tiersUp h then none
          else
            let k0 := off.toNat / 2097152
            let ks := (List.range ((off.toNat + e.length + 2097151) / 2097152 - k0)).map (fun i => k0 + i)
            if ks.all (fun k => s.stripeReadable h k) then some (.ok (h, off.toNat)) else some (.error 0x22)

/-- STREAM_FETCH_START: the next layer's fetch starts in an EMPTY slot, reading its source as a restore received now; a
layer that fails a check ends at once (R161, R162, R165, R166). -/
def execStreamFetchStart (ctx stream : Nat) (s : State) : Out :=
  if s.stalled then .next s else
  match s.stream? ctx stream with
  | none => .next s
  | some x => match x.nextFetch, x.slots.findIdx? (fun y : StreamSlot => y.state == SlotState.empty) with
    | some e, some i =>
      (match s.layerSource ctx x e with
        | none => .next s
        | some (.error st) =>
          .next ((s.setStream ctx (x.onEntry e.serial (fun e => { e with fetched := e.fetched + 1 }))).layerEnded
            ctx stream e.serial e.fetched st false)
        | some (.ok (h, off)) =>
          if s.permuting h.key then .next s else
          let b0 := off / 4096
          let k0 := off / 2097152
          let ks := (List.range ((off + e.length + 2097151) / 2097152 - k0)).map (fun i => k0 + i)
          let poison := ((s.objectPoison h).filter (fun b => b0 ≤ b && b * 4096 < off + e.length)).map (fun b => b - b0)
          let slot : StreamSlot :=
            { state := .fetching, entry := e.serial, layer := e.fetched, source := some h.key, offset := off,
              size := h.shape.size, format := h.shape.format, press := h.fate == Fate.press,
              ports := (ks.map (windowHub x.spec h)).dedup, data := s.objectRange h off e.length, poison := poison,
              releaseMark := e.releaseMark + e.fetched * e.releaseStride, flushed := false }
          let x := (x.onEntry e.serial (fun e => { e with fetched := e.fetched + 1 })).onSlot i (fun _ => slot)
          .next ((s.setStream ctx x).setHandle { h with readers := h.readers + 1 }))
    | _, _ => .next s

/-- The layer of a slot starts its delivery. -/
def Stream.begin (x : Stream) (i : Nat) (y : StreamSlot) : Stream :=
  (x.onSlot i (fun y => { y with state := .delivering })).onEntry y.entry (fun e => { e with started := e.started ++ [y.layer] })

/-- STREAM_FETCH_DONE: a layer is whole in Shade and READY, or its fetch failed and frees the slot; with DEST 0 its
delivery starts at once (R166, R167, Table 4-8). -/
def execStreamFetchDone (ctx stream slot : Nat) (result : HopEnd) (s : State) : Out :=
  if s.stalled then .next s else
  match s.stream? ctx stream with
  | none => .next s
  | some x => match x.slots[slot]? with
    | none => .next s
    | some y =>
      if y.state != SlotState.fetching then .next s
      else
        let s := match y.source with
          | some k => s.dropReader k
          | none => s
        if y.flushed then .next (s.setStream ctx (x.onSlot slot (fun _ => StreamSlot.none)))
        else if result != HopEnd.ok then
          .next ((s.setStream ctx (x.onSlot slot (fun _ => StreamSlot.none))).layerEnded ctx stream y.entry y.layer
            (HopEnd.code result) false)
        else
          let x := x.onSlot slot (fun y => { y with state := .ready })
          .next (s.setStream ctx (match x.entry? y.entry with
            | some e => if e.dest = 0 then x.begin slot y else x
            | none => x))

/-! ### Deliveries (R163, R343) -/

/-- The layer whose delivery is next: the first, in queue order, that has not started. -/
def Stream.nextDelivery (x : Stream) : Option (ArmEntry × Nat) :=
  x.queue.findSome? (fun e : ArmEntry => if e.flushed then none
    else ((List.range e.count).find? (fun n => n ∉ e.started)).map (fun n => (e, n)))

/-- STREAM_DELIVER: the next layer is written to its destination once its slot is READY, its step has begun and the mark
allows it (R163). -/
def execStreamDeliver (ctx stream : Nat) (s : State) : Out :=
  if s.stalled then .next s else
  match s.stream? ctx stream, s.ctx? ctx with
  | some x, some c => match x.nextDelivery with
    | some (e, n) => match x.slots.findIdx? (fun y : StreamSlot => y.entry == e.serial && y.layer == n && y.state == SlotState.ready) with
      | some i => match x.slots[i]? with
        | some y =>
          if !e.gateOpen || c.mark.toNat < e.deliverMark + n * e.markStride then .next s
          else
            let dest := ((e.dest : Int) + ((n % e.destSlots : Nat) : Int) * e.destStride).toNat
            let b0 := y.offset / 4096
            let whole := tabPaste ([] : Tab Byte) y.offset e.length y.data
            let s := s.setStream ctx (x.begin i y)
            .next (s.deliverBytes e.glint y.press y.format y.size y.offset e.length dest whole
              (y.poison.map (fun b => b + b0)))
        | none => .next s
      | none => .next s
    | none => .next s
  | _, _ => .next s

/-- STREAM_DELIVERY_DONE: a delivery has ended; the slot is HELD, and the layer ends once its data is visible (R31, R163,
R166). -/
def execStreamDeliveryDone (ctx stream slot : Nat) (result : HopEnd) (s : State) : Out :=
  if s.stalled then .next s else
  match s.stream? ctx stream with
  | none => .next s
  | some x => match x.slots[slot]? with
    | none => .next s
    | some y => match y.state, x.entry? y.entry with
      | .delivering, some e =>
        let st : BitVec 8 := if result != HopEnd.ok then HopEnd.code result else if y.poison.isEmpty then 0 else 0x20
        let s := s.setStream ctx (x.onSlot slot (fun y => { y with state := .held }))
        let ports := if e.dest = 0 then [] else y.ports.map hubOf
        if ports.all (fun h => h == hubOf e.ticket.ring) then
          .next (s.layerEnded ctx stream y.entry y.layer st (result == HopEnd.ok))
        else
          .next (s.behind ports { ticket := e.ticket, status := st, flags := BitVec.ofBool (result == HopEnd.ok) ++ 0#2,
                                  kind := 3, result := layerMark ctx stream y.entry y.layer, xbytes := [], fences := [],
                                  writes := [] })
      | _, _ => .next s

/-- SLOT_RELEASE: a HELD slot returns to EMPTY once the mark has reached its release mark and no run reads its layer
(R164). -/
def execSlotRelease (ctx stream slot : Nat) (s : State) : Out :=
  match s.stream? ctx stream, s.ctx? ctx with
  | some x, some c => match x.slots[slot]? with
    | some y =>
      let read := s.eng.runs.any (fun r : Run => r.ctx == ctx
        && r.inputs.any (fun i : RunInput => i.mode == 4 && i.handle == y.source && y.source.isSome))
      let ended := match x.entry? y.entry with
        | some e => e.ended.any (fun z => z.1 == y.layer)
        | none => true
      if y.state == SlotState.held && ended && decide (y.releaseMark ≤ c.mark.toNat) && !read then
        .next (s.setStream ctx (x.onSlot slot (fun _ => StreamSlot.none)))
      else .next s
    | none => .next s
  | _, _ => .next s

end Sys2Proof.Machine
end

