-- ==== Sys2Proof/Machine/Movers.lean ====
section
/-!
DEFINITION. Mover channels: addresses and patterns, load checks, bursts and their arbitration, sync points, bus errors,
direct mode, and the event lines they pulse (R347 to R383, R460).
-/
namespace Sys2Proof.Machine

/-! ### Channels -/

/-- A channel after RST_N (Tables 10-3 to 10-5). -/
def Channel.reset : Channel :=
  { shadow := [], active := [], state := .idle, shadowValid := false, last := 0, cfgErr := 0, lateWrite := false,
    poisonSeen := false, progress := 0, err := 0, errInfo := 0, cmpCount := 0, cmpFirst := 0xFFFFFFFFFFFFFFFF#64,
    checkFail := 0, prio := 0, done := 0, passed := 0, asked := none, got := [], fence := none, time := 0, since := 0,
    aborting := false, halting := false }

/-- A logical channel of a hub. -/
def State.chan (s : State) (h : Hub) (c : Nat) : Channel := tabGet Channel.reset s.mov.hubs[h].chans c

/-- A logical channel replaced. -/
def State.setChan (s : State) (h : Hub) (c : Nat) (x : Channel) : State :=
  let m := s.mov.hubs[h]
  s.setMovers h { m with chans := tabPut Channel.reset m.chans c x }

/-- Whether a channel is held in direct mode (R380). -/
def State.isDirect (s : State) (h : Hub) (c : Nat) : Bool := decide (64 - s.mov.hubs[h].directGranted.toNat ≤ c)

/-- A word of a register set. -/
def setWord (t : Tab (BitVec 32)) (o : Nat) : Nat := (tabGet 0 t o).toNat

/-- MOV_CTRL fields of a register set (Table 10-4). -/
def ctrlMode (t : Tab (BitVec 32)) : Nat := bitsOf (setWord t 16) 11 10
def ctrlSync (t : Tab (BitVec 32)) : Nat := bitsOf (setWord t 16) 17 16
def ctrlCheck (t : Tab (BitVec 32)) : Bool := bitOf (setWord t 16) 15
def ctrlPrio (t : Tab (BitVec 32)) : Nat := bitsOf (setWord t 16) 14 12
def ctrlRate (t : Tab (BitVec 32)) : Nat := bitsOf (setWord t 16) 23 18
def ctrlEvent (t : Tab (BitVec 32)) : Nat := bitsOf (setWord t 16) 31 24
def ctrlEventEn (t : Tab (BitVec 32)) : Bool := bitOf (setWord t 16) 9

/-! ### Sides (R350, R353) -/

/-- A side of a transfer: its base, the step and count of each loop from the innermost, and its element width. -/
structure Side where
  base : Nat
  s0 : Int
  s1 : Int
  s2 : Int
  c0 : Nat
  c1 : Nat
  c2 : Nat
  wlog : Nat

/-- A side of a register set, from its first word (Table 10-3). -/
def sideOf (t : Tab (BitVec 32)) (o : Nat) : Side :=
  { base := setWord t o + setWord t (o + 1) * 2 ^ 32, s0 := toSigned 32 (setWord t (o + 2)),
    s1 := toSigned 32 (setWord t (o + 3)), s2 := toSigned 32 (setWord t (o + 4)),
    c0 := bitsOf (setWord t (o + 5)) 15 0 + 1, c1 := bitsOf (setWord t (o + 5)) 31 16 + 1,
    c2 := bitsOf (setWord t (o + 6)) 15 0 + 1, wlog := bitsOf (setWord t (o + 6)) 18 16 }

/-- The source side of a register set. -/
def srcOf (t : Tab (BitVec 32)) : Side := sideOf t 0

/-- The destination side of a register set. -/
def dstOf (t : Tab (BitVec 32)) : Side := sideOf t 8

/-- The element width in bytes. -/
def Side.w (x : Side) : Nat := 2 ^ x.wlog

/-- The bytes of a side. -/
def Side.total (x : Side) : Nat := x.c0 * x.c1 * x.c2 * x.w

/-- The SPACE of a side (Table 10-1). -/
def Side.space (x : Side) : Nat := bitsOf x.base 63 60

/-- The low bits of the address that a space's byte offset has. -/
def offBits (space : Nat) : Nat :=
  if space = 0 then 57 else if space = 1 then 24 else if space = 2 then 36 else if space = 3 then 48
  else if space = 4 then 21 else 0

/-- The byte offset of a side's base within its unit. -/
def Side.off (x : Side) : Nat := x.base % 2 ^ offBits x.space

/-- The bits of a base that its space does not name (R350). -/
def Side.stray (x : Side) : Bool :=
  let named : List (Nat × Nat) :=
    if x.space = 0 then [(56, 0)] else if x.space = 1 then [(59, 54), (23, 0)] else if x.space = 2 then [(59, 57), (35, 0)]
    else if x.space = 3 then [(57, 55), (47, 0)] else if x.space = 4 then [(59, 54), (20, 0)] else [(59, 54)]
  strayBits x.base ((63, 60) :: named)

/-- The byte offset of element `e` of a side (R353). -/
def Side.elem (x : Side) (e : Nat) : Int :=
  (x.off : Int) + ((e % x.c0 : Nat) : Int) * x.s0 + ((e / x.c0 % x.c1 : Nat) : Int) * x.s1
    + ((e / (x.c0 * x.c1) : Nat) : Int) * x.s2

/-- The byte offset of stream byte `p` of a side. -/
def Side.byte (x : Side) (p : Nat) : Nat := (x.elem (p / x.w)).toNat + p % x.w

/-- The hub a side's unit belongs to, its own for HOST and LINK (Table 10-1). -/
def Side.hub (x : Side) (h : Hub) : Hub :=
  if x.space = 0 || x.space = 3 then h else hubOf (bitsOf x.base 59 58)

/-- The number within its hub of a side's bank, stack, engine or lane. -/
def Side.unit (x : Side) : Nat :=
  if x.space = 2 then bitsOf x.base 57 57 else if x.space = 3 then bitsOf x.base 57 55 else bitsOf x.base 57 54

/-- The link of a LINK side. -/
def Side.link (x : Side) (h : Hub) : LinkNo := Fin.ofNat 32 (8 * h.val + x.unit)

/-- The tier unit a side lies in, for SHADE, UMBRA and LINK. -/
def Side.tierUnit (x : Side) (h : Hub) : Option TierUnit :=
  if x.space = 1 then some (.shade (x.hub h) (Fin.ofNat 16 x.unit))
  else if x.space = 2 then some (.umbra (Fin.ofNat 8 (2 * (x.hub h).val + x.unit)))
  else if x.space = 3 then some (.penumbra (x.link h)) else none

/-! ### Load checks (R361, Table 10-6) -/

/-- The bytes a side may address (Table 10-1); a LANE has no addresses. -/
def State.sideRange (s : State) (x : Side) (h : Hub) : Nat :=
  if x.space = 0 then 2 ^ 57 else if x.space = 1 then 2 ^ 24 else if x.space = 2 then 2 ^ 36
  else if x.space = 3 then ((s.linkPeer (x.link h)).map Peer.grantHeld).getD 0
  else if x.space = 4 then (if x.unit ≤ 12 then 2031615 else 0) else 2 ^ 40

/-- Whether every element of a side lies in its range: the corners of its affine pattern do. -/
def State.sideInRange (s : State) (x : Side) (h : Hub) : Bool :=
  let down (c : Nat) (st : Int) : Int := min 0 (((c - 1 : Nat) : Int) * st)
  let up (c : Nat) (st : Int) : Int := max 0 (((c - 1 : Nat) : Int) * st)
  let lo := (x.off : Int) + down x.c0 x.s0 + down x.c1 x.s1 + down x.c2 x.s2
  let hi := (x.off : Int) + up x.c0 x.s0 + up x.c1 x.s1 + up x.c2 x.s2 + (x.w : Nat)
  !x.stray && (x.space == 5 || (decide (0 ≤ lo) && decide (hi ≤ (s.sideRange x h : Int)))) && x.total ≤ 2 ^ 40

/-- Whether base and steps in use are multiples of the width (R353). -/
def Side.aligned (x : Side) : Bool :=
  let ok (c : Nat) (st : Int) : Bool := c == 1 || st % (x.w : Int) == 0
  x.off % x.w == 0 && ok x.c0 x.s0 && ok x.c1 x.s1 && ok x.c2 x.s2

/-- Whether a side keeps the rule of LANE sides (Table 10-6, code 5). -/
def Side.laneOk (x : Side) : Bool := x.space ≠ 5 || (x.c1 == 1 && x.c2 == 1 && x.s0 == 64 && x.wlog == 6)

/-- Whether a side is made of whole aligned 4 KiB blocks (R357). -/
def Side.blocks (x : Side) : Bool :=
  x.wlog == 6 && x.s0 == 64 && x.c0 % 64 == 0 && x.off % 4096 == 0 && x.s1 % 4096 == 0 && x.s2 % 4096 == 0

/-- The first failing check of a shadow set, 0 when none (Table 10-6). FILL ignores the source side (R356). -/
def State.loadCheck (s : State) (h : Hub) (c : Channel) : Nat :=
  let t := c.shadow
  let a := srcOf t
  let b := dstOf t
  let fill := ctrlMode t == 1
  if ctrlMode t = 3 || ctrlSync t = 3 || b.wlog = 7 || 6 ≤ b.space || (!fill && (a.wlog = 7 || 6 ≤ a.space)) then 1
  else if (!fill && a.total ≠ b.total) || (fill && b.space = 5) then 2
  else if !b.aligned || (!fill && !a.aligned) then 3
  else if !s.sideInRange b h || (!fill && !s.sideInRange a h) then 4
  else if !b.laneOk || (!fill && !a.laneOk) then 5
  else if ctrlCheck t && !(ctrlMode t == 0 && a.blocks && b.blocks) then 6
  else if (ctrlSync t = 2 && b.space ≠ 0) || (ctrlSync t = 1 && b.space = 0) || (ctrlMode t = 2 && ctrlSync t ≠ 0) then 7
  else if c.shadowValid then 8 else 0

/-- The shadow set becomes active (R363). -/
def Channel.promote (c : Channel) (tick : Nat) : Channel :=
  { c with active := c.shadow, shadowValid := false, state := .running, prio := BitVec.ofNat 3 (ctrlPrio c.shadow),
           progress := 0, cmpCount := 0, cmpFirst := 0xFFFFFFFFFFFFFFFF#64, checkFail := 0, done := 0, passed := 0,
           asked := none, got := [], fence := none, time := 1024, since := tick, aborting := false, halting := false }

/-! ### Event lines (R369, R382, R459, R460) -/

/-- A pulse on an event line raises the counter of its route by 1; an empty route counts it, and lines 248 to 255 set
MOV_EVT_PEND.DONE (R382, R460). -/
def State.eventPulse (s : State) (h : Hub) (line : Nat) : State :=
  if 248 ≤ line then
    let m := s.mov.hubs[h]
    s.setMovers h { m with evtDone := m.evtDone ||| (1#8 <<< (line - 248)) }
  else
    let y := s.syn.hubs[h]
    match tabGet Route.empty y.routes line with
    | .empty => s.setSync h { y with emptyPulses := y.emptyPulses + 1 }
    | .engine e c => s.raiseEngine h (s.engineOf h e.val) c.val 1
    | .core k c =>
      let i := k.val * 32 + c.val
      s.setSync h { y with coreCtrs := tabPut 0 y.coreCtrs i (tabGet 0 y.coreCtrs i + 1) }
    | .host c => s.raiseHost h c.val 1

/-- EVENT_PULSE (R460). -/
def execEventPulse (hub : Hub) (line : BitVec 8) (s : State) : Out := .next (s.eventPulse hub line.toNat)

/-! ### Commands of a channel (R361 to R365, R377) -/

/-- A LOAD: the shadow set is checked, and becomes active at once in an IDLE channel (R361, R363). -/
def State.movLoad (s : State) (h : Hub) (c : Nat) : State :=
  let x := s.chan h c
  let e := s.loadCheck h x
  if e ≠ 0 then s.setChan h c { x with cfgErr := BitVec.ofNat 4 e }
  else
    let x := { x with cfgErr := 0, shadowValid := true }
    s.setChan h c (if x.state == ChanState.idle then x.promote s.tick else x)

/-- The end an aborted transfer comes to (R365). -/
def Channel.abort (c : Channel) : Channel :=
  { c with state := .idle, shadowValid := false, last := 3, err := 0, errInfo := 0, passed := 0, asked := none, got := [],
           fence := none, aborting := false, halting := false }

/-- An ABORT: at once, or at the end of the burst in progress; an IDLE channel only discards its shadow set (R365). -/
def State.movAbort (s : State) (h : Hub) (c : Nat) : State :=
  let x := s.chan h c
  if x.state == ChanState.idle then s.setChan h c { x with shadowValid := false }
  else if x.state == ChanState.running && x.passed ≠ 0 then s.setChan h c { x with aborting := true, shadowValid := false }
  else s.setChan h c x.abort

/-- A RESUME of a HALTED channel: the failing burst starts again and the latched error is cleared; a transfer whose last
burst is done waits again at its sync point (R377). -/
def State.movResume (s : State) (h : Hub) (c : Nat) : State :=
  let x := s.chan h c
  if x.state != ChanState.halted then s
  else
    let total := (dstOf x.active).total
    let x := { x with state := if x.done < total then .running else .waiting, err := 0, errInfo := 0, passed := 0,
                      asked := none, got := [] }
    if total ≤ x.done && ctrlSync x.active = 2 then
      let n := s.rg.ports[h].nextFence
      (s.sendFence h).setChan h c { x with fence := some n }
    else s.setChan h c x

/-- A write of MOV_CMD acts on ABORT first, then LOAD, then, without ABORT, RESUME (R364). -/
def State.movCmd (s : State) (h : Hub) (c : Nat) (bits : Nat) : State :=
  let s := if bitOf bits 1 then s.movAbort h c else s
  let s := if bitOf bits 0 then s.movLoad h c else s
  if bitOf bits 2 && !bitOf bits 1 then s.movResume h c else s

/-- A MOV_CMD write by its writer: host software reaches channels held in direct mode alone, firmware the others, and
firmware sets the route of the line its shadow set names (R348, R380, R381, R460). -/
def State.movWrite (s : State) (h : Hub) (c : Nat) (bits : Nat) (by_ : MovWriter) : State :=
  match by_ with
  | .host => if s.isDirect h c then s.movCmd h c bits else s
  | .firmware r =>
    if s.isDirect h c then s
    else
      let line := ctrlEvent (s.chan h c).shadow
      let y := s.syn.hubs[h]
      let s := if bitOf bits 0 && line < 248 then s.setSync h { y with routes := tabPut Route.empty y.routes line r } else s
      s.movCmd h c bits

/-- MOV_LOAD (R361). -/
def execMovLoad (hub : Hub) (ch : Fin 64) (bits : BitVec 3) (by_ : MovWriter) (s : State) : Out :=
  .next (s.movWrite hub ch.val (bits ||| 1).toNat by_)

/-- MOV_ABORT (R365). -/
def execMovAbort (hub : Hub) (ch : Fin 64) (bits : BitVec 3) (by_ : MovWriter) (s : State) : Out :=
  .next (s.movWrite hub ch.val (bits ||| 2).toNat by_)

/-- MOV_RESUME (R377). -/
def execMovResume (hub : Hub) (ch : Fin 64) (bits : BitVec 3) (by_ : MovWriter) (s : State) : Out :=
  .next (s.movWrite hub ch.val (bits ||| 4).toNat by_)

/-- MOV_PRIO takes a value (R367, R381). -/
def State.movPrio (s : State) (h : Hub) (c : Nat) (v : BitVec 32) (byHost : Bool) : State :=
  if byHost == s.isDirect h c then s.setChan h c { s.chan h c with prio := v.extractLsb' 0 3 } else s

/-- MOV_PRIO_WRITE: the running priority changes from the next grant on (R367). -/
def execMovPrioWrite (hub : Hub) (ch : Fin 64) (value : BitVec 32) (by_ : MovWriter) (s : State) : Out :=
  .next (s.movPrio hub ch.val value (match by_ with
    | .host => true
    | .firmware _ => false))

/-! ### Bursts (R355, R366, R368, R374) -/

/-- The step at which a burst may end: the narrower width of the sides it reads and writes. -/
def burstStep (fill : Bool) (a b : Side) : Nat := if fill then b.w else min a.w b.w

/-- What a side contributes to the limits of a burst that has reached stream byte `p`: its granules so far. -/
def Side.granules (x : Side) (p : Nat) (g : List Nat) : List Nat :=
  let k := x.byte p / 64
  if k ∈ g then g else k :: g

/-- Whether a side ends a burst at stream byte `p`: its next element starts there, lies in another 4 KiB of its space
and is not contiguous with the last (R355). -/
def Side.breaks (x : Side) (p : Nat) : Bool :=
  p % x.w == 0 && (let e := x.elem (p / x.w)
    let l := x.elem (p / x.w - 1)
    e / 4096 != l / 4096 && e != l + (x.w : Int))

/-- The end of the burst that starts at `from_`: at most 4,096 bytes and 128 granules a side, and whole elements
(R355). -/
def burstEnd (fill : Bool) (a b : Side) (from_ : Nat) : Nat :=
  let st := burstStep fill a b
  let fits (p : Nat) : Bool := decide (p < from_ + 4096) && decide (p < b.total)
    && (p % b.w != 0 || decide (p + b.w ≤ from_ + 4096)) && (fill || p % a.w != 0 || decide (p + a.w ≤ from_ + 4096))
    && (p == from_ || (!b.breaks p && (fill || !a.breaks p)))
  let walk := (List.range 4096).foldl (fun (x : Nat × List Nat × List Nat × Bool) _ =>
    if !x.2.2.2 || !fits x.1 then (x.1, x.2.1, x.2.2.1, false)
    else
      let ga := if fill then x.2.1 else a.granules x.1 x.2.1
      let gb := b.granules x.1 x.2.2.1
      if 128 < ga.length || 128 < gb.length then (x.1, x.2.1, x.2.2.1, false) else (x.1 + st, ga, gb, true))
    (from_, [], [], true)
  max (from_ + st) walk.1

/-- The granules a burst touches on a side (R374). -/
def Side.touched (x : Side) (lo hi : Nat) : Nat :=
  ((List.range (hi - lo)).map (fun i => x.byte (lo + i) / 64)).dedup.length

/-- The arbiters a side's reads or writes pass (R351, R366). -/
def Side.ports (x : Side) (h : Hub) (write : Bool) : List MovPort :=
  let g := x.hub h
  let far (l : List MovPort) : List MovPort :=
    if g = h then l else if write then .bridge h g :: l else l ++ [.bridge g h]
  if x.space = 0 then [if write then .hostWrite h else .hostRead h]
  else if x.space = 1 then far [.bank g (Fin.ofNat 16 x.unit)]
  else if x.space = 2 then far [.stack (Fin.ofNat 8 (2 * g.val + x.unit))]
  else if x.space = 3 then [.link (x.link h)]
  else far []

/-- The arbiters a burst of a transfer passes, in order: those of its reads, then those of its writes (R355, R356). -/
def burstPorts (t : Tab (BitVec 32)) (h : Hub) (c : Fin 64) : List MovPort :=
  let a := (srcOf t).ports h false
  let b := (dstOf t).ports h (ctrlMode t != 2)
  let l := (if ctrlMode t = 1 then [] else a) ++ b
  if l.isEmpty then [.free h c] else l

/-- Whether RATE lets a channel start its next burst (R368): channel time passes at 128 GB/s, 819.2 bytes a tick. -/
def Channel.rateOk (c : Channel) (tick : Nat) : Bool :=
  ctrlRate c.active == 0 || decide (c.time * 64 * 5 ≤ ctrlRate c.active * (tick - c.since) * 4096)

/-- The arbiter a channel requests now, if it requests one. -/
def State.requests (s : State) (h : Hub) (c : Fin 64) : Option MovPort :=
  let x := s.chan h c.val
  if x.state == ChanState.running && x.asked.isNone && (x.passed ≠ 0 || x.rateOk s.tick) then
    (burstPorts x.active h c)[x.passed]?
  else none

/-- Every channel, numbered hub × 64 + channel. -/
def allChans : List (Hub × Fin 64) := (List.finRange 4).flatMap (fun h => (List.finRange 64).map (fun c => (h, c)))

/-- A channel's number at an arbiter. -/
def chanNo (x : Hub × Fin 64) : Nat := x.1.val * 64 + x.2.val

/-- The last channel an arbiter granted at a priority. -/
def State.lastGrant (s : State) (p : MovPort) (prio : Nat) : Option Nat :=
  (s.mov.pointers.find? (fun e => e.1 == (p, prio))).map Prod.snd

/-- The channel an arbiter grants: of the highest priority, then numbered next above the last granted at that priority
(R366). -/
def State.arbitrate (s : State) (p : MovPort) : Option (Hub × Fin 64) :=
  let req := allChans.filter (fun x => s.requests x.1 x.2 == some p)
  let prio (x : Hub × Fin 64) : Nat := (s.chan x.1 x.2.val).prio.toNat
  let top := req.foldl (fun a x => max a (prio x)) 0
  let best := req.filter (fun x => prio x == top)
  match s.lastGrant p top with
  | some n => ((best.filter (fun x => n < chanNo x)) ++ best).head?
  | none => best.head?

/-- An arbiter's pointer of a priority after a grant. -/
def State.granted (s : State) (p : MovPort) (x : Hub × Fin 64) : State :=
  let k := (s.chan x.1 x.2.val).prio.toNat
  { s with mov := { s.mov with pointers := s.mov.pointers.filter (fun e => e.1 ≠ (p, k)) ++ [((p, k), chanNo x)] } }

/-! ### Bytes (R356 to R360) -/

/-- The raw memory of a bank (0 to 63) or stack (64 to 71) as the movers reach it. -/
def State.unitMem (s : State) (i : Nat) : UnitMem := tabGet { bytes := [], poison := [] } s.mov.mem i

/-- The number under which a SHADE or UMBRA side's raw memory is held. -/
def Side.memNo (x : Side) (h : Hub) : Nat :=
  if x.space = 1 then 16 * (x.hub h).val + x.unit else 64 + 2 * (x.hub h).val + x.unit

/-- Stream bytes `[lo, hi)` read from a side, each with its poison mark. A LANE's output is not given by the manual: each
byte of it is a free value. -/
def State.sideRead (s : State) (x : Side) (h : Hub) (lo hi : Nat) (got : Option (List Byte × Bool)) :
    List (Byte × Bool) × State :=
  let ps := (List.range (hi - lo)).map (fun i => x.byte (lo + i))
  if x.space = 0 then (ps.map (fun a => (tabGet 0 s.host.mem a, tabGet false s.host.poison a)), s)
  else if x.space = 1 || x.space = 2 then
    let u := s.unitMem (x.memNo h)
    (ps.map (fun a => (tabGet 0 u.bytes a, decide (a / 4096 ∈ u.poison))), s)
  else if x.space = 3 then
    let base := ps.foldl min (ps.headD 0)
    match got with
    | some (l, p) => (ps.map (fun a => (l.getD (a - base) 0, p)), s)
    | none => (ps.map (fun _ => (0, false)), s)
  else if x.space = 4 then
    let g := s.engine (x.hub h) x.unit
    (ps.map (fun a => (tabGet 0 g.work a, false)), s)
  else
    let (v, s) := s.fresh 32768
    (ps.zipIdx.map (fun q => (BitVec.ofNat 8 (v.toNat >>> (8 * q.2)), false)), s)

/-- Bytes written to a bank or stack: a block that takes a poisoned byte is poisoned, and one covered whole by unpoisoned
bytes loses its mark (R359, R360). -/
def UnitMem.write (u : UnitMem) (ws : List (Nat × (Byte × Bool))) : UnitMem :=
  let bs := (ws.map (fun w => w.1 / 4096)).dedup
  let bad (b : Nat) : Bool := ws.any (fun w => w.1 / 4096 == b && w.2.2)
  let whole (b : Nat) : Bool := decide (4096 ≤ ((ws.filter (fun w => w.1 / 4096 == b)).map Prod.fst).dedup.length)
  { bytes := ws.foldl (fun m w => tabPut 0 m w.1 w.2.1) u.bytes
    poison := bs.foldl (fun p b => if bad b then (if b ∈ p then p else p ++ [b]) else if whole b then p.filter (· ≠ b) else p)
      u.poison }

/-- The number under which a request of a channel is kept among those out on links. -/
def moverOp (h : Hub) (c : Nat) : Nat := 2 ^ 32 + 64 * h.val + c

/-- A request is sent over a link, kept until it is answered (R155, R404). -/
def State.sendReq (s : State) (q : PnReq) : State :=
  let q := { q with tag := s.lnk.nextTag, since := s.tick }
  let s := { s with lnk := { s.lnk with nextTag := s.lnk.nextTag + 1, reqs := s.lnk.reqs ++ [q] } }
  s.sendMsg (Fin.ofNat 32 q.link) q.msg

/-- Bytes written into the peer's window: a PN_WR for each block they meet. The bytes of such a block that the burst does
not write are not given by the manual: they are free values. -/
def State.windowWrite (s : State) (l : LinkNo) (h : Hub) (c prio : Nat) (ws : List (Nat × (Byte × Bool))) : State :=
  ((ws.map (fun w => w.1 / 4096)).dedup).foldl (fun (s : State) b =>
    let mine := ws.filter (fun w => w.1 / 4096 == b)
    let (v, s) := if mine.length < 4096 then s.fresh 32768 else (0, s)
    let t : Tab Byte := mine.foldl (fun m w => tabIns m (w.1 % 4096) w.2.1) []
    let data := (List.range 4096).map (fun i => tabGet (BitVec.ofNat 8 (v.toNat >>> (8 * i))) t i)
    s.sendReq { tag := 0, link := l.val, write := true, addr := BitVec.ofNat 48 (b * 4096), len := 4096, prio := prio,
                poison := mine.any (fun w => w.2.2), data := data, since := 0, op := moverOp h c, again := false }) s

/-- Stream bytes from `lo` on written to a side. -/
def State.sideWrite (s : State) (x : Side) (h : Hub) (c lo prio : Nat) (bytes : List (Byte × Bool)) : State :=
  let ws := (bytes.zipIdx).map (fun q => (x.byte (lo + q.2), q.1))
  if x.space = 0 then
    let mem := ws.foldl (fun m w => tabPut 0 m w.1 w.2.1) s.host.mem
    let marks := ws.foldl (fun m w => tabPut false m w.1 w.2.2) s.host.poison
    let s := { s with host := { mem := mem, poison := marks } }
    let p := s.rg.ports[h]
    if p.writes.any (fun w : PortWrite => w.ch == c && !w.late) then s
    else s.setPort h { p with writes := p.writes ++ [{ tag := p.nextTag, ch := c, late := false }], nextTag := p.nextTag + 1 }
  else if x.space = 1 || x.space = 2 then
    let u := (s.unitMem (x.memNo h)).write ws
    { s with mov := { s.mov with mem := tabPut { bytes := [], poison := [] } s.mov.mem (x.memNo h) u } }
  else if x.space = 3 then s.windowWrite (x.link h) h c prio ws
  else if x.space = 4 then
    let g := s.engine (x.hub h) x.unit
    let bad := bytes.any Prod.snd
    let tile := g.tile.map (fun t : TileRun => ({ t with poisoned := t.poisoned || bad } : TileRun))
    s.setEngine (x.hub h) x.unit { g with work := ws.foldl (fun m w => tabPut 0 m w.1 w.2.1) g.work, tile := tile }
  else s

/-! ### Bus errors (R375, R376) -/

/-- A channel halts on a bus error: the mover address of the first failing element and the cause are latched, and C3 is
told, or host software in direct mode; an IDLE channel has no burst to end and only latches (R375, R376). -/
def State.haltChan (s : State) (h : Hub) (c : Nat) (cause : Nat) (write late : Bool) : State :=
  let x := s.chan h c
  let side := if write || ctrlMode x.active = 1 then dstOf x.active else srcOf x.active
  let a := side.base / 2 ^ offBits side.space * 2 ^ offBits side.space + side.byte (min x.done (side.total - 1))
  let info := 2 ^ 31 + (if write then 2 ^ 30 else 0) + cause * 2 ^ 26 + (if late then 2 ^ 25 else 0)
  let atOnce := !late || x.passed = 0 || x.state != ChanState.running
  let x := { x with err := BitVec.ofNat 64 a, errInfo := BitVec.ofNat 32 info,
                    halting := !atOnce,
                    state := if x.state == ChanState.idle then .idle else if atOnce then .halted else x.state,
                    passed := if atOnce then 0 else x.passed, asked := if atOnce then none else x.asked,
                    got := if atOnce then [] else x.got }
  let s := (s.setChan h c x).event h (ev 0x0070 2 (c + cause * 64 + late.toNat * 1024))
  let m := s.mov.hubs[h]
  if s.isDirect h c then s.setMovers h { m with evtHalt := m.evtHalt ||| (1#8 <<< (c - 56)) } else s

/-- A cause's number (Table 10-10). -/
def busCode : BusCause → Nat
  | .hostError => 1 | .hostTimeout => 2 | .unreachable => 3 | .frozen => 4 | .range => 5 | .fenceTimeout => 6

/-- BUS_ERROR: a burst, or the fence, of a channel's transfer meets a bus error (R375). -/
def execBusError (hub : Hub) (ch : Fin 64) (cause : BusCause) (write : Bool) (s : State) : Out :=
  let x := s.chan hub ch.val
  .next (if x.state == ChanState.running || x.state == ChanState.waiting then
    s.haltChan hub ch.val (busCode cause) write false else s)

/-- The bus error a side's unit answers with: UNREACHABLE when OUT, FROZEN when written while frozen or emptied
(Table 10-10). -/
def State.sideError (s : State) (x : Side) (h : Hub) (write : Bool) : Option Nat :=
  match x.tierUnit h with
  | some u => match s.unitState u with
    | .out => some 3
    | .frozen => if write then some 4 else none
    | .emptied => if write then some 4 else none
    | _ => none
  | none => none

/-! ### A burst done (R355 to R360, R365, R376) -/

/-- Mismatched bytes of a compare: those that differ, and every byte of a poisoned block (R356, R360). -/
def mismatches (a b : List (Byte × Bool)) : List Nat :=
  ((a.zip b).zipIdx.filter (fun q => q.1.1.1 != q.1.2.1 || q.1.1.2 || q.1.2.2)).map Prod.snd

/-- Saturating 32-bit count. -/
def sat32 (n : Nat) : BitVec 32 := BitVec.ofNat 32 (min n 0xFFFFFFFF)

/-- The channel after a burst of stream bytes `[lo, hi)`: its counts, its channel time, and its first mismatch or check
failure. -/
def Channel.afterBurst (c : Channel) (lo hi granules : Nat) (miss : List Nat) (failed poison : Bool) : Channel :=
  let first := match miss.head?, failed with
    | some i, _ => some (lo + i)
    | none, true => some lo
    | none, false => none
  { c with done := hi, passed := 0, asked := none, got := [], progress := BitVec.ofNat 64 hi, time := c.time + 64 * granules,
           cmpCount := sat32 (c.cmpCount.toNat + miss.length), checkFail := sat32 (c.checkFail.toNat + failed.toNat),
           cmpFirst := (match first with
             | some o => if c.cmpFirst == 0xFFFFFFFFFFFFFFFF#64 then BitVec.ofNat 64 o else c.cmpFirst
             | none => c.cmpFirst)
           poisonSeen := c.poisonSeen || poison }

/-- A channel whose last burst is done waits at its sync point, behind a fence for SYNC HOST (R370). -/
def State.atSync (s : State) (h : Hub) (c : Nat) : State :=
  let x := s.chan h c
  if x.done < (dstOf x.active).total then s
  else if ctrlSync x.active = 2 then
    let n := s.rg.ports[h].nextFence
    (s.sendFence h).setChan h c { x with state := .waiting, fence := some n }
  else s.setChan h c { x with state := .waiting }

/-- A burst that has passed its arbiters moves its bytes. -/
def State.burst (s : State) (h : Hub) (c : Fin 64) (checkFails : Bool) : State :=
  let x := s.chan h c.val
  let a := srcOf x.active
  let b := dstOf x.active
  let mode := ctrlMode x.active
  let lo := x.done
  let hi := burstEnd (mode == 1) a b lo
  let readErr := if mode = 1 then none else s.sideError a h false
  match readErr, s.sideError b h (mode != 2) with
  | some e, _ => s.haltChan h c.val e false false
  | none, some e => s.haltChan h c.val e (mode != 2) false
  | none, none =>
    let fillByte (p : Nat) : Byte := BitVec.ofNat 8 ((setWord x.active 17 + setWord x.active 18 * 2 ^ 32) >>> (8 * (p % 8)))
    let (src, s) := if mode = 1 then ((List.range (hi - lo)).map (fun i => (fillByte (lo + i), false)), s)
      else s.sideRead a h lo hi x.got.head?
    let (dst, s) := if mode = 2 then s.sideRead b h lo hi x.got.getLast? else ([], s)
    let s := if mode = 2 then s else s.sideWrite b h c.val lo x.prio.toNat src
    let failed := checkFails && ctrlCheck x.active
    let g := max (if mode = 1 then 0 else a.touched lo hi) (b.touched lo hi)
    let y := x.afterBurst lo hi g (if mode = 2 then mismatches src dst else []) failed
      (src.any Prod.snd || dst.any Prod.snd)
    if y.aborting then s.setChan h c.val y.abort
    else if y.halting then s.setChan h c.val { y with halting := false, state := .halted }
    else (s.setChan h c.val y).atSync h c.val

/-- The reads of the peer's window that a granted link burst sends first: one PN_RD over the bytes it reads. -/
def State.askWindow (s : State) (h : Hub) (c : Fin 64) (side : Side) : State :=
  let x := s.chan h c.val
  let hi := burstEnd (ctrlMode x.active == 1) (srcOf x.active) (dstOf x.active) x.done
  let ps := (List.range (hi - x.done)).map (fun i => side.byte (x.done + i))
  let lo := ps.foldl min (ps.headD 0)
  let n := (ps.foldl max 0) + 1 - lo
  let tag := s.lnk.nextTag
  (s.sendReq { tag := 0, link := (side.link h).val, write := false, addr := BitVec.ofNat 48 lo, len := n,
               prio := x.prio.toNat, poison := false, data := [], since := 0, op := moverOp h c.val, again := false }).setChan h c.val
    { x with passed := x.passed + 1, asked := some tag }

/-- A channel has passed one more arbiter: the burst is done once it has passed them all. -/
def State.passPort (s : State) (h : Hub) (c : Fin 64) (checkFails : Bool) : State :=
  let x := s.chan h c.val
  if (burstPorts x.active h c).length ≤ x.passed then s.burst h c checkFails else s

/-- BURST_GRANT: a shared unit grants one burst (R366). A burst that reads the peer's window waits for the bytes. -/
def execBurstGrant (port : MovPort) (checkFails : Bool) (s : State) : Out :=
  if s.stalled then .next s else
  match s.arbitrate port with
  | none => .next s
  | some (h, c) =>
    let x := s.chan h c.val
    let a := srcOf x.active
    let b := dstOf x.active
    let mode := ctrlMode x.active
    let s := s.granted port (h, c)
    let nSrc := if mode = 1 then 0 else (a.ports h false).length
    let reads := if x.passed < nSrc then a.space == 3 else b.space == 3 && mode == 2
    if reads then .next (s.askWindow h c (if x.passed < nSrc then a else b))
    else .next ((s.setChan h c.val { x with passed := x.passed + 1 }).passPort h c checkFails)

/-! ### Sync points (R363, R369, R370) -/

/-- Whether the sync point of a WAITING channel is reached: a fence answered, every write to the peer's window
landed. -/
def State.synced (s : State) (h : Hub) (c : Nat) : Bool :=
  let x := s.chan h c
  (match x.fence with
    | some n => !s.rg.ports[h].fences.any (fun f : PortFence => f.number == n)
    | none => true)
  && (ctrlSync x.active ≠ 1 || !s.lnk.reqs.any (fun q : PnReq => q.op == moverOp h c))

/-- How a transfer ends (Table 10-5, R356, R358). -/
def Channel.endCode (c : Channel) (confirmFails : Bool) : BitVec 3 :=
  if confirmFails && ctrlSync c.active = 1 && ctrlCheck c.active then 4
  else if c.checkFail ≠ 0 then 1 else if ctrlMode c.active = 2 && c.cmpCount ≠ 0 then 2 else 0

/-- TRANSFER_COMPLETE: a WAITING channel's sync point is reached: one pulse on its line where EVENT_EN is 1, and a valid
shadow set becomes active (R363, R369, R370). -/
def execTransferComplete (hub : Hub) (ch : Fin 64) (confirmFails : Bool) (s : State) : Out :=
  if s.stalled then .next s else
  let x := s.chan hub ch.val
  if x.state != ChanState.waiting || !s.synced hub ch.val then .next s
  else
    let x' := { x with state := .idle, last := x.endCode confirmFails, fence := none }
    let s := s.setChan hub ch.val (if x.shadowValid then x'.promote s.tick else x')
    let p := s.rg.ports[hub]
    let ws := (p.writes.filter (fun w : PortWrite => !(w.ch == ch.val && w.late))).map (fun w : PortWrite =>
      if w.ch = ch.val then { w with late := true } else w)
    let s := s.setPort hub { p with writes := ws }
    .next (if ctrlEventEn x.active then s.eventPulse hub (ctrlEvent x.active) else s)

/-! ### Retirement and direct mode (R378 to R383) -/

/-- CHANNEL_RETIRED (R378, R379). -/
def execChannelRetired (hub : Hub) (ch : Fin 64) (s : State) : Out := .next (s.retireChannel hub ch.val)

/-- A write of MOV_DIRECT: a request for channels is taken while no context exists and ring 0 has no command in flight;
REQ 0 returns them (R380, R383). -/
def State.directReq (s : State) (h : Hub) (v : BitVec 32) : State :=
  let m := s.mov.hubs[h]
  let n := v.extractLsb' 0 4
  let quiet := s.ctxs.isEmpty && (match s.ring? 0 with
    | some r => r.inflight.isEmpty
    | none => true)
  if n = 0 || (n ≤ 8 && quiet) then s.setMovers h { m with directReq := n, directWanted := some n }
  else s.setMovers h { m with directReq := n, directDenied := true }

/-- MOV_DIRECT_REQ (R380). -/
def execMovDirectReq (hub : Hub) (value : BitVec 32) (s : State) : Out := .next (s.directReq hub value)

/-- DIRECT_GRANT: once the channels asked for, or returned, are IDLE, GRANTED takes REQ and DENIED clears (R380,
R383). -/
def execDirectGrant (hub : Hub) (s : State) : Out :=
  let m := s.mov.hubs[hub]
  match m.directWanted with
  | some n =>
    let low := 64 - max n.toNat m.directGranted.toNat
    if (List.range 64).all (fun c => c < low || (s.chan hub c).state == ChanState.idle) then
      .next (s.setMovers hub { m with directGranted := n, directDenied := if n = 0 then m.directDenied else false,
                                      directWanted := none })
    else .next s
  | none => .next s

end Sys2Proof.Machine
end

