-- ==== Sys2Proof/Machine/Vault.lean ====
section
/-!
DEFINITION. The vault as its holder keeps it, and the Penumbra requests a holder serves (R402 to R404, R490 to R503).
-/
namespace Sys2Proof.Machine

/-! ### Images -/

/-- The image in a slot. -/
def State.image? (s : State) (slot : Nat) : Option Image := s.vault.images.find? (fun i => i.slot == slot)

/-- An image's entry replaced. -/
def State.setImage (s : State) (i : Image) : State :=
  { s with vault := { s.vault with images := s.vault.images.map (fun x => if x.slot = i.slot then i else x) } }

/-- An image is released: its frames are free, its poison marks go, its slot is FREE (R500). -/
def State.dropImage (s : State) (slot : Nat) : State :=
  { s with vault := { s.vault with images := s.vault.images.filter (fun x => x.slot ≠ slot) } }

/-- Bytes of an image as one number. -/
def Image.num (i : Image) (off n : Nat) : Nat := bytesNat i.data off n

/-- Poisoned blocks of an image. -/
def Image.poisoned (i : Image) : Nat := i.poison.length

/-- A directory record (Table 14-9); a FREE slot's names only the slot. STEP and FMT_MINOR are those of the manifest as
written so far. -/
def State.dirRecord (s : State) (slot : Nat) : List Byte :=
  match s.image? slot with
  | none => leBytes 1 slot ++ leBytes 31 0
  | some i =>
    leBytes 1 slot ++ leBytes 1 (if i.state == ImgState.sealed then 2 else 1)
      ++ leBytes 1 (i.incomplete.toNat + i.kind * 2 + i.orphan.toNat * 4) ++ leBytes 1 (i.num 5 1)
      ++ leBytes 2 i.rank.toNat ++ leBytes 2 0 ++ leBytes 8 i.key.toNat ++ leBytes 4 i.ckptNo.toNat ++ leBytes 4 (i.num 24 4)
      ++ leBytes 4 i.frames ++ leBytes 4 i.poisoned

/-- The frames of a peer's grant in use: window frames mapped and frames of the images it created (R491). -/
def State.grantUsed (s : State) (p : Peer) : Nat :=
  p.frames.length + ((s.vault.images.filter (fun i : Image => i.creator == p.pkg)).map Image.frames).sum

/-! ### Request and result blocks (R499) -/

/-- The fields of a request block. -/
def vaultReqOf (b : List Byte) : VaultReq :=
  let n := leValue (b.take 32)
  { op := bitsOf n 7 0, kind := bitsOf n 15 8, retain := bitsOf n 23 16, rank := BitVec.ofNat 16 (bitsOf n 47 32),
    key := BitVec.ofNat 64 (bitsOf n 127 64), ckptNo := BitVec.ofNat 32 (bitsOf n 159 128), frames := bitsOf n 191 160,
    slot := bitsOf n 199 192 }

/-- The first 32 bytes of a request block. -/
def VaultReq.bytes (q : VaultReq) : List Byte :=
  leBytes 1 q.op ++ leBytes 1 q.kind ++ leBytes 1 q.retain ++ [0] ++ leBytes 2 q.rank.toNat ++ leBytes 2 0
    ++ leBytes 8 q.key.toNat ++ leBytes 4 q.ckptNo.toNat ++ leBytes 4 q.frames ++ leBytes 1 q.slot ++ leBytes 7 0

/-- The request a tag of a link holds. -/
def State.vaultReq? (s : State) (l : LinkNo) (tag : Nat) : Option VaultReq :=
  (s.vault.requests.find? (fun e => e.1 == (l.val, tag))).map Prod.snd

/-- The result block of a tag, once its request is answered. -/
def State.vaultResult? (s : State) (l : LinkNo) (tag : Nat) : Option (List Byte) :=
  (s.vault.results.find? (fun e => e.1 == (l.val, tag))).map Prod.snd

/-- A request is answered in the result block of its tag; the SLOT of an answer that names none is a free value (R499). -/
def State.vaultAnswer (s : State) (l : LinkNo) (tag : Nat) (status : Nat) (slot : Option Nat) (records : List (List Byte)) :
    State :=
  let (v, s) := match slot with
    | some n => (BitVec.ofNat 8 n, s)
    | none => s.fresh 8
  let body := leBytes 1 status ++ leBytes 1 v.toNat ++ leBytes 2 records.length ++ leBytes 60 0 ++ records.flatten
  let block := body ++ List.replicate (4096 - body.length) 0#8
  let reqs := s.vault.requests.filter (fun e => e.1 ≠ (l.val, tag))
  let rs := s.vault.results.filter (fun e => e.1 ≠ (l.val, tag)) ++ [((l.val, tag), block)]
  { s with vault := { s.vault with requests := reqs, results := rs } }

/-- The peer on a link, as the creator it would be. -/
def State.linkPkg (s : State) (l : LinkNo) : BitVec 64 := ((s.lnk.links[l].peer).map PeerHello.pkg).getD 0

/-- VAULT_CREATE: a FREE slot and FRAMES frames of the bundle's grant make a WRITING image (R491, R492, R500). -/
def execVaultCreate (l : LinkNo) (tag : Fin 16) (s : State) : Out :=
  match s.vaultReq? l tag.val with
  | some q =>
    if q.op ≠ 1 then .next s
    else
      let fail (e : Nat) : Out := .next (s.vaultAnswer l tag.val e none [])
      let same (i : Image) : Bool := i.kind == q.kind && i.key == q.key && i.rank == q.rank && i.ckptNo == q.ckptNo
      if s.vault.images.any same then fail 0x81
      else match (List.range 256).find? (fun n => (s.image? n).isNone) with
        | none => fail 0x86
        | some slot =>
          let p := (s.peer? (s.linkPkg l)).getD (Peer.fresh (s.linkPkg l) 0)
          if p.grantGiven < (s.grantUsed p + q.frames) * 2097152 then fail 0x17
          else
            let i : Image :=
              { slot := slot, state := .writing, kind := q.kind, key := q.key, rank := q.rank, ckptNo := q.ckptNo,
                frames := q.frames, incomplete := false, orphan := false, poison := [], creator := p.pkg,
                lastBlock := s.tick, order := 0, data := [] }
            let s := { s with vault := { s.vault with images := s.vault.images ++ [i] } }
            .next (s.vaultAnswer l tag.val 0 (some slot) [])
  | none => .next s

/-- The bytes a manifest's check value covers (Table 14-5). -/
def manifestLen (img : Tab Byte) : Nat := 64 + 64 * bytesNat img 18 2 + 8 * bytesNat img 28 4

/-- Whether MAN_CRC matches the manifest (Table 14-5). -/
def manifestOk (img : Tab Byte) : Bool :=
  let bytes := (List.range (manifestLen img)).map (fun i => if 60 ≤ i && i < 64 then 0#8 else tabGet 0#8 img i)
  (crc32c bytes).toNat == bytesNat img 60 4

/-- The oldest SEALED images of one kind, key and rank beyond RETAIN are released (R500). -/
def State.retain (s : State) (i : Image) (n : Nat) : State :=
  let same := s.vault.images.filter (fun x : Image => x.state == ImgState.sealed && x.kind == i.kind && x.key == i.key
    && x.rank == i.rank)
  let old := same.filter (fun x : Image => n ≤ (same.filter (fun y : Image => x.order < y.order)).length)
  if n = 0 then s else old.foldl (fun (s : State) (x : Image) => s.dropImage x.slot) s

/-- VAULT_SEAL (R500, Table 14-10). -/
def execVaultSeal (l : LinkNo) (tag : Fin 16) (s : State) : Out :=
  match s.vaultReq? l tag.val with
  | some q =>
    if q.op ≠ 2 then .next s
    else
      let ours (i : Image) : Bool := i.state == ImgState.writing && i.kind == q.kind && i.key == q.key && i.rank == q.rank
        && i.ckptNo == q.ckptNo
      match (s.image? q.slot).filter ours with
      | none => .next (s.vaultAnswer l tag.val 0x82 none [])
      | some i =>
        if !manifestOk i.data then .next (s.vaultAnswer l tag.val 0x21 (some q.slot) [])
        else
          let i := { i with state := .sealed, incomplete := i.incomplete || bitOf (i.num 7 1) 0 || !i.poison.isEmpty,
                            order := s.vault.order }
          let s := (s.setImage i)
          let s := { s with vault := { s.vault with order := s.vault.order + 1 } }
          .next ((s.retain i q.retain).vaultAnswer l tag.val 0 (some q.slot) [])
  | none => .next s

/-- VAULT_DROP releases a SEALED image of the key and rank named, or a WRITING one over the bundle that created it
(R500). -/
def execVaultDrop (l : LinkNo) (tag : Fin 16) (s : State) : Out :=
  match s.vaultReq? l tag.val with
  | some q =>
    if q.op ≠ 3 then .next s
    else
      let hit (i : Image) : Bool := i.kind == q.kind && i.key == q.key && i.rank == q.rank && i.ckptNo == q.ckptNo
        && (i.state == ImgState.sealed || i.creator == s.linkPkg l)
      match s.vault.images.find? hit with
      | none => .next (s.vaultAnswer l tag.val 0x82 none [])
      | some i => .next ((s.dropImage i.slot).vaultAnswer l tag.val 0 (some i.slot) [])
  | none => .next s

/-- VAULT_LIST: the records of every non-FREE slot of a kind and key; a result block holds 126 (R499, R500). -/
def execVaultList (l : LinkNo) (tag : Fin 16) (s : State) : Out :=
  match s.vaultReq? l tag.val with
  | some q =>
    if q.op ≠ 4 then .next s
    else
      let hit (n : Nat) : Bool := match s.image? n with
        | some i => i.kind == q.kind && i.key == q.key && (q.rank == 0xFFFF || i.rank == q.rank)
        | none => false
      let rs := (((List.range 256).filter hit).take 126).map s.dirRecord
      .next (s.vaultAnswer l tag.val 0 none rs)
  | none => .next s

/-- VAULT_STATUS: the record of one slot (R500). -/
def execVaultStatus (l : LinkNo) (tag : Fin 16) (s : State) : Out :=
  match s.vaultReq? l tag.val with
  | some q => if q.op ≠ 5 then .next s else .next (s.vaultAnswer l tag.val 0 (some q.slot) [s.dirRecord q.slot])
  | none => .next s

/-- WRITING_IMAGE_EXPIRY: a WRITING image that has received no block for 10 s is released (R501). -/
def execWritingImageExpiry (slot : Fin 256) (s : State) : Out :=
  match s.image? slot.val with
  | some i => .next (if i.state == ImgState.writing && i.lastBlock + 10000 * msTicks ≤ s.tick then s.dropImage slot.val else s)
  | none => .next s

/-! ### Admin commands of the vault -/

/-- What R313 checks of VAULT_QUERY. -/
def vaultQuerySpec (d : Desc) : DescSpec :=
  let slot := d.f 71 64
  let n := if d.f 79 72 = 0 then 256 else d.f 79 72
  { job := false, admin := true, needX := true, used := [(79, 64)], range := slot + n ≤ 256 }

/-- VAULT_QUERY: the directory records of COUNT slots (Table 14-1); RESULT is not given and is a free value. -/
def execVaultQuery (d : Desc) (s : State) : Out :=
  let slot := d.f 71 64
  let n := if d.f 79 72 = 0 then 256 else d.f 79 72
  .next (s.withDesc d (vaultQuerySpec d) (fun t s =>
    let (v, s) := s.fresh 64
    s.complete t { status := 0, result := v, xbytes := (List.range n).flatMap (fun i => s.dirRecord (slot + i)) }))

/-- What R313 checks of VAULT_RELEASE. -/
def vaultReleaseSpec : DescSpec :=
  { job := false, admin := true, used := [(79, 64)] }

/-- VAULT_RELEASE: the image in SLOT is released (R502, Table 14-1); RESULT is not given and is a free value. -/
def execVaultRelease (d : Desc) (s : State) : Out :=
  .next (s.withDesc d vaultReleaseSpec (fun t s =>
    match s.image? (d.f 71 64) with
    | none => s.complete t { status := 0x82 }
    | some i =>
      let (v, s) := (s.dropImage i.slot).fresh 64
      s.complete t { status := 0, result := v }))

/-- What R313 checks of CKPT_BIND. -/
def ckptBindSpec : DescSpec :=
  { job := false, admin := true, used := [(91, 64), (191, 128)] }

/-- CKPT_BIND (R490); RESULT is not given and is a free value. -/
def execCkptBind (d : Desc) (s : State) : Out :=
  .next (s.withDesc d ckptBindSpec (fun t s =>
    match s.ctx? (d.f 91 80) with
    | none => s.complete t { status := 0x51 }
    | some c =>
      let (v, s) := (s.setCtx { c with binding := some (BitVec.ofNat 64 (d.f 191 128), BitVec.ofNat 32 (d.f 79 64)) }).fresh 64
      s.complete t { status := 0, result := v }))

/-! ### Penumbra requests served (R402 to R404, R407) -/

/-- A PN_WR of a session has landed: the landed mark rises over every WSEQ without a gap, and signals it covers are
raised (R407). -/
def State.land (s : State) (l : LinkNo) (wseq : BitVec 32) : State :=
  let k := s.lnk.links[l]
  let ahead := if wseq.toNat ≤ k.landed.toNat || wseq.toNat ∈ k.landedAhead then k.landedAhead else k.landedAhead ++ [wseq.toNat]
  let top := ahead.length.repeat (fun n => if n + 1 ∈ ahead then n + 1 else n) k.landed.toNat
  let k := { k with landed := BitVec.ofNat 32 top, landedAhead := ahead.filter (fun w => top < w) }
  (s.setLink l k).raiseSignals

/-- The stack a window frame lies on, when it is mapped. -/
def Peer.stackOf (p : Peer) (frame : Nat) : Option Nat := (p.frameStacks.find? (fun f => f.1 == frame)).map Prod.snd

/-- A window frame mapped when it is first written: on the first stack from its number on that takes data and has a
frame free (R402). -/
def State.mapFrame (s : State) (frame : Nat) : Option Nat :=
  ((List.range 8).map (fun i => (frame + i) % 8)).find? (fun k => s.canTake (.umbra (Fin.ofNat 8 k)) 2097152 0 false)

/-- An answer sent on the link a request came by. -/
def State.pnAnswer (s : State) (l : LinkNo) (write : Bool) (m : PnMsg) (status : Nat) (poison : Bool) (arg : BitVec 64)
    (data : List Byte) : State :=
  s.sendMsg l (answerMsg write m.tag status poison (min 6 m.prio.toNat) arg data)

/-- Whether the stack of a mapped frame is OUT (R403). -/
def State.frameOut (s : State) (p : Peer) (frame : Nat) : Bool := match p.stackOf frame with
  | some k => s.units.stack[Fin.ofNat 8 k] == UnitState.out
  | none => false

/-- Whether a peer's window is frozen (R402). -/
def State.windowFrozen (s : State) (p : Peer) : Bool :=
  p.frameStacks.any (fun f => let st := s.units.stack[Fin.ofNat 8 f.2]; st == UnitState.frozen || st == UnitState.emptied)

/-- PN_RD of a peer's window (R403): NO_GRANT at or beyond the grant, UNREACHABLE on an OUT stack; a byte nothing has
written reads 0. -/
def State.windowRead (s : State) (l : LinkNo) (m : PnMsg) : State :=
  let n := m.lenM1.toNat + 1
  let a := m.addr.toNat
  match s.peer? (s.linkPkg l) with
  | none => s.pnAnswer l false m 2 false 0 []
  | some p =>
    if p.grantGiven < a + n then s.pnAnswer l false m 2 false 0 []
    else if s.frameOut p (a / 2097152) || s.frameOut p ((a + n - 1) / 2097152) then s.pnAnswer l false m 4 false 0 []
    else
      let bad := p.poison.any (fun b => decide (b * 4096 < a + n ∧ a < b * 4096 + 4096))
      s.pnAnswer l false m 0 bad 0 ((List.range n).map (fun i => tabGet 0#8 p.window (a + i)))

/-- A block of vault space read: the result of a request, or a block of a SEALED image (Table 14-8). A request not yet
answered leaves the read unanswered; the owner sends it again (R155). -/
def State.vaultRead (s : State) (l : LinkNo) (m : PnMsg) : State :=
  let a := m.addr.toNat
  let n := m.lenM1.toNat + 1
  let err := s.pnAnswer l false m 1 false 0 []
  if bitsOf a 46 44 = 1 then
    match s.vaultResult? l (bitsOf a 15 12), s.vaultReq? l (bitsOf a 15 12) with
    | some b, _ => if n < 64 then err else s.pnAnswer l false m 0 false 0 (b.take n)
    | none, some _ => s
    | none, none => err
  else if bitsOf a 46 44 = 2 then
    match s.image? (bitsOf a 43 36) with
    | some i =>
      let off := bitsOf a 35 0
      if i.state != ImgState.sealed || i.frames * 2097152 < off + n then err
      else
        let bad := i.poison.any (fun b => decide (b * 4096 < off + n ∧ off < b * 4096 + 4096))
        s.pnAnswer l false m 0 bad 0 ((List.range n).map (fun j => tabGet 0#8 i.data (off + j)))
    | none => err
  else err

/-- PN_RD (R403, R499). -/
def execPnRd (l : LinkNo) (m : PnMsg) (s : State) : Out :=
  if !s.linkIs l [.up, .reduced] then .next s
  else .next (if m.addr.getLsbD 47 then s.vaultRead l m else s.windowRead l m)

/-- The check value a PN_WR_ACK carries: the block's as committed (Table 11-3). -/
def blockCrc (m : PnMsg) : BitVec 64 := (crc32c m.data).setWidth 64

/-- A block written into a peer's window; its frame is mapped when first written (R402, R403). -/
def State.windowTake (s : State) (l : LinkNo) (m : PnMsg) : State :=
  let a := m.addr.toNat
  let frame := a / 2097152
  let no (st : Nat) : State := s.pnAnswer l true m st false 0 []
  match s.peer? (s.linkPkg l) with
  | none => no 2
  | some p =>
    let mapped := p.frames.contains frame
    if p.grantGiven < a + 4096 || (!mapped && p.grantGiven < (s.grantUsed p + 1) * 2097152) then no 2
    else if s.windowFrozen p then no 3
    else if s.frameOut p frame then no 4
    else match (if mapped then p.stackOf frame else s.mapFrame frame) with
      | none => no 3
      | some k =>
        let p := { p with frames := if mapped then p.frames else p.frames ++ [frame],
                          frameStacks := if mapped then p.frameStacks else p.frameStacks ++ [(frame, k)],
                          window := tabPaste p.window a 4096 (natTab 4096 (leValue m.data)),
                          poison := p.poison.filter (fun b => b ≠ a / 4096) ++ (if m.poison then [a / 4096] else []) }
        ((s.setPeer p).pnAnswer l true m 0 m.poison (blockCrc m) []).land l m.wseq

/-- A block written into vault space: a request block, or a block of a WRITING image (Table 14-8, R499). -/
def State.vaultTake (s : State) (l : LinkNo) (m : PnMsg) : State :=
  let a := m.addr.toNat
  let ok (s : State) : State := (s.pnAnswer l true m 0 m.poison (blockCrc m) []).land l m.wseq
  let err := s.pnAnswer l true m 1 false 0 []
  if bitsOf a 46 44 = 0 then
    let key := (l.val, bitsOf a 15 12)
    let reqs := s.vault.requests.filter (fun e => e.1 ≠ key) ++ [(key, vaultReqOf m.data)]
    ok { s with vault := { s.vault with requests := reqs, results := s.vault.results.filter (fun e => e.1 ≠ key) } }
  else if bitsOf a 46 44 = 2 then
    match s.image? (bitsOf a 43 36) with
    | some i =>
      let off := bitsOf a 35 0
      if i.state != ImgState.writing || i.frames * 2097152 < off + 4096 || off % 4096 ≠ 0 then err
      else
        let b := off / 4096
        ok (s.setImage { i with data := tabPaste i.data off 4096 (natTab 4096 (leValue m.data)), lastBlock := s.tick,
                                poison := i.poison.filter (fun x => x ≠ b) ++ (if m.poison then [b] else []) })
    | none => err
  else err

/-- PN_WR: a block whose check value does not match is answered with ERROR (R391, R403, R499). -/
def execPnWr (l : LinkNo) (m : PnMsg) (s : State) : Out :=
  if !s.linkIs l [.up, .reduced] then .next s
  else if (!m.poison && crc32c m.data ≠ m.bcrc) || m.addr.toNat % 4096 ≠ 0 then .next (s.pnAnswer l true m 1 false 0 [])
  else .next (if m.addr.getLsbD 47 then s.vaultTake l m else s.windowTake l m)

end Sys2Proof.Machine
end

