-- ==== Sys2Proof/Machine/Reliab.lean ====
section
/-!
DEFINITION. The scrubber, targeted self-tests and their decisions, Shade repair and DRAM page retirement (R514 to R548).
-/
namespace Sys2Proof.Machine

/-! ### Retirement of rows, slices and pages (R537 to R541) -/

/-- The physical row a row of a bank is served from: itself, or the spare it was last moved to (R537). -/
def State.physRow (s : State) (bank row : Nat) : Nat :=
  match s.rel.repair.rowMap.reverse.find? (fun r => r.1 == bank && r.2.1 == row) with
  | some r => 2048 + r.2.2
  | none => row

/-- The spare rows a bank has used. -/
def State.rowsUsed (s : State) (bank : Nat) : List (Nat × Nat × Nat) := s.rel.repair.rowMap.filter (fun r => r.1 == bank)

/-- The rows of a slice that have been moved to spare rows. -/
def State.sliceRows (s : State) (bank slice : Nat) : List (Nat × Nat × Nat) :=
  (s.rowsUsed bank).filter (fun r => r.2.1 / 128 == slice)

/-- A unit named by kind, index and sub-index on a hub. -/
def unitOf (h : Hub) (kind index sub : Nat) : UnitName := { hub := h.val, kind := kind, index := index, sub := sub }

/-- A change of the repair state. -/
def State.setRepair (s : State) (r : Repair) : State := { s with rel := { s.rel with repair := r } }

/-- A bank-slice is replaced by the hub's spare slice; with that in use it is retired and its bank is frozen, so that a
drain copies what can be read elsewhere (R538, Table 15-8). -/
def State.replaceSlice (s : State) (h : Hub) (b slice : Fin 16) : State :=
  let bank := h.val * 16 + b.val
  let u := unitOf h 6 b.val slice.val
  let r := s.rel.repair
  if u ∈ r.retired then s
  else
    let had := decide (0 < s.sparesLeft u)
    if had then ((s.setRepair { r with sliceUsed := r.sliceUsed ++ [(bank, slice.val, 0)] }).recordRetired u).substituted u true
    else (((s.setRepair { r with sliceRetired := r.sliceRetired ++ [(bank, slice.val, 0)] }).recordRetired u).substituted u
      false).freezeUnit (.shade h b)

/-- A row is copied to a spare row of its bank and the row map is switched; with no spare row left, or with more of them
used by the slice than it has working rows left, the slice is treated under R538 (R537, R538). -/
def State.retireRow (s : State) (h : Hub) (b : Fin 16) (row : Fin 2048) : State :=
  let bank := h.val * 16 + b.val
  let slice : Fin 16 := Fin.ofNat 16 (row.val / 128)
  let used := (s.rowsUsed bank).length
  let u := unitOf h 5 b.val (s.physRow bank row.val)
  if 32 ≤ used then ((s.recordRetired u).substituted u false).replaceSlice h b slice
  else
    let r := s.rel.repair
    let s := ((s.setRepair { r with rowMap := r.rowMap ++ [(bank, row.val, used)] }).recordRetired u).substituted u true
    let n := (s.sliceRows bank slice.val).length
    if 128 - n < n then s.replaceSlice h b slice else s

/-- The free reserve frames of a stack: those not taken by retired pages nor lent to homes and guests above the first
62 GiB (R67, R444, R540). -/
def State.reserveFree (s : State) (k : Stack) : Nat :=
  960 - s.reserveUsed k - (s.homeUse (.umbra k) / 2097152 + s.guestFrames k - 31744)

/-- A page is copied to a free reserve frame and the frame map is switched; below 128 free reserve frames the stack has a
persistent fault (R540, R541). -/
def State.retirePage (s : State) (k : Stack) (frame : Nat) : State :=
  let u : UnitName := { hub := k.val / 2, kind := 7, index := k.val, sub := frame }
  let r := s.rel.repair
  if u ∈ r.retired || s.reserveFree k = 0 then s
  else
    let s := ((s.setRepair { r with frameMap := r.frameMap ++ [(k.val, frame, s.reserveUsed k)] }).recordRetired u).substituted u
      true
    if s.reserveFree k < 128 then s.freezeUnit (.umbra k) else s

/-- ROW_RETIRE (R537). -/
def execRowRetire (hub : Hub) (bank : Fin 16) (row : Fin 2048) (s : State) : Out := .next (s.retireRow hub bank row)

/-- SLICE_REPLACE (R538). -/
def execSliceReplace (hub : Hub) (bank : Fin 16) (slice : Fin 16) (s : State) : Out :=
  .next (s.replaceSlice hub bank slice)

/-- PAGE_RETIRE (R539, R540). -/
def execPageRetire (k : Stack) (frame : Fin 32768) (s : State) : Out := .next (s.retirePage k frame.val)

/-! ### The history decision (R531, R532, Table 15-7) -/

/-- Table 15-7's count and window in ticks for findings of a class against a unit of a kind; none where the table names
no count. -/
def historyLimit (kind cls : Nat) : Option (Nat × Nat) :=
  let hour := 3600000 * msTicks
  match kind with
  | 1 => some (3, 24 * hour)
  | 2 => some (2, hour)
  | 3 => some (2, hour)
  | 4 => some (2, hour)
  | 5 => if cls = 1 then some (4, 24 * hour) else if cls = 2 then some (1, 24 * hour) else none
  | 7 => if cls = 1 then some (16, 24 * hour) else if cls = 2 then some (1, 24 * hour) else none
  | 8 => if cls = 6 then some (2, 1000 * msTicks) else none
  | 10 => some (2, 24 * hour)
  | 11 => some (2, hour)
  | 12 => some (2, hour)
  | _ => none

/-- The findings of a signature whose window, ending at `now`, holds them; corrected errors of a row or frame are counted
one by one (R529, R531). -/
def State.findingsIn (s : State) (u : UnitName) (cls now window : Nat) : Nat :=
  if cls = 1 then (s.rel.repair.corrected.filter (fun c => c.1 == u && decide (now ≤ c.2 + window))).length
  else (s.rel.findings.filter (fun f : Finding => f.unit == u && f.cls == cls && decide (now ≤ f.tick + window))).length

/-- Whether the history makes a unit permanent, with the count of its findings: for a bank-slice, three of its rows
retired (R531, Table 15-7). -/
def State.history (s : State) (u : UnitName) (cls now : Nat) : Bool × Nat :=
  if u.kind = 6 then
    let n := (s.sliceRows (u.hub * 16 + u.index) u.sub).length
    (decide (3 ≤ n), n)
  else match historyLimit u.kind cls with
    | some (n, w) => let c := s.findingsIn u cls now w
                     (decide (n ≤ c), c)
    | none => (false, (s.rel.findings.filter (fun f : Finding => f.unit == u && f.cls == cls)).length)

/-- Whether the history store holds a finding of a unit (R532). -/
def Store.holdsFinding (st : Store) (u : UnitName) : Bool :=
  st.journal.any (fun e : JEntry => (e.typ == 4 && e.key / 16 == unitCode u)
    || (e.typ == 9 && e.key / 2 ^ 128 == 4 && e.key % 2 ^ 128 / 16 == unitCode u))

/-! ### The self-test slice a unit belongs to (Table 16-1) -/

/-- The slice that tests a unit: its row of Table 16-1 from 0, and its number within the row; none for a unit no slice
tests (R557). -/
def sliceOf (u : UnitName) : Option Slice :=
  let sl (row unit : Nat) : Option Slice := some { hub := u.hub, row := row, unit := unit }
  match u.kind with
  | 1 => sl 0 u.index
  | 2 => sl 1 (u.index / 2)
  | 3 => sl 2 (u.index / 4)
  | 4 => sl 3 (u.index / 16)
  | 5 => sl 4 u.index
  | 6 => if u.index = 16 then sl 5 0 else sl 4 u.index
  | 7 => sl 9 (u.index % 2 * 64 + u.sub / 512)
  | 10 => sl 6 (u.index % 8)
  | 11 => if u.index < 3 then some { hub := 0, row := 7, unit := u.index }
          else if u.index < 5 then some { hub := 1, row := 7, unit := u.index - 3 }
          else some { hub := 2, row := 7, unit := 0 }
  | 14 => sl 8 0
  | 15 => sl 6 (u.index % 8)
  | 16 => sl 4 u.index
  | _ => none

/-- The slice of a unit with a transient decision is due at the next shut-down test (R558). -/
def State.sliceDue (s : State) (u : UnitName) : State :=
  match sliceOf u with
  | some x =>
    let b := s.rel.bist
    if x ∈ b.due then s else { s with rel := { s.rel with bist := { b with due := b.due ++ [x] } } }
  | none => s

/-! ### What a decision does (R533, R534, Table 15-8) -/

/-- A transient unit returns: the spare that stood in for it is idle again and an engine's counters stay with its number
(R461), and a link lane that passed is its link's spare (R398, R533). -/
def State.returnUnit (s : State) (u : UnitName) : State :=
  let h := unitHub u
  match u.kind with
  | 2 =>
    let x := s.rel.hubs[h]
    if x.engineSpare = some u.index then
      (s.setEngine h u.index { s.engine h u.index with ctrs := (s.engine h 12).ctrs }).setHealth h { x with engineSpare := none }
    else s
  | 4 =>
    let m := s.mov.hubs[h]
    s.setMovers h { m with phys := m.phys.filter (fun x => x.1 ≠ u.index) }
  | 10 =>
    let l : LinkNo := Fin.ofNat 32 u.index
    let k := s.lnk.links[l]
    if u.sub ∈ k.map then s.setLink l { k with bad := k.bad.filter (fun x => x ≠ u.sub) }
    else s.setLink l { k with bad := k.bad.filter (fun x => x ≠ u.sub), spare := u.sub, spareState := 0,
                              localTrained := false, peerTrained := false }
  | _ => s

/-- A unit without a spare of its own is retired, with its records (R533, R534). -/
def State.retiredAlone (s : State) (u : UnitName) : State := (s.recordRetired u).substituted u false

/-- A permanent unit is retired and its spare takes its place (R519, R533, Table 15-8). Rows, bank-slices and pages are
moved by ROW_RETIRE, SLICE_REPLACE and PAGE_RETIRE. -/
def State.retireUnit (s : State) (u : UnitName) : State :=
  let h := unitHub u
  match u.kind with
  | 1 => if u.index ∈ s.rel.hubs[h].coresRetired then s
         else
           let had := s.rel.hubs[h].coresRetired.isEmpty
           ((s.recordRetired u).substituted u had).retireCore h u.index
  | 2 => s.retireEngine h u.index
  | 3 => s.retireLane h (Fin.ofNat 18 u.index)
  | 4 => s.retireChannel h u.index
  | 5 => s
  | 6 => s
  | 7 => s
  | 8 =>
    let r := s.rel.repair
    ((s.setRepair { r with erasure := r.erasure ++ [(u.index, bitsOf u.sub 7 0, bitsOf u.sub 11 8)] }).retiredAlone u).freezeUnit
      (.umbra (Fin.ofNat 8 u.index))
  | 9 => (s.retiredAlone u).unitOut (.umbra (Fin.ofNat 8 u.index))
  | 10 => (s.recordRetired u).substituted u (decide (0 < s.sparesLeft u))
  | 12 =>
    let p := s.rg.ports[h]
    let s := (s.setPort h { p with modules := p.modules &&& ~~~(1#16 <<< u.index) }).retiredAlone u
    s.event h (evU 0x0055 1 12 u.index (u.index % 16 + 16))
  | 16 => (s.retiredAlone u).freezeUnit (.shade h (Fin.ofNat 16 u.index))
  | _ => s.retiredAlone u

/-- The decision of a test (R531, R532): transient unless the test failed or the history says otherwise. It is recorded
with its CPER record and journaled, and the unit returns or is retired (R533, R545). -/
def State.judge (s : State) (t : UnderTest) (passed : Bool) : State :=
  let u := t.unit
  let h := unitHub u
  let (held, n) := s.history u t.cls t.since
  let permanent := !passed || held
  let dec := if !permanent then 1 else if 0 < s.sparesLeft u then 3 else 4
  let test := if passed then 1 else 2
  let blind := !s.evt.store.ready || !s.evt.store.holdsFinding u
  let s := s.event h (evU 0x0045 3 u.kind u.index (dec + test * 256))
  let s := s.cper 3 7 u 0x0045 0 dec test n (s.sparesLeft u) blind.toNat t.pack t.packVersion
  let s := s.journal 4 (unitCode u * 16 + t.cls) u.hub [] (leBytes 8 (unitCode u) ++ leBytes 1 t.cls ++ leBytes 8 t.since)
  if permanent then s.retireUnit u else (s.returnUnit u).sliceDue u

/-- Whether a unit is one the package has; a command that names another stops. -/
def State.onUnit (s : State) (u : UnitName) (act : State → State) : Out :=
  if knownUnit u then .next (act s) else .fault .noSuchUnit

/-- TARGETED_TEST: a unit with a finding of a class of R531 is quiesced, isolated and tested (R530, R544). -/
def execTargetedTest (unit : UnitName) (cls : Fin 12) (s : State) : Out :=
  s.onUnit unit (fun s => if 1 ≤ cls.val ∧ cls.val ≤ 6 then s.sendTest unit cls.val else s)

/-- A unit leaves its test. -/
def State.testOver (s : State) (u : UnitName) : State :=
  let x := s.rel.hubs[unitHub u]
  s.setHealth (unitHub u) { x with testing := x.testing.filter (fun t : UnderTest => t.unit != u) }

/-- TEST_DECISION: a targeted test ends (R531 to R536). -/
def execTestDecision (unit : UnitName) (passed : Bool) (s : State) : Out :=
  s.onUnit unit (fun s =>
    match s.rel.hubs[unitHub unit].testing.find? (fun t : UnderTest => t.unit == unit && !t.field) with
    | some t =>
      let s := (s.testOver unit).judge t passed
      if passed then
        let x := s.rel.hubs[unitHub unit]
        s.setHealth (unitHub unit) { x with hours := x.hours.filter (fun y => y.1 ≠ unit) ++ [(unit, s.tick)] }
      else s
    | none => s)

/-! ### The scrubber (R527 to R529, Table 15-6) -/

/-- A block of a handle is poisoned in place (R71, R521, R525, R526). -/
def State.poisonHome (s : State) (k : HKey) (block : Nat) : State :=
  match s.handle? k with
  | some h =>
    if h.fate == Fate.keep || block ∈ h.marks.poison || blockCount h.shape.size ≤ block then s
    else (s.setHandle { h with marks := { h.marks with poison := h.marks.poison ++ [block] } }).poisonCreated h.key.entry h.word
  | none => s

/-- A block of an image is poisoned: the record says INCOMPLETE, and the holder's runtime is told (R503). -/
def State.poisonImage (s : State) (slot block : Nat) : State :=
  match s.vault.images.find? (fun i : Image => i.slot == slot) with
  | some i =>
    let s := if block ∈ i.poison then s
      else (s.setImage { i with incomplete := true, poison := i.poison ++ [block] }).poisonCreated 0 0
    s.notice 0x0140 (i.ckptNo.toNat + slot * 2 ^ 32)
  | none => s

/-- A pending value of an open step is poisoned: the update counts as failed (R444, R449). -/
def State.poisonPending (s : State) (slot : Nat) (k : HKey) : State :=
  let hit (p : PendUpdate) : Bool := p.values.any (fun v : Pend => v.key == k)
  match s.group? slot with
  | some g =>
    if g.pend.any hit then
      let pend := g.pend.map (fun p : PendUpdate => if hit p then ({ p with failed := true } : PendUpdate) else p)
      (s.setGroup { g with pend := pend }).poisonCreated k.entry
        (match s.handle? k with
          | some h => h.word
          | none => 0)
    else s
  | none => s

/-- An uncorrectable finding, by what the unit holds (Table 15-6); the unit goes to a targeted test (R530). -/
def State.scrubLost (s : State) (h : Hub) (unit : UnitName) (holds : ScrubHolds) : State :=
  let s := match holds with
    | .home k b => s.poisonHome k b
    | .oldLocation _ _ => s.poisonCreated h 0
    | .image slot b => s.poisonImage slot.val b
    | .pending g k _ => s.poisonPending g.val k
    | .free => s
    | .reserve => s
    | .tags lost => lost.foldl (fun (s : State) (x : HKey × Nat) => s.poisonHome x.1 x.2) s
  s.sendTest unit 2

/-- A correction is counted against its row, frame or device (Table 15-6). -/
def State.countCorrected (s : State) (u : UnitName) : State :=
  let r := s.rel.repair
  s.setRepair { r with corrected := r.corrected ++ [(u, s.tick)] }

/-- A correctable finding: at the threshold of Table 15-7 an event and a CPER record are written and the unit goes to a
targeted test (R529, R530, R545). -/
def State.scrubCorrected (s : State) (u : UnitName) : State :=
  let s := s.countCorrected u
  match historyLimit u.kind 1 with
  | some (n, w) =>
    let c := s.findingsIn u 1 s.tick w
    if (u.kind = 5 ∨ u.kind = 7) ∧ n ≤ c ∧ !(s.rel.hubs[unitHub u].testing.any (fun t : UnderTest => t.unit == u))
        ∧ u ∉ s.rel.repair.retired then
      let s := s.event (unitHub u) (evU 0x0040 1 u.kind u.index (u.sub % 2 ^ 32))
      (s.cper 2 1 u 0x0040 0 0 0 c (s.sparesLeft u) 0).sendTest u 1
    else s
  | none => s

/-- A device location is charged to a lane of a pseudo-channel (R518, R545). -/
def State.scrubDevice (s : State) (u : UnitName) (pc : Fin 64) (lane : Fin 9) : State :=
  let k := u.index
  let dev : UnitName := { hub := u.hub, kind := 8, index := k, sub := pc.val + lane.val * 256 }
  let r := s.rel.repair
  let s := s.setRepair { r with locations := tabPut 0 r.locations k (tabGet 0 r.locations k + 1) }
  let s := s.event (unitHub u) (evU 0x0044 1 8 k dev.sub)
  let s := s.cper 2 6 dev 0x0044 0 0 0 1 (s.sparesLeft dev) 0
  s.sendTest dev 6

/-- The domain of the hub that a scrub of a unit reads: SHADE, or the stack's (R587). -/
def scrubDomain (u : UnitName) : Fin 10 := if u.kind = 5 ∨ u.kind = 6 ∨ u.kind = 16 then 1 else Fin.ofNat 10 (8 + u.index % 2)

/-- SCRUB_PASS: one scrub read of a 4 KiB unit of the hub, and what is done about its finding (R527 to R529). A domain in
RETAIN is woken first, and is read when it is ON (R587). -/
def execScrubPass (hub : Hub) (unit : UnitName) (holds : ScrubHolds) (f : ScrubFinding) (s : State) : Out :=
  s.onUnit unit (fun s =>
    let x := s.rel.hubs[hub]
    let d := scrubDomain unit
    if unit.hub ≠ hub.val || !isStorage unit.kind || x.lost || !x.scrub.getLsbD 31 || s.start.quench.state == 2 then s
    else match (s.pwr.hubs[hub].dom d.val).state with
      | .off => s
      | .retain => (match execWakeRequest hub d s with
        | .next s => s
        | .fault _ => s
        | .refused _ => s)
      | .ramping => s
      | .on =>
        let s := s.touch hub d.val
        match f with
        | .clean => s
        | .correctable => s.scrubCorrected unit
        | .deviceLocation pc lane =>
          if unit.kind = 7 ∨ unit.kind = 9 then (s.scrubCorrected unit).scrubDevice unit pc lane else s
        | .uncorrectable => s.scrubLost hub unit holds
        | .tagFail => (match holds with
          | .home k b => s.poisonHome k b
          | _ => s.scrubLost hub unit holds))

end Sys2Proof.Machine
end

