-- ==== Sys2Proof/Machine/Bist.lean ====
section
/-!
DEFINITION. The shut-down and on-demand self-test, in-field tests, their records and views (R549 to R569).
-/
namespace Sys2Proof.Machine

/-! ### Slices (Table 16-1) -/

/-- A row's duration in ms at the nominal corner. -/
def sliceMs (row : Nat) : Nat := [20, 8, 6, 8, 32, 14, 10, 5, 5, 40].getD row 0

/-- The slices of a row on a hub; a bridge is run by the lower-numbered of its hubs, and STACK counts both stacks. -/
def rowSlices (h : Hub) (row : Nat) : Nat := [7, 7, 5, 5, 16, 1, 8, [3, 2, 1, 0].getD h.val 0, 1, 128].getD row 0

/-- A hub's hub-logic slices in cursor order; C5's CORE slice is not among them (R558). -/
def logicSlices (h : Hub) : List Slice :=
  ((List.range 9).flatMap (fun row => (List.range (rowSlices h row)).map (fun u => ({ hub := h.val, row := row, unit := u } : Slice)))).filter
    (fun x => !(x.row == 0 && x.unit == 5))

/-- C5's CORE slice. -/
def c5Slice (h : Hub) : Slice := { hub := h.val, row := 0, unit := 5 }

/-- A stack's regions in order (R558). -/
def stackSlices (k : Stack) : List Slice :=
  (List.range 64).map (fun r => { hub := k.val / 2, row := 9, unit := k.val % 2 * 64 + r })

/-- The units a slice tests. -/
def Slice.units (x : Slice) : List UnitName :=
  let u (kind index sub : Nat) : UnitName := { hub := x.hub, kind := kind, index := index, sub := sub }
  match x.row with
  | 0 => [u 1 x.unit 0]
  | 1 => if x.unit = 6 then [u 2 12 0] else [u 2 (2 * x.unit) 0, u 2 (2 * x.unit + 1) 0]
  | 2 => ((List.range 4).map (fun i => u 3 (4 * x.unit + i) 0)).filter (fun y => y.index < 18)
  | 3 => ((List.range 16).map (fun i => u 4 (16 * x.unit + i) 0)).filter (fun y => y.index < 68)
  | 4 => [u 16 x.unit 0]
  | 5 => [u 6 16 0]
  | 6 => [u 15 (8 * x.hub + x.unit) 0]
  | 7 => [u 11 ([0, 3, 5, 6].getD x.hub 0 + x.unit) 0]
  | 8 => [u 14 0 0]
  | _ => [u 13 (2 * x.hub + x.unit / 64) (x.unit % 64)]

/-- The units of a slice that are tested: not retired, on no lost hub and not in an in-field test (R557, R569). -/
def State.sliceUnits (s : State) (x : Slice) : List UnitName :=
  let hh := s.rel.hubs[hubOf x.hub]
  if hh.lost then []
  else x.units.filter (fun u => u ∉ s.rel.repair.retired
    && !(hh.testing.any (fun t : UnderTest => t.unit == u && t.field)))

/-- A slice this run can still run. -/
def State.sliceOpen (s : State) (x : Slice) : Bool := x ∉ s.rel.bist.ranThisRun && !(s.sliceUnits x).isEmpty

/-- A hub's pace in 1/256 of nominal: the lowest SILICON of its last window; nominal before the first (R551). -/
def State.hubPace (s : State) (h : Hub) : Nat :=
  let l := s.pwr.hubs[h].silicon.map BitVec.toNat
  if l.any (fun x => x == 0) then 256 else l.foldl min 65535

/-- A slice's duration in ticks at the present pace; STACK slices do not follow it (Table 16-1). -/
def State.sliceTicks (s : State) (x : Slice) : Nat :=
  let pace := if x.row = 9 then 256 else s.hubPace (hubOf x.hub)
  (sliceMs x.row * msTicks * 256 + pace - 1) / pace

/-- A slice ends before the budget less the close-out's 20 ms, counted from the first slice's start (R551). -/
def State.sliceFits (s : State) (x : Slice) : Bool :=
  let b := s.rel.bist
  let gone := if b.ranThisRun.isEmpty && b.running.isEmpty then 0 else s.tick - b.since
  decide (gone + s.sliceTicks x + 20 * msTicks < b.runBudgetMs * msTicks)

/-- A list from a place on, wrapping. -/
def rotated (l : List Slice) (i : Nat) : List Slice := l.drop i ++ l.take i

/-- The hub-logic slice a hub starts next, and whether it runs as a due slice: due slices first, then C5's where the run
before left it out, then from the cursor on, and C5's last; the budget stops each (R551, R558). -/
def State.nextLogic (s : State) (h : Hub) : Option (Slice × Bool) :=
  let b := s.rel.bist
  let fit (x : Slice) (asDue : Bool) : Option (Slice × Bool) := if s.sliceFits x then some (x, asDue) else none
  let last := if s.sliceOpen (c5Slice h) then fit (c5Slice h) false else none
  match b.due.find? (fun x : Slice => x.hub == h.val && x.row != 9 && s.sliceOpen x) with
  | some x => (fit x true).orElse (fun _ => last)
  | none =>
    if h.val ∈ b.c5Missed && s.sliceOpen (c5Slice h) then last
    else match (rotated (logicSlices h) (b.hubCursor.getD h.val 0)).find? s.sliceOpen with
      | some x => (fit x false).orElse (fun _ => last)
      | none => last

/-- Whether STACK slices are skipped (R559). -/
def State.skipStacks (s : State) : Bool :=
  let b := s.rel.bist
  b.kind == 1 || !b.umbraEn || (b.kind == 2 && (s.lnk.peers.any (fun p : Peer => 0 < p.grantGiven) || !s.vault.images.isEmpty))

/-- Whether a STACK slice is of a stack. -/
def Slice.ofStack (x : Slice) (k : Stack) : Bool := x.row == 9 && x.hub == k.val / 2 && x.unit / 64 == k.val % 2

/-- The region a stack tests next (R558). -/
def State.nextStack (s : State) (k : Stack) : Option (Slice × Bool) :=
  let b := s.rel.bist
  if s.skipStacks then none
  else
    let fit (x : Slice) (asDue : Bool) : Option (Slice × Bool) := if s.sliceFits x then some (x, asDue) else none
    match b.due.find? (fun x : Slice => x.ofStack k && s.sliceOpen x) with
    | some x => fit x true
    | none => match (rotated (stackSlices k) (b.stackCursor.getD k.val 0)).find? s.sliceOpen with
      | some x => fit x false
      | none => none

/-- The stack of a STACK slice. -/
def Slice.stack (x : Slice) : Stack := Fin.ofNat 8 (2 * x.hub + x.unit / 64)

/-- Whether a slice's place is free: one hub-logic slice a hub, and one STACK slice a stack (R558). -/
def State.placeFree (s : State) (x : Slice) : Bool :=
  s.rel.bist.running.all (fun r : RunningSlice =>
    if x.row = 9 then !(r.slice.ofStack x.stack) else !(r.slice.hub == x.hub && r.slice.row != 9))

/-- What the schedule would start in a slice's place. -/
def State.nextFor (s : State) (x : Slice) : Option (Slice × Bool) :=
  if x.row = 9 then s.nextStack x.stack else s.nextLogic (hubOf x.hub)

/-! ### Runs -/

/-- A change of the self-test. -/
def State.setBist (s : State) (b : Bist) : State := { s with rel := { s.rel with bist := b } }

/-- A unit record's 32 bytes (Table 16-2). -/
def UnitRecord.bytes (r : UnitRecord) : List Byte :=
  leBytes 4 r.run.toNat ++ leBytes 1 r.unit.hub ++ leBytes 1 r.unit.kind ++ leBytes 2 r.unit.index ++ leBytes 4 r.unit.sub
    ++ leBytes 1 r.result ++ leBytes 1 r.decision ++ leBytes 2 r.pack ++ leBytes 4 r.packVersion.toNat
    ++ leBytes 2 r.coverage ++ leBytes 2 (min 65535 r.fails) ++ leBytes 4 r.durationUs ++ leBytes 2 r.pace ++ leBytes 2 0

/-- A run summary's 64 bytes (Table 16-3). -/
def RunSummary.bytes (r : RunSummary) : List Byte :=
  leBytes 4 r.run.toNat ++ leBytes 1 r.kind ++ leBytes 1 r.endCause ++ leBytes 2 0 ++ leBytes 4 r.budgetMs
    ++ leBytes 4 r.usedMs ++ leBytes 2 r.slices ++ leBytes 2 r.passes ++ leBytes 2 r.fails ++ leBytes 2 r.timeouts
    ++ leBytes 2 r.left ++ leBytes 2 r.dueRun ++ leBytes 4 0 ++ r.hubCursors.flatMap (leBytes 1)
    ++ r.stackCursors.flatMap (leBytes 1) ++ r.coverage.flatMap (leBytes 2) ++ leBytes 12 0

/-- The slices of the schedule a run has still to run. -/
def State.slicesLeft (s : State) : Nat :=
  let logic := (List.finRange 4).flatMap (fun h => c5Slice h :: logicSlices h)
  let regions := if s.skipStacks then [] else (List.finRange 8).flatMap stackSlices
  ((logic ++ regions).filter s.sliceOpen).length

/-- A hub's hub-logic coverage: all, none, or a value the spec gives no rule for (Table 16-3, assumption 2). -/
def State.logicCoverage (s : State) (h : Hub) : Nat × State :=
  let l := (c5Slice h :: logicSlices h).filter (fun x => !(s.sliceUnits x).isEmpty)
  let ran := l.filter (fun x => x ∈ s.rel.bist.ranThisRun)
  if ran.length = l.length then (65535, s)
  else if ran.isEmpty then (0, s)
  else let (v, s) := s.fresh 16; (v.toNat, s)

/-- The close-out: the run summary is appended and journaled, the event is recorded, and the C5 slices left over are noted
for the next run (R558, R560, R561). -/
def State.closeRun (s : State) : State :=
  let b := s.rel.bist
  let left := s.slicesLeft
  let (c0, s) := s.logicCoverage 0
  let (c1, s) := s.logicCoverage 1
  let (c2, s) := s.logicCoverage 2
  let (c3, s) := s.logicCoverage 3
  let cause := if b.stopCause ≠ 0 then b.stopCause else if left = 0 then 0 else 1
  let used := if b.ranThisRun.isEmpty && b.running.isEmpty then 0 else (s.tick - b.since) / msTicks
  let sum : RunSummary :=
    { run := b.run, kind := b.kind, endCause := cause, budgetMs := b.runBudgetMs, usedMs := used
      slices := b.slices, passes := b.passes, fails := b.runFails, timeouts := b.runTimeouts, left := left, dueRun := b.dueRan
      hubCursors := b.hubCursor, stackCursors := b.stackCursor, coverage := [c0, c1, c2, c3] }
  let missed := (List.finRange 4).filter (fun h => s.sliceOpen (c5Slice h))
  let sums := b.summaries ++ [sum]
  let s := s.setBist { b with state := 3, closed := true, running := [], summaries := sums.drop (sums.length - 16)
                              c5Missed := missed.map Fin.val, stopCause := 0 }
  let s := s.journal 5 (b.run.toNat * 65536 + 65535) 0 [] sum.bytes
  s.event 0 (ev 0x0090 0 (b.run.toNat + cause * 2 ^ 32))

/-- The run is over once no slice runs and none can start. -/
def State.closeIfDone (s : State) : State :=
  let b := s.rel.bist
  let more := b.stopCause = 0 && ((List.finRange 4).any (fun h => (s.nextLogic h).isSome)
    || (List.finRange 8).any (fun k => (s.nextStack k).isSome))
  if (b.state == 1 || b.state == 2) && b.running.isEmpty && !more then s.closeRun else s

/-- A run begins: its number rises by 1, and records older than the last 16 runs are gone (R561). -/
def State.beginRun (s : State) (state kind budget : Nat) : State :=
  let b := s.rel.bist
  let run := b.run + 1
  let keep (n : BitVec 32) : Bool := decide ((run - n).toNat < 16)
  s.setBist { b with state := BitVec.ofNat 2 state, kind := kind, runBudgetMs := budget, run := run, slices := 0, failed := 0
                     ranThisRun := [], running := [], dueRan := 0, since := s.tick, passes := 0, runFails := 0
                     runTimeouts := 0, stopCause := 0, closed := false, decided := []
                     records := b.records.filter (fun r : UnitRecord => keep r.run)
                     fails := b.fails.filter (fun e => keep (e.extractLsb' 96 32)) }

/-- SHUTDOWN_TEST: the shut-down test begins once an on-demand run under way has ended, under the budget that held when the
shut-down began; once no slice runs and none can start it is closed out (R549 to R551, R558, R618). -/
def execShutdownTest (hub : Hub) (s : State) : Out :=
  let b := s.rel.bist
  if s.rel.hubs[hub].lost then .next s
  else match s.start.shut with
    | .testing warm true =>
      if b.state == 2 || s.start.quench.state == 2 then .next s.closeIfDone
      else .next ((({ s with start := { s.start with shut := .testing warm false } }).beginRun 1 warm.toNat b.shutBudgetMs).closeIfDone)
    | _ => .next s.closeIfDone

/-- SLICE_START: the slice the schedule has next in its place starts, its units isolated; a LINK slice takes its link OFF
(R551, R555, R558). -/
def execSliceStart (hub : Hub) (row : Fin 10) (unit : Fin 128) (s : State) : Out :=
  let x : Slice := { hub := hub.val, row := row.val, unit := unit.val }
  let b := s.rel.bist
  if !(b.state == 1 || b.state == 2) || b.stopCause ≠ 0 || !s.placeFree x then .next s
  else match s.nextFor x with
    | some (y, asDue) =>
      if y ≠ x then .next s
      else
        let since := if b.ranThisRun.isEmpty && b.running.isEmpty then s.tick else b.since
        let pace := s.hubPace hub
        let r : RunningSlice := { slice := x, since := s.tick, pace := pace, asDue := asDue }
        let s := s.setBist { b with since := since, running := b.running ++ [r] }
        let s := s.journal 5 (b.run.toNat * 65536 + hub.val * 4096 + row.val * 256 + unit.val) hub.val []
          (leBytes 4 b.run.toNat ++ leBytes 1 hub.val ++ leBytes 1 row.val ++ leBytes 1 unit.val)
        if row.val = 6 then
          let l : LinkNo := Fin.ofNat 32 (8 * hub.val + unit.val)
          .next ((s.leaveSession l).linkState l .off)
        else .next s
    | none => .next s

/-- A tested unit takes its reset state, its storage is written with zeros, and its epoch rises by 1 (R512, R556). -/
def State.reinit (s : State) (u : UnitName) : State :=
  let h := unitHub u
  let none_ : UnitMem := { bytes := [], poison := [] }
  match u.kind with
  | 2 => ({ s with eng := { s.eng with engines := s.eng.engines.filter (fun e => e.1 ≠ u.hub * 13 + u.index) } }).bumpEpoch u
  | 3 =>
    let l : Fin 18 := Fin.ofNat 18 u.index
    let lanes := Vector.set s.codec.lanes h.val (Vector.set s.codec.lanes[h] l.val
      { retired := s.codec.lanes[h][l].retired, job := none })
    ({ s with codec := { s.codec with lanes := lanes } }).bumpEpoch u
  | 4 =>
    let m := s.mov.hubs[h]
    (s.setMovers h { m with chans := m.chans.filter (fun c => c.1 ≠ u.index) }).bumpEpoch u
  | 13 =>
    let i := 64 + u.index
    let lo := u.sub * 2 ^ 30
    let out (a : Nat) : Bool := decide (a < lo ∨ lo + 2 ^ 30 ≤ a)
    let m := s.unitMem i
    let m : UnitMem := { bytes := m.bytes.filter (fun e => out e.1), poison := m.poison.filter (fun p => out (p * 4096)) }
    ({ s with mov := { s.mov with mem := tabPut none_ s.mov.mem i m } }).bumpEpoch
      { hub := u.hub, kind := 9, index := u.index, sub := 0 }
  | 14 => (s.setSync h Sync.reset).bumpEpoch u
  | 15 => (s.setLink (Fin.ofNat 32 u.index) { Link.reset with session := s.lnk.links[Fin.ofNat 32 u.index].session }).bumpEpoch u
  | 16 => ({ s with mov := { s.mov with mem := tabPut none_ s.mov.mem (16 * u.hub + u.index) none_ } }).bumpEpoch u
  | _ => s.bumpEpoch u

/-- A slice's result as Table 16-2 numbers it. -/
def resultCode : SliceResult → Nat
  | .pass => 0 | .fail => 1 | .timeout => 2 | .aborted => 3

/-- The retirements a failing slice records: the rows and frames its failing addresses name, or, with none named, the units
themselves (R562). -/
def failedUnits (x : Slice) (units : List UnitName) (fails : List (BitVec 128)) : List UnitName :=
  let named := fails.map (fun e =>
    let loc := bitsOf e.toNat 36 0
    if x.row = 9 then ({ hub := x.hub, kind := 7, index := 2 * x.hub + loc / 2 ^ 36, sub := bitsOf loc 35 21 } : UnitName)
    else { hub := x.hub, kind := 5, index := bitsOf loc 31 28, sub := bitsOf loc 27 16 })
  if (x.row = 4 ∨ x.row = 9) ∧ !fails.isEmpty then named.dedup else units

/-- A unit record is appended and journaled (R561). The coverage of a slice that did not pass is a free value. -/
def State.appendRecord (s : State) (r : RunningSlice) (res : SliceResult) (fails : Nat) (i : Nat) (u : UnitName) : State :=
  let (id, v) := s.packFor u.kind
  let (cov, s) := if res = .pass then (65535, s) else
    let (c, s) := s.fresh 16
    (c.toNat, s)
  let b := s.rel.bist
  let x : UnitRecord := { run := b.run, unit := u, result := resultCode res, decision := if res = .fail then 2 else 0
                          pack := id, packVersion := v, coverage := cov, fails := fails
                          durationUs := (s.tick - r.since) * 1000 / msTicks, pace := r.pace }
  let s := s.setBist { b with records := b.records ++ [x] }
  s.journal 5 (b.run.toNat * 65536 + 32768 + (b.records.length + i) % 32768) u.hub [] x.bytes

/-- Where the cursor stands after a slice that has ended: one past it where it ran in cursor order (R558). -/
def cursorAfter (l : List Slice) (x : Slice) (cur : Nat) : Nat :=
  match l.findIdx? (fun y => y == x) with
  | some i => (i + 1) % l.length
  | none => cur

/-- A slice ends: its units are re-initialized, their records appended and the cursor moves on; a failing unit's retirement
is recorded, and a unit that timed out is noted for its test at the next start (R554, R556, R558, R560 to R562). -/
def State.endSlice (s : State) (r : RunningSlice) (res : SliceResult) (fails : List (BitVec 128)) : State :=
  let x := r.slice
  let units := s.sliceUnits x
  let b := s.rel.bist
  let bad := decide (res = .fail ∨ res = .timeout)
  let moves := res != .aborted && !r.asDue
  let h := hubOf x.hub
  let stamped := fails.map (fun e => (b.run ++ (1#4) ++ (0#2) ++ (e.extractLsb' 80 10) ++ (if x.row = 9 then 2#4 else 1#4)
    ++ (BitVec.ofNat 2 x.hub) ++ (0#37) ++ (e.extractLsb' 0 37) : BitVec 128))
  let b := { b with running := b.running.filter (fun y : RunningSlice => y.slice ≠ x)
                    ranThisRun := if res = .aborted then b.ranThisRun else b.ranThisRun ++ [x]
                    due := if res = .aborted then b.due else b.due.filter (fun y => y ≠ x)
                    dueRan := b.dueRan + (r.asDue && res != .aborted).toNat
                    slices := min 8191 (b.slices + 1), failed := min 255 (b.failed + bad.toNat)
                    passes := b.passes + (decide (res = .pass)).toNat, runFails := b.runFails + (decide (res = .fail)).toNat
                    runTimeouts := b.runTimeouts + (decide (res = .timeout)).toNat
                    fails := b.fails ++ stamped
                    timedOut := (if res = .timeout then (b.timedOut ++ units).dedup else b.timedOut.filter (fun u => u ∉ units))
                    hubCursor := if moves && x.row != 9 then
                        b.hubCursor.set h.val (cursorAfter (logicSlices h) x (b.hubCursor.getD h.val 0)) else b.hubCursor
                    stackCursor := if moves && x.row == 9 then
                        b.stackCursor.set x.stack.val (cursorAfter (stackSlices x.stack) x (b.stackCursor.getD x.stack.val 0))
                      else b.stackCursor }
  let s := s.setBist b
  let s := units.zipIdx.foldl (fun (s : State) (u : UnitName × Nat) => s.appendRecord r res fails.length u.2 u.1) s
  let s := if res = .aborted then s else units.foldl State.reinit s
  if res = .fail then
    let gone := failedUnits x units fails
    let rep := s.rel.repair
    let s := s.setRepair { rep with retired := rep.retired ++ gone.filter (fun u => u ∉ rep.retired) }
    let s := gone.foldl (fun (s : State) (u : UnitName) => s.journal 2 (unitCode u) u.hub []
      (leBytes 1 u.hub ++ leBytes 1 u.kind ++ leBytes 2 u.index ++ leBytes 4 u.sub)) s
    s.setBist { s.rel.bist with decided := s.rel.bist.decided ++ gone }
  else s

/-- SLICE_END (R556, R561, R562). -/
def execSliceEnd (hub : Hub) (row : Fin 10) (unit : Fin 128) (r : SliceResult) (fails : List (BitVec 128)) (s : State) : Out :=
  let x : Slice := { hub := hub.val, row := row.val, unit := unit.val }
  match s.rel.bist.running.find? (fun y : RunningSlice => y.slice == x) with
  | some y => .next ((s.endSlice y r fails).closeIfDone)
  | none => .next s

/-- SLICE_TIMEOUT: a slice still running at 50 ms is stopped (R554). -/
def execSliceTimeout (hub : Hub) (row : Fin 10) (unit : Fin 128) (s : State) : Out :=
  let x : Slice := { hub := hub.val, row := row.val, unit := unit.val }
  match s.rel.bist.running.find? (fun y : RunningSlice => y.slice == x) with
  | some y => .next (if y.since + 50 * msTicks ≤ s.tick then (s.endSlice y .timeout []).closeIfDone else s)
  | none => .next s

/-- BIST_CTRL.START: an on-demand run begins, unless a context exists, ring 0 has a command in flight, a channel is held in
direct mode, or a run or a shut-down is under way (R552). -/
def State.bistStart (s : State) : State :=
  let b := s.rel.bist
  let ringBusy := match s.ring? 0 with
    | some r => !r.inflight.isEmpty
    | none => false
  if !s.ctxs.isEmpty || ringBusy || s.mov.hubs.toList.any (fun m : Movers => m.directGranted != 0) || b.state == 1 || b.state == 2
      || s.start.shut != .none then s.setBist { b with refused := true }
  else (s.beginRun 2 2 b.budgetMs).closeIfDone

def execBistStart (s : State) : Out := .next s.bistStart

/-! ### In-field tests (R564 to R569) -/

/-- The bit of BIST_FIELD_CTRL.KINDS for a unit kind; none where the kind has no in-field test. -/
def fieldBit (kind : Nat) : Option Nat :=
  match kind with
  | 2 => some 0 | 3 => some 1 | 4 => some 2 | 1 => some 3 | _ => none

/-- A unit that can fall due: in service, with an in-field test, not due and not under test. -/
def State.fieldReady (s : State) (u : UnitName) : Bool :=
  let x := s.rel.hubs[unitHub u]
  (fieldBit u.kind).isSome && u ∉ s.rel.repair.retired && !x.lost && !x.due.any (fun d : Due => d.unit == u)
    && !x.testing.any (fun t : UnderTest => t.unit == u) && s.start.level == .ring && s.start.shut == .none

/-- The tile an engine runs is duplicated from now on (R263, R565). -/
def State.duplicateNow (s : State) (h : Hub) (e : Nat) : State :=
  let g := s.engine h e
  match g.tile with
  | some t => s.setEngine h e { g with tile := some { t with sampled := t.sampled || t.role == TileRole.first } }
  | none => s

/-- A unit falls due (R564, R565). -/
def State.fallDue (s : State) (u : UnitName) : State :=
  let h := unitHub u
  let x := s.rel.hubs[h]
  let s := s.setHealth h { x with due := x.due ++ [{ unit := u, since := s.tick }] }
  if u.kind = 2 then s.duplicateNow h u.index else s

/-- FIELD_TEST_DUE: a unit of an enabled kind falls due once INTERVAL_H hours in service have passed since its last passing
test (R564, Table 16-6). -/
def execFieldTestDue (unit : UnitName) (s : State) : Out :=
  s.onUnit unit (fun s =>
    let x := s.rel.hubs[unitHub unit]
    let hours := bitsOf x.field.toNat 31 24
    let from_ := ((x.hours.find? (fun y => y.1 == unit)).map Prod.snd).getD 0
    let on := match fieldBit unit.kind with
      | some b => x.field.getLsbD b
      | none => false
    if s.fieldReady unit && on && hours ≠ 0 && from_ + hours * 3600000 * msTicks ≤ s.tick then s.fallDue unit else s)

/-- Whether a unit comes before another in the order due units are tested: ascending UNIT_KIND, then index (R564). -/
def dueBefore (a b : UnitName) : Bool := decide (a.kind < b.kind ∨ (a.kind = b.kind ∧ a.index < b.index))

/-- A due unit's turn: its hub runs no in-field test and no due unit comes before it (R564). -/
def State.dueTurn (s : State) (u : UnitName) : Option Due :=
  let x := s.rel.hubs[unitHub u]
  if x.testing.any UnderTest.field || x.due.any (fun d : Due => dueBefore d.unit u) then none
  else x.due.find? (fun d : Due => d.unit == u)

/-- A unit at its boundary: an engine with no tile, a lane with no job, a channel with no transfer; a control core's task end
is not visible (R565, R566). -/
def State.atBoundary (s : State) (u : UnitName) : Bool :=
  let h := unitHub u
  match u.kind with
  | 2 => (s.engine h u.index).tile.isNone
  | 3 => s.codec.lanes[h][(Fin.ofNat 18 u.index : Fin 18)].job.isNone
  | 4 => match (s.mov.hubs[h].chans.find? (fun c => c.1 == u.index)).map Prod.snd with
    | some c => c.state == ChanState.idle
    | none => true
  | _ => true

/-- A due unit's work moves to its spare, and its test runs under the newest pack of its kind (R544, R565 to R567). -/
def State.startField (s : State) (u : UnitName) : State :=
  let h := unitHub u
  let s := if u.kind = 1 then s else s.quiesce u
  let (id, v) := s.packFor u.kind
  let x := s.rel.hubs[h]
  let t : UnderTest := { unit := u, field := true, since := s.tick, pack := id, packVersion := v, cls := 0 }
  s.setHealth h { x with testing := x.testing ++ [t], due := x.due.filter (fun d : Due => d.unit != u) }

/-- FIELD_TEST_START: a due unit at its boundary is tested (R564 to R567). -/
def execFieldTestStart (unit : UnitName) (s : State) : Out :=
  s.onUnit unit (fun s => if (s.dueTurn unit).isSome && s.atBoundary unit then s.startField unit else s)

/-- DEFER_TIMEOUT: DEFER_MS has passed before the boundary of an engine, a channel or a control core: its work moves to the
spare, a core's locks are ABANDONED, and an event is recorded (R488, R565, R566). -/
def execDeferTimeout (unit : UnitName) (s : State) : Out :=
  s.onUnit unit (fun s =>
    match s.dueTurn unit with
    | some d =>
      let h := unitHub unit
      if unit.kind ≠ 3 ∧ d.since + bitsOf s.rel.hubs[h].field.toNat 23 16 * msTicks ≤ s.tick then
        let s := if unit.kind = 1 then s.quiesce unit else s
        (s.startField unit).event h (evU 0x0046 3 unit.kind unit.index (s.sparesLeft unit))
      else s
    | none => s)

/-- FIELD_TEST_END: a unit that passed returns, re-initialized, and its spare is idle again; one that failed is permanent
(R556, R568). -/
def execFieldTestEnd (unit : UnitName) (passed : Bool) (s : State) : Out :=
  s.onUnit unit (fun s =>
    let h := unitHub unit
    match s.rel.hubs[h].testing.find? (fun t : UnderTest => t.unit == unit && t.field) with
    | some t =>
      let s := (s.testOver unit).event h (evU 0x0091 0 unit.kind unit.index (if passed then 0 else 1))
      if passed then
        let s := if unit.kind = 4 then s.bumpEpoch unit else s.reinit unit
        let s := s.returnUnit unit
        let x := s.rel.hubs[h]
        s.setHealth h { x with hours := x.hours.filter (fun y => y.1 ≠ unit) ++ [(unit, s.tick)] }
      else s.judge t false
    | none => s)

/-! ### Commands (Table 16-5) -/

/-- What R313 checks of BIST_GRANT. -/
def bistGrantSpec (d : Desc) : DescSpec :=
  let ms := d.f 79 64
  { job := false, admin := true, used := [(79, 64)], range := decide (ms ≤ 60000) }

/-- BIST_GRANT (R550). -/
def execBistGrant (d : Desc) (s : State) : Out :=
  let ms := d.f 79 64
  .next (s.withDesc d (bistGrantSpec d) (fun t s =>
    let old := s.rel.bist.budgetMs
    (s.setBist { s.rel.bist with budgetMs := ms }).complete t { status := 0, result := BitVec.ofNat 64 old }))

/-- What R313 checks of BIST_RESULTS. -/
def bistResultsSpec (d : Desc) : DescSpec :=
  let count := d.f 127 112
  { job := false, admin := true, needX := true, used := [(67, 64), (111, 80), (127, 112)]
    range := 1 ≤ count && count ≤ 4096 }

/-- BIST_RESULTS (R561). A run of which no summary is held has no records, and what stands for its summary is a free
value. -/
def execBistResults (d : Desc) (s : State) : Out :=
  let count := d.f 127 112
  .next (s.withDesc d (bistResultsSpec d) (fun t s =>
    let b := s.rel.bist
    match b.summaries.reverse[d.f 67 64]? with
    | some r =>
      let rs := ((b.records.filter (fun u : UnitRecord => u.run == r.run)).drop (d.f 111 80)).take count
      s.complete t { status := 0, result := BitVec.ofNat 64 rs.length, xbytes := r.bytes ++ rs.flatMap UnitRecord.bytes }
    | none =>
      let (v, s) := s.fresh 512
      s.complete t { status := 0, result := 0, xbytes := leBytes 64 v.toNat }))

/-- A retirement's entry in the failing-address view: none for a unit of another kind (R563, Table 16-4). -/
def retireEntry (u : UnitName) : Option (BitVec 128) :=
  let e (mem hub loc : Nat) : Option (BitVec 128) :=
    some (BitVec.ofNat 128 (3 * 2 ^ 92 + 1023 * 2 ^ 80 + mem * 2 ^ 76 + hub * 2 ^ 74 + loc))
  match u.kind with
  | 5 => e 1 u.hub (u.index * 2 ^ 28 + u.sub * 2 ^ 16)
  | 6 => e 1 u.hub (u.index * 2 ^ 28 + u.sub * 128 * 2 ^ 16)
  | 7 => e 2 u.hub (u.index % 2 * 2 ^ 36 + u.sub * 2 ^ 21)
  | _ => none

/-- The order of retirement entries: HUB, MEM, location. -/
def retireKey (e : BitVec 128) : Nat :=
  bitsOf e.toNat 75 74 * 2 ^ 48 + bitsOf e.toNat 79 76 * 2 ^ 40 + bitsOf e.toNat 36 0

/-- The entries of the view: retirements, then test entries, newest run first (R563). -/
def State.failView (s : State) : List (BitVec 128) :=
  let ret := (s.rel.repair.retired.filterMap retireEntry).mergeSort (fun a b => decide (retireKey a ≤ retireKey b))
  let b := s.rel.bist
  let runs := (List.range 16).map (fun k => b.run - BitVec.ofNat 32 k)
  ret ++ runs.flatMap (fun n => b.fails.filter (fun e => e.extractLsb' 96 32 == n))

/-- What R313 checks of BIST_FAIL_VIEW. -/
def bistFailViewSpec (d : Desc) : DescSpec :=
  let count := d.f 127 112
  { job := false, admin := true, needX := true, used := [(111, 80), (127, 112)]
    range := 1 ≤ count && count ≤ 4096 }

/-- BIST_FAIL_VIEW (R563); an entry beyond the view's end is 16 zero bytes. -/
def execBistFailView (d : Desc) (s : State) : Out :=
  let count := d.f 127 112
  .next (s.withDesc d (bistFailViewSpec d) (fun t s =>
    let v := s.failView
    let bytes := (List.range count).flatMap (fun i => leBytes 16 ((v.getD (d.f 111 80 + i) 0).toNat))
    s.complete t { status := 0, result := BitVec.ofNat 64 v.length, xbytes := bytes }))

/-- What R313 checks of BIST_FIELD_NOW. -/
def bistFieldNowSpec (d : Desc) : DescSpec :=
  let u : UnitName := { hub := d.f 65 64, kind := d.f 79 72, index := d.f 95 80, sub := 0 }
  { job := false, admin := true, used := [(65, 64), (79, 72), (95, 80)]
    range := (fieldBit u.kind).isSome && knownUnit u }

/-- BIST_FIELD_NOW makes a unit due at once (R564). -/
def execBistFieldNow (d : Desc) (s : State) : Out :=
  let u : UnitName := { hub := d.f 65 64, kind := d.f 79 72, index := d.f 95 80, sub := 0 }
  .next (s.withDesc d (bistFieldNowSpec d) (fun t s => (if s.fieldReady u then s.fallDue u else s).complete t { status := 0 }))

end Sys2Proof.Machine
end

