-- ==== Sys2Proof/Machine/Recorder.lean ====
section
/-!
DEFINITION. The event recorder, CPER reading, authority, the history store's journal, and telemetry (chapter 19).
-/
namespace Sys2Proof.Machine

/-! ### Records -/

/-- The 32 bytes of a record (Table 19-1). -/
def evBytes (r : EvRecord) : List Byte :=
  let b := leBytes 4 r.seq.toNat ++ leBytes 2 r.event.code ++ leBytes 1 (r.hub + 4 * r.event.cls)
    ++ leBytes 1 r.event.kind ++ leBytes 2 r.event.index ++ leBytes 2 r.repeats ++ leBytes 6 (r.first / 64)
    ++ leBytes 2 (min 65535 ((r.last - r.first) / 65536)) ++ leBytes 8 r.event.detail.toNat
  b ++ leBytes 4 (crc32c b).toNat

/-- The SEQ after a SEQ (R634). -/
def nextSeq (q : BitVec 32) : BitVec 32 := if q = 0xFFFFFFFF then 257 else q + 1

/-- A new event merges with the newest record (R636). -/
def Recorder.merges (r : Recorder) (e : Event) (tick : Nat) : Bool :=
  match r.slots.find? (fun x => x.1 == r.newestSlot) with
  | some (_, n) => r.repeatEn && r.newest != 0 && n.event == e && n.repeats < 65535
      && (n.last - n.first) / 65536 < 65535 && n.first ≤ tick
  | none => false

/-- One event is written as a new record, in the pinned area or the next slot of the circulating area, or merged
(R634 to R636). -/
def Recorder.write (r : Recorder) (hub : Nat) (e : Event) (tick : Nat) : Recorder :=
  if r.merges e tick then
    { r with slots := r.slots.map (fun x =>
      if x.1 = r.newestSlot then (x.1, { x.2 with repeats := x.2.repeats + 1, last := tick }) else x) }
  else
    let q := nextSeq r.newest
    let slot := if r.count < 256 then r.count else 256 + r.circ % 3840
    { r with slots := tabIns r.slots slot { seq := q, event := e, hub := hub, repeats := 0, first := tick, last := tick }
             newest := q, newestSlot := slot, count := r.count + 1, written := r.written + 1
             circ := if r.count < 256 then r.circ else (r.circ + 1) % 3840 }

/-- The newest record. -/
def Recorder.newestRecord (r : Recorder) : Option EvRecord :=
  (r.slots.find? (fun x => x.1 == r.newestSlot)).map Prod.snd

/-- EVENT_RECORD: the oldest event of the queue is written, behind an EVR_DROPPED record where events were dropped
before it; a CLASS 3 or 4 record is journaled (R634 to R637, R648). -/
def execEventRecord (h : Hub) (s : State) : Out :=
  let r := s.evt.hubs[h]
  match r.queue with
  | [] => .next s
  | q :: rest =>
    let r := { r with queue := rest }
    let r := if 0 < q.drops then r.write h.val (ev 0x0004 1 q.drops) q.tick else r
    let r := r.write h.val q.event q.tick
    let s := s.setRecorder h r
    .next (match r.newestRecord with
      | some x => if 3 ≤ q.event.cls then s.journal 6 x.seq.toNat h.val [x] [] else s
      | none => s)

/-- The record of a slot, 32 zero bytes where it is empty. -/
def Recorder.slotBytes (r : Recorder) (slot : Nat) : List Byte :=
  match r.slots.find? (fun x => x.1 == slot) with
  | some (_, x) => evBytes x
  | none => List.replicate 32 0

/-- A write of EVR_READ_SLOT latches one record whole (R639, Table 19-11). -/
def State.evrReadSlotWrite (s : State) (h : Hub) (v : BitVec 32) : State :=
  let r := s.evt.hubs[h]
  let slot := bitsOf v.toNat 11 0
  s.setRecorder h { r with readSlot := BitVec.ofNat 12 slot, latched := r.slotBytes slot }

def execEvrReadSlotWrite (h : Hub) (v : BitVec 32) (s : State) : Out := .next (s.evrReadSlotWrite h v)

/-- The slot a record of a SEQ lies in when SEQs run without a clear (R635). -/
def slotOfSeq (q : Nat) : Nat := if q ≤ 256 then q - 1 else 256 + (q - 257) % 3840

/-- The records the journal holds of a hub and an epoch. -/
def Store.bootRecords (st : Store) (hub : Nat) (epoch : BitVec 32) : List EvRecord :=
  (st.journal.filter (fun e => e.typ == 6 && e.hub == hub && e.epoch == epoch)).flatMap JEntry.records

/-- The package epoch of the k-th boot before this one, among those the journal has event entries of (R648). -/
def Store.bootEpoch (st : Store) (now : BitVec 32) (k : Nat) : Option (BitVec 32) :=
  let es := ((st.journal.filter (fun e => e.typ == 6 && e.epoch != now)).map JEntry.epoch).reverse.dedup
  es[k]?

/-- What R313 checks of EVR_READ. -/
def evrReadSpec (d : Desc) : DescSpec :=
  let src := d.f 67 66
  let first := d.f 95 80
  let count := d.f 111 96
  { job := false, admin := true, needX := true
    used := [(65, 64), (67, 66), (79, 72), (95, 80), (111, 96)]
    range := src ≤ 1 && first ≤ 4095 && 1 ≤ count && count ≤ 4096 }

/-- EVR_READ (Table 19-3, R639, R640). -/
def execEvrRead (d : Desc) (s : State) : Out :=
  let src := d.f 67 66
  let first := d.f 95 80
  let count := d.f 111 96
  .next (s.withDesc d (evrReadSpec d) (fun t s =>
    let h := hubOf (d.f 65 64)
    let r := s.evt.hubs[h]
    let slots := (List.range count).map (fun i => (first + i) % 4096)
    if src = 0 then
      s.complete t { status := 0, result := r.newest ++ r.newest, xbytes := slots.flatMap r.slotBytes }
    else match s.evt.store.bootEpoch s.lnk.epoch (d.f 79 72) with
      | none => s.complete t { status := 0x82, xbytes := [] }
      | some e =>
        let rs := s.evt.store.bootRecords h.val e
        let bytes (i : Nat) : List Byte := match rs.reverse.find? (fun q => slotOfSeq q.seq.toNat == i) with
          | some q => evBytes q
          | none => List.replicate 32 0
        let newest := (rs.getLast?.map EvRecord.seq).getD 0
        s.complete t { status := 0, result := newest ++ newest, xbytes := slots.flatMap bytes }))

/-! ### CPER records (R641, R546, Table 15-9) -/

/-- The severity of a section by its class (Table 15-9). -/
def cperSeverity (cls : Nat) : Nat :=
  if cls = 2 then 0 else if cls = 11 then 1 else if 7 ≤ cls then 3 else 2

/-- The 16 bytes of a GUID written as the manual writes it: three little-endian parts, then eight bytes. -/
def guidBytes (a b c : Nat) (rest : Nat) : List Byte :=
  leBytes 4 a ++ leBytes 2 b ++ leBytes 2 c ++ (leBytes 8 rest).reverse

/-- A whole CPER record of 296 bytes with 24 zero bytes after it (R546, R641; the header's layout is that of the UEFI
specification, assumption 11). -/
def cperBytes (seq : Nat) (sect : List Byte) : List Byte :=
  let sev := cperSeverity (leValue ((sect.drop 2).take 2))
  let header := leBytes 4 0x52455043 ++ leBytes 2 0x0101 ++ leBytes 4 0xFFFFFFFF ++ leBytes 2 1 ++ leBytes 4 sev
    ++ leBytes 4 1 ++ leBytes 4 0 ++ leBytes 8 0 ++ leBytes 8 Config.packageId.toNat ++ leBytes 8 0
    ++ leBytes 16 0 ++ guidBytes 0xa1d0e6b4 0x3f27 0x4c88 0xb59e6e2f0c714ad2
    ++ guidBytes 0x7e5c2a90 0x41db 0x4f3e 0x8a06d3b91c5f2e47 ++ leBytes 8 seq ++ leBytes 24 0
  let desc := leBytes 4 0 ++ leBytes 4 96 ++ leBytes 8 0 ++ guidBytes 0x5b3c7f12 0x8e4a 0x4d61 0x9c2ba7e05d9f3418
    ++ leBytes 16 0 ++ leBytes 4 sev ++ leBytes 20 0
  header ++ desc ++ sect ++ List.replicate 24 0

/-- The vendor section of a RECORD_SEQ, in the store or the journal (R641). -/
def State.cperSection (s : State) (q : Nat) : Option (List Byte) :=
  match s.rel.cpers.find? (fun c => c.seq.toNat == q) with
  | some c => some c.section_
  | none => ((s.evt.store.journal.reverse.find? (fun e => e.typ == 7 && e.key == q)).map JEntry.payload)

/-- What R313 checks of EVR_CPER_READ. -/
def evrCperReadSpec (d : Desc) : DescSpec :=
  let count := d.f 103 96
  { job := false, admin := true, needX := true, used := [(95, 64), (103, 96)]
    range := 1 ≤ count && count ≤ 64 }

/-- EVR_CPER_READ (Table 19-3). -/
def execEvrCperRead (d : Desc) (s : State) : Out :=
  let count := d.f 103 96
  .next (s.withDesc d (evrCperReadSpec d) (fun t s =>
    let rows := (List.range count).map (fun i => ((d.f 95 64 + i) % 2 ^ 32, s.cperSection ((d.f 95 64 + i) % 2 ^ 32)))
    let bytes := rows.flatMap (fun r => match r.2 with
      | some b => cperBytes r.1 b
      | none => List.replicate 320 0)
    s.complete t { status := 0, result := BitVec.ofNat 64 (rows.filter (fun r => r.2.isSome)).length, xbytes := bytes }))

/-! ### Authority (R642 to R645) -/

/-- Ten seconds, one hour and ten minutes, in ticks. -/
def nonceTicks : Nat := 10000 * msTicks
def hourTicks : Nat := 3600000 * msTicks
def lockTicks : Nat := 600000 * msTicks

/-- What R313 checks of EVR_NONCE. -/
def evrNonceSpec : DescSpec :=
  { job := false, admin := true }

/-- EVR_NONCE gives a fresh nonce, which replaces the one before, or ends with EVR_AUTH while locked (R643). -/
def execEvrNonce (d : Desc) (s : State) : Out :=
  .next (s.withDesc d evrNonceSpec (fun t s =>
    if s.evt.auth.lockedAt.isSome then s.complete t { status := 0x97 }
    else
      let (n, s) := s.fresh 64
      let s := { s with evt := { s.evt with auth := { s.evt.auth with nonce := some (n, s.tick) } } }
      s.complete t { status := 0, result := n }))

/-- The proof of R643 over a message tail. -/
def authProof (token : BitVec 256) (opcode scope : Nat) (nonce : BitVec 64) (tail : List Byte) : BitVec 256 :=
  Config.hmacSha384 token (leBytes 1 opcode ++ leBytes 1 scope ++ leBytes 6 0 ++ leBytes 8 nonce.toNat
    ++ leBytes 8 Config.packageId.toNat ++ tail)

/-- Whether the nonce held is still valid. -/
def Authority.live (a : Authority) (tick : Nat) : Option (BitVec 64) :=
  match a.nonce with
  | some (n, t) => if tick - t ≤ nonceTicks then some n else none
  | none => none

/-- A failed authority check: EVR_AUTH, its record, its flag, and the lock-out after four within an hour (R643). -/
def State.authFail (s : State) (t : Ticket) (opcode : Nat) : State :=
  let fs := (s.evt.auth.fails.filter (fun x => s.tick - x < hourTicks)) ++ [s.tick]
  let lock := if 4 ≤ fs.length then some s.tick else s.evt.auth.lockedAt
  let s := { s with evt := { s.evt with auth := { nonce := none, fails := fs, lockedAt := lock } } }
  let s := s.setRecorder 0 { s.evt.hubs[(0 : Hub)] with authFail := true }
  (s.event 0 (ev 0x0003 4 opcode)).complete t { status := 0x97 }

/-- One hub's recorder after an accepted clear, with EVR_CLEARED as its newest record (R644). -/
def Recorder.clear (r : Recorder) (hub scope tick : Nat) : Recorder × Nat :=
  let all := bitOf scope 0
  let keep := if all then [] else r.slots.filter (fun x => x.1 < 256)
  let n := r.slots.length - keep.length
  let e : Event := ev 0x0001 4 (r.newest.toNat + min 65535 n * 2 ^ 32 + scope % 8 * 2 ^ 48)
  let r := { r with slots := keep, queue := [], droppedSince := 0, count := if all then 0 else r.count
                    newestSlot := 4096 }
  (r.write hub e tick, n)

/-- An accepted EVR_CLEAR on every hub (R644). -/
def State.clearRecords (s : State) (scope : Nat) : State :=
  let s := (List.finRange 4).foldl (fun s h => s.setRecorder h (s.evt.hubs[h].clear h.val scope s.tick).1) s
  let st := s.evt.store
  let j := st.journal.filter (fun e => !((e.typ == 6 && bitOf scope 1) || (e.typ == 7 && bitOf scope 2)))
  let s := { s with evt := { s.evt with store := { st with journal := j } } }
  if bitOf scope 2 then { s with rel := { s.rel with cpers := [] } } else s

/-- What R313 checks of EVR_CLEAR. -/
def evrClearSpec : DescSpec :=
  { job := false, admin := true, ext := true, used := [(66, 64)], payload := [(0, 32)] }

/-- EVR_CLEAR (R642 to R644). -/
def execEvrClear (d : Desc) (s : State) : Out :=
  .next (s.withDesc d evrClearSpec (fun t s =>
    match s.evt.store.token with
    | none => s.complete t { status := 0x96 }
    | some tok =>
      let scope := d.f 66 64
      match s.evt.auth.live s.tick with
      | some n =>
        if authProof tok 0xCB scope n [] = BitVec.ofNat 256 (d.p 0 32) then
          let cleared := (s.evt.hubs[(0 : Hub)].clear 0 scope s.tick).2
          let s := { s with evt := { s.evt with auth := { s.evt.auth with nonce := none } } }
          (s.clearRecords scope).complete t { status := 0, result := BitVec.ofNat 64 cleared }
        else s.authFail t 0xCB
      | none => s.authFail t 0xCB))

/-- What R313 checks of EVR_PROVISION. -/
def evrProvisionSpec : DescSpec :=
  { job := false, admin := true, ext := true, payload := [(0, 64)] }

/-- EVR_PROVISION sets or replaces the token (R645). -/
def execEvrProvision (d : Desc) (s : State) : Out :=
  .next (s.withDesc d evrProvisionSpec (fun t s =>
    let proof := BitVec.ofNat 256 (d.p 0 32)
    let new := BitVec.ofNat 256 (d.p 32 32)
    let accept (s : State) (replaced : Nat) : State :=
      let s := { s with evt := { s.evt with store := { s.evt.store with token := some new }
                                            auth := { s.evt.auth with nonce := none } } }
      (s.event 0 (ev 0x0002 4 replaced)).complete t { status := 0 }
    match s.evt.store.token with
    | none => if proof = 0 then accept s 0 else s.authFail t 0xCC
    | some tok =>
      match s.evt.auth.live s.tick with
      | some n => if authProof tok 0xCC 0 n (leBytes 32 new.toNat) = proof then accept s 1 else s.authFail t 0xCC
      | none => s.authFail t 0xCC))

/-- Ten minutes after the lock-out EVR_NONCE is accepted again (R643). -/
def execNonceLockoutEnd (s : State) : Out :=
  match s.evt.auth.lockedAt with
  | some t =>
    if t + lockTicks ≤ s.tick then
      .next { s with evt := { s.evt with auth := { s.evt.auth with lockedAt := none, fails := [] } } }
    else .next s
  | none => .next s

/-! ### The journal (R646 to R650, R678, R679) -/

/-- A store change. -/
def State.setStore (s : State) (st : Store) : State := { s with evt := { s.evt with store := st } }

/-- The bytes an entry takes in its block: header and payload, padded to 16 (R646). -/
def JEntry.size (e : JEntry) : Nat := 16 + roundUp (e.payload.length + 32 * e.records.length) 16

/-- An entry appended at the head of the journal, in the next block when it does not fit (R646, R649). -/
def Store.append (st : Store) (e : JEntry) : Store :=
  let fits := st.bytesInBlock + e.size ≤ 65504
  let head := if fits then st.head else (st.head + 1) % 818
  { st with journal := st.journal ++ [{ e with jseq := st.jseq + 1, block := head }], jseq := st.jseq + 1, head := head
            bytesInBlock := if fits then st.bytesInBlock + e.size else e.size
            erased := if fits then st.erased else st.erased - 1, faults := 0 }

/-- JOURNAL_WRITE: the oldest entry that waits is appended (R648). Nothing is written while the store cannot be read or
has been given up, or in a quench (R620, R679). -/
def execJournalWrite (s : State) : Out :=
  match s.evt.waiting with
  | [] => .next s
  | e :: rest =>
    if s.evt.store.ready && !s.evt.store.stopped && s.start.quench.state != 2 then
      .next (({ s with evt := { s.evt with waiting := rest } }).setStore (s.evt.store.append e))
    else .next s

/-- Whether an entry is of a keyed item: calibration, retirements, epochs, findings, self-test, slots, or a COMPACT entry of
one (Table 19-5). -/
def JEntry.keyed (e : JEntry) : Bool :=
  e.typ == 1 || e.typ == 2 || e.typ == 3 || e.typ == 4 || e.typ == 5 || e.typ == 8 || e.typ == 9

/-- The keyed item an entry is of, which a COMPACT entry keeps as its key. -/
def JEntry.item (e : JEntry) : Nat := if e.typ = 9 then e.key else e.typ * 2 ^ 128 + e.key

/-- The latest entry of every keyed item (R649). -/
def Store.latest (st : Store) : List JEntry :=
  st.journal.filter (fun e => e.keyed && st.journal.all (fun x => !(x.keyed && x.item == e.item && e.jseq < x.jseq)))

/-- The oldest block of the journal erased (R649). -/
def Store.eraseOldest (st : Store) : Store :=
  match st.journal with
  | [] => st
  | e :: _ => { st with journal := st.journal.filter (fun x => x.block ≠ e.block), erased := st.erased + 1
                        erases := tabPut 0 st.erases e.block (tabGet 0 st.erases e.block + 1) }

/-- The oldest blocks erased until 16 erased blocks lie ahead (assumption 12). -/
def Store.eraseUntil : Nat → Store → Store
  | 0, st => st
  | n + 1, st => if 16 ≤ st.erased then st else Store.eraseUntil n st.eraseOldest

/-- JOURNAL_COMPACT: with fewer than 16 erased blocks ahead, a COMPACT chain is written and old blocks are erased
(R649). -/
def execJournalCompact (s : State) : Out :=
  let st := s.evt.store
  if st.ready && !st.stopped && st.erased < 16 then
    let chain := st.latest.map (fun e => { e with typ := 9, key := e.item })
    .next (s.setStore (Store.eraseUntil 818 (chain.foldl Store.append st)))
  else .next s

/-- Entries read back at a start: a torn entry is discarded with every later entry of its block (R650). -/
def Store.readBack (st : Store) : List JEntry :=
  st.journal.filter (fun e => st.journal.all (fun x => !(x.torn && x.block == e.block && x.jseq ≤ e.jseq)))

/-- STORE_FAULT: FAULT and its alert are set, and the write is retried in the next block; after three failures in a row
the journal is given up until the next start (R679). -/
def execStoreFault (s : State) : Out :=
  let st := s.evt.store
  let s := s.setStore { st with fault := true, faults := st.faults + 1, stopped := st.stopped || 3 ≤ st.faults + 1
                                head := (st.head + 1) % 818, bytesInBlock := 0, erased := st.erased - 1 }
  .next (s.alert 6)

end Sys2Proof.Machine
end

