-- ==== Sys2Proof/Machine/Start.lean ====
section
/-!
DEFINITION. Firmware slots and signed images, start levels, reset and loss of supply, orderly shut-down and multi-function
pins (R601 to R618, R625 to R631, R642 to R650, R669, R675, R678, R679).
-/
namespace Sys2Proof.Machine

/-! ### Signed images (R627 to R629, Table 18-8) -/

/-- The little-endian field of `n` bytes at an offset. -/
def fieldAt (b : List Byte) (off n : Nat) : Nat := leValue ((b.drop off).take n)

/-- Whether `n` bytes at an offset are 0. -/
def zeroAt (b : List Byte) (off n : Nat) : Bool := fieldAt b off n == 0

/-- A patch payload's section: its header's fields (R629). -/
structure Section where
  roles : BitVec 8
  hubs : BitVec 8
deriving DecidableEq, Repr

/-- The sections of a patch payload, none where one is not as R629 gives. -/
def patchSections : Nat → List Byte → Option (List Section)
  | 0, b => if b.isEmpty then some [] else none
  | n + 1, b =>
    if b.isEmpty then some []
    else
      let kind := fieldAt b 0 1
      let off := fieldAt b 4 4
      let len := fieldAt b 8 4
      let body := (b.drop 16).take len
      let hooksOk := len % 8 == 0 && (List.range (len / 8)).all (fun i => fieldAt body (8 * i) 2 ≤ 1023 && zeroAt body (8 * i + 2) 2)
      if kind = 0 ∨ 3 < kind ∨ !zeroAt b 3 1 ∨ !zeroAt b 12 4 ∨ 15 < fieldAt b 2 1 ∨ 262144 < off + len
          ∨ b.length < 16 + roundUp len 16 ∨ (kind = 2 ∧ !hooksOk) then none
      else (patchSections n (b.drop (16 + roundUp len 16))).map (fun l =>
        { roles := BitVec.ofNat 8 (fieldAt b 1 1), hubs := BitVec.ofNat 8 (fieldAt b 2 1) } :: l)

/-- The payload of a signed image. -/
def imagePayload (b : List Byte) : List Byte := (b.drop 320).take (fieldAt b 16 4)

/-- The first of R628's checks that an image of a type fails, as its status. -/
def State.imageCheck (s : State) (b : List Byte) (typ : Nat) : Option (BitVec 8) :=
  let len := fieldAt b 16 4
  let keyId := fieldAt b 7 1
  let key := (b.drop 80).take 97
  let payload := imagePayload b
  let svn := fieldAt b 12 2
  let number (l : List Byte) : Nat := leValue l.reverse
  if fieldAt b 0 4 ≠ 0x4D495641 ∨ fieldAt b 4 1 ≠ 1 ∨ fieldAt b 5 1 ≠ 0 ∨ fieldAt b 6 1 ≠ typ ∨ 3 < keyId ∨ !zeroAt b 14 2
      ∨ !zeroAt b 20 12 ∨ !zeroAt b 177 47 ∨ 2096832 < len ∨ b.length ≠ 320 + len then some 0x91
  else if Config.sha384 key ≠ Config.romKey keyId ∨ keyId ∈ s.fw.revoked then some 0x90
  else if !Config.ecdsaVerify key (b.take 224) ((b.drop 224).take 96) then some 0x90
  else if (Config.sha384 payload).toNat ≠ number ((b.drop 32).take 48) then some 0x90
  else if svn < (if typ = 1 then s.fw.svnFuse else s.fw.packFuse).toNat then some 0x92
  else if !(if typ = 1 then (patchSections payload.length payload).isSome else Config.packFormatOk payload) then some 0x91
  else none

/-! ### Firmware slots (R630, R631) -/

/-- A slot of the two. -/
def Firmware.slot (f : Firmware) (i : Nat) : FwSlot := if i = 0 then f.slotA else f.slotB

/-- A slot replaced. -/
def Firmware.setSlot (f : Firmware) (i : Nat) (x : FwSlot) : Firmware :=
  if i = 0 then { f with slotA := x } else { f with slotB := x }

/-- A slot that the next start uses. -/
def FwSlot.isActive (x : FwSlot) : Bool := x.state == .active || x.state == .activeTrial

/-- The active slot. -/
def Firmware.active (f : Firmware) : Option Nat :=
  if f.slotA.isActive then some 0 else if f.slotB.isActive then some 1 else none

/-- A slot's state's number. -/
def SlotSt.code : SlotSt → Nat
  | .empty => 0 | .valid => 1 | .activeTrial => 2 | .active => 3 | .bad => 4

/-- A slot's 32-byte record. -/
def FwSlot.bytes (x : FwSlot) : List Byte :=
  leBytes 1 x.state.code ++ leBytes 1 x.tries ++ leBytes 1 x.keyId.toNat ++ leBytes 1 0 ++ leBytes 4 x.version.toNat
    ++ leBytes 2 x.svn.toNat ++ leBytes 2 0 ++ leBytes 4 x.payloadLen.toNat ++ leBytes 8 x.digest8.toNat ++ leBytes 8 0

/-- Slot records and the fuse copy are journaled (Table 19-5). -/
def State.journalSlots (s : State) : State :=
  s.journal 8 0 0 [] (s.fw.slotA.bytes ++ s.fw.slotB.bytes ++ leBytes 2 s.fw.svnFuse.toNat)

/-- A slot's patches are loaded into the cores' inactive banks; none has switched yet (R630). -/
def State.useSlot (s : State) (i : Option Nat) : State :=
  { s with fw := { s.fw with inUse := i, switched := [] } }

/-- The active slot is checked and loaded; at a start a trial slot's TRIES rises first, and a slot that fails, or that a
start finds tried twice, is BAD: the other slot is started when it is VALID and passes, or mask ROM alone (R630,
R631). -/
def State.slotCheck (s : State) (atStart : Bool) : State :=
  match s.fw.active with
  | none => s.useSlot none
  | some i =>
    let x := s.fw.slot i
    let spent := atStart && x.state == .activeTrial && 2 ≤ x.tries
    let x := if atStart && x.state == .activeTrial && !spent then { x with tries := x.tries + 1 } else x
    if !spent && (s.imageCheck x.image 1).isNone then (({ s with fw := s.fw.setSlot i x }).useSlot (some i)).journalSlots
    else
      let fw := s.fw.setSlot i { x with state := .bad }
      let j := 1 - i
      let y := fw.slot j
      let ok := y.state == .valid && (s.imageCheck y.image 1).isNone
      let fw := if ok then fw.setSlot j { y with state := .active } else fw
      let s := (({ s with fw := { fw with fellBack := true } }).useSlot (if ok then some j else none)).journalSlots
      let s := (s.event 0 (ev 0x0014 3 (i + (if ok then 0 else 2)))).alert 7
      let (v, s) := s.fresh 48
      s.notice 0x0183 v.toNat

/-- The cores of a hub that a slot's sections name (R629). -/
def FwSlot.cores (x : FwSlot) (h : Hub) : List Nat :=
  match patchSections (imagePayload x.image).length (imagePayload x.image) with
  | some l => (List.range 7).filter (fun n => l.any (fun c : Section => c.roles.getLsbD n && c.hubs.getLsbD h.val))
  | Option.none => []

/-- PATCH_BANK_SWITCH: a core with sections loaded switches banks; the patch level is the hub's once its last core has
(R630, Table 20-4). -/
def execPatchBankSwitch (hub : Hub) (core : Fin 7) (s : State) : Out :=
  match s.fw.inUse with
  | none => .next s
  | some i =>
    let x := s.fw.slot i
    let cores := x.cores hub
    if core.val ∉ cores || (hub.val, core.val) ∈ s.fw.switched || (s.start.level != .core && s.start.level != .ring) then .next s
    else
      let sw := s.fw.switched ++ [(hub.val, core.val)]
      let level : BitVec 16 := x.version.extractLsb' 0 16
      let full := cores.all (fun n => decide ((hub.val, n) ∈ sw))
      .next { s with fw := { s.fw with switched := sw
                                       hubPatch := if full then s.fw.hubPatch.set hub.val level else s.fw.hubPatch
                                       patchLevel := if full then level else s.fw.patchLevel } }

/-- The store can be written now (R679). -/
def State.storeOk (s : State) : Bool := s.evt.store.ready && !s.evt.store.stopped

/-- What R313 checks of IMAGE_LOAD. -/
def imageLoadSpec (d : Desc) : DescSpec :=
  let target := d.f 65 64
  let addr := d.f 191 128
  { job := false, admin := true, used := [(65, 64), (191, 128), (223, 192)], range := target ≤ 2
    addrs := [(addr, 64)] }

/-- IMAGE_LOAD: the image is read from host memory and checked, and a slot becomes VALID or a pack is stored, in place of
the pack of its PACK_ID or else of the oldest (R543, R544, R628, Table 18-9). -/
def execImageLoad (d : Desc) (s : State) : Out :=
  let target := d.f 65 64
  let addr := d.f 191 128
  let bytes := d.f 223 192
  .next (s.withDesc d (imageLoadSpec d) (fun t s =>
    let b := s.hostRead addr (min bytes 2097152)
    let bad := if bytes < 320 ∨ 2097152 < bytes then some 0x91#8 else s.imageCheck b (if target = 2 then 2 else 1)
    if target ≠ 2 && (s.fw.slot target).isActive then s.complete t { status := 0x93 }
    else match bad with
      | some e => s.complete t { status := e }
      | none =>
        if !s.storeOk then s.complete t { status := 0x94 }
        else if target = 2 then
          let payload := imagePayload b
          let order := (s.fw.packs.map Pack.order).foldl max 0 + 1
          let p : Pack := { id := Config.packId payload, version := BitVec.ofNat 32 (fieldAt b 8 4), kinds := Config.packKinds payload
                            image := b, order := order }
          let rest := s.fw.packs.filter (fun q : Pack => q.id ≠ p.id)
          let oldest := (rest.map Pack.order).foldl min order
          let kept := if rest.length < 4 then rest else rest.filter (fun q : Pack => q.order ≠ oldest)
          ({ s with fw := { s.fw with packs := kept ++ [p] } }).complete t { status := 0, result := BitVec.ofNat 64 bytes }
        else
          let y : FwSlot := { state := .valid, tries := 0, keyId := BitVec.ofNat 8 (fieldAt b 7 1)
                              version := BitVec.ofNat 32 (fieldAt b 8 4), svn := BitVec.ofNat 16 (fieldAt b 12 2)
                              payloadLen := BitVec.ofNat 32 (fieldAt b 16 4), digest8 := BitVec.ofNat 64 (fieldAt b 32 8)
                              image := b }
          (({ s with fw := s.fw.setSlot target y }).journalSlots).complete t { status := 0, result := BitVec.ofNat 64 bytes }))

/-- What R313 checks of SLOT_QUERY. -/
def slotQuerySpec : DescSpec :=
  { job := false, admin := true, needX := true }

/-- SLOT_QUERY (Table 18-9). -/
def execSlotQuery (d : Desc) (s : State) : Out :=
  .next (s.withDesc d slotQuerySpec (fun t s =>
    s.complete t { status := 0, result := 2, xbytes := s.fw.slotA.bytes ++ s.fw.slotB.bytes }))

/-- Links that carry traffic or are at HELLO retrain. -/
def State.retrainAll (s : State) : State :=
  (List.finRange 32).foldl (fun s l =>
    if s.lnk.links[l].state.counts || s.linkIs l [.hello, .downVersion] then s.linkRetrainNow l 2 else s) s

/-- What R313 checks of SLOT_ACTIVATE. -/
def slotActivateSpec : DescSpec :=
  { job := false, admin := true, used := [(65, 64)] }

/-- SLOT_ACTIVATE: a VALID slot becomes ACTIVE_TRIAL and the other is no longer active; with NOW it is checked and loaded at
once and every link retrains (R630, Table 18-9). -/
def execSlotActivate (d : Desc) (s : State) : Out :=
  .next (s.withDesc d slotActivateSpec (fun t s =>
    let i := d.f 64 64
    let x := s.fw.slot i
    if x.state != .valid then s.complete t { status := 0x91 }
    else
      let (none_, s) := s.fresh 64
      let prev := match s.fw.active with
        | some j => BitVec.ofNat 64 j
        | none => none_
      let y := s.fw.slot (1 - i)
      let fw := (s.fw.setSlot i { x with state := .activeTrial, tries := 0 }).setSlot (1 - i)
        (if y.isActive then { y with state := .valid } else y)
      let s := ({ s with fw := fw }).journalSlots
      let s := if d.f 65 65 = 1 then (s.slotCheck false).retrainAll else s
      s.complete t { status := 0, result := prev }))

/-- What R313 checks of SLOT_CONFIRM. -/
def slotConfirmSpec : DescSpec :=
  { job := false, admin := true }

/-- SLOT_CONFIRM: the trial slot becomes ACTIVE and the fuse counter rises to its SVN (R631, Table 18-9). -/
def execSlotConfirm (d : Desc) (s : State) : Out :=
  .next (s.withDesc d slotConfirmSpec (fun t s =>
    match s.fw.active with
    | some i =>
      let x := s.fw.slot i
      if x.state == .activeTrial then
        let fuse := if s.fw.svnFuse.toNat < x.svn.toNat then x.svn else s.fw.svnFuse
        let fw := { s.fw with svnFuse := fuse }
        (({ s with fw := fw.setSlot i { x with state := .active } }).journalSlots).complete t
          { status := 0, result := x.svn.zeroExtend 64 }
      else s.complete t { status := 0x91 }
    | none => s.complete t { status := 0x91 }))

/-! ### Reset and loss of supply (R611 to R613) -/

/-- What a reset leaves: everything is discarded but what the history store and the fuses hold, the stacks' retention, the
pins' levels and the JTAG chain; the model's own counter, the queue and host memory are not the Aedvos's (R49, R604,
R612). -/
def State.afterReset (s : State) (lv : Level) (cause : Nat) : State :=
  let r := State.reset
  let b := s.rel.bist
  let bist : Bist :=
    { Bist.reset with run := b.run, hubCursor := b.hubCursor, stackCursor := b.stackCursor, ranThisRun := b.ranThisRun
                      running := b.running, due := b.due, dueRan := b.dueRan, c5Missed := b.c5Missed, kind := b.kind
                      runBudgetMs := b.runBudgetMs, since := b.since, records := b.records, summaries := b.summaries
                      fails := b.fails, timedOut := b.timedOut, passes := b.passes, runFails := b.runFails
                      runTimeouts := b.runTimeouts, slices := b.slices, closed := b.closed, decided := b.decided
                      stopCause := if b.stopCause ≠ 0 then b.stopCause else cause }
  { r with pending := s.pending, tick := s.tick, freeCount := s.freeCount, host := s.host,
           units := { r.units with epochs := s.units.epochs, markers := s.units.markers,
                                   selfRefresh := Vector.replicate 8 true },
           lnk := { r.lnk with peers := s.lnk.peers, epoch := s.lnk.epoch },
           vault := { r.vault with images := s.vault.images, order := s.vault.order },
           rel := { r.rel with repair := s.rel.repair, findings := s.rel.findings.filter Finding.stored,
                               cperSeq := s.rel.cperSeq, bist := bist },
           pwr := { r.pwr with cal := s.pwr.cal },
           start := { r.start with level := lv, pins := { r.start.pins with pgood := s.start.pins.pgood, rstN := s.start.pins.rstN },
                                   quench := { r.start.quench with aHigh := s.start.quench.aHigh,
                                                                   bHigh := s.start.quench.bHigh } },
           fw := { r.fw with slotA := s.fw.slotA, slotB := s.fw.slotB, packs := s.fw.packs, svnFuse := s.fw.svnFuse,
                             packFuse := s.fw.packFuse, revoked := s.fw.revoked },
           evt := { r.evt with store := { s.evt.store with ready := false, stopped := false, faults := 0, fault := false,
                                                           empty := false } },
           regs := { r.regs with taps := s.regs.taps, tdo := s.regs.tdo } }

/-- A pin's level is set. -/
def State.setPins (s : State) (p : Pins) : State := { s with start := { s.start with pins := p } }

/-- RST_N_ASSERT: outputs are quenched and every state the Aedvos does not keep is discarded; a self-test run stops (R560,
R611, R612). -/
def execRstNAssert (s : State) : Out :=
  let p := s.start.pins
  if !p.rstN then .next s
  else
    let s := s.setPins { p with rstN := false }
    .next (if p.pgood then s.afterReset .reset 2 else s)

/-- The retention markers are gone: the next start is cold. -/
def State.dropMarkers (s : State) : State := { s with units := { s.units with markers := Vector.replicate 8 Option.none } }

/-- PGOOD_FALL: as RST_N, and OFF; the JTAG chain is without power. Retention markers stay with the stacks that hold them
(R560, R604, R612, R617, R686). -/
def execPgoodFall (s : State) : Out :=
  let p := s.start.pins
  if !p.pgood then .next s
  else
    let s := (s.setPins { p with pgood := false }).afterReset .off 3
    .next { s with regs := { s.regs with taps := State.reset.regs.taps, tdo := [] } }

/-! ### The start (R606 to R610, R624) -/

/-- A self-test run that was stopped is closed: each slice without an end is ABORTED (R560). -/
def State.closeStopped (s : State) : State :=
  let b := s.rel.bist
  if b.closed then s
  else
    let s := (b.running.foldl (fun (s : State) (r : RunningSlice) => s.endSlice r .aborted []) s).closeRun
    s.setBist { s.rel.bist with state := 0, slices := 0, failed := 0 }

/-- The CPER records of the last run's decisions are written (R562). -/
def State.reportDecided (s : State) : State :=
  let l := s.rel.bist.decided
  let s := l.foldl (fun (s : State) (u : UnitName) =>
    let (id, v) := s.packFor u.kind
    s.cper 3 7 u 0x0045 0 (if 0 < s.sparesLeft u then 3 else 4) 2 0 (s.sparesLeft u) 0 id v) s
  s.setBist { s.rel.bist with decided := [] }

/-- Units whose last slice timed out are tested before they enter service (R554, R609). -/
def State.retestTimedOut (s : State) : State :=
  let l := s.rel.bist.timedOut.filter (fun u => u ∉ s.rel.repair.retired)
  let s := l.foldl (fun (s : State) (u : UnitName) =>
    let h := unitHub u
    let (id, v) := s.packFor u.kind
    let s := s.quiesce u
    let x := s.rel.hubs[h]
    let t : UnderTest := { unit := u, field := false, since := s.tick, pack := id, packVersion := v, cls := 0 }
    s.setHealth h { x with testing := x.testing ++ [t] }) s
  s.setBist { s.rel.bist with timedOut := [] }

/-- Every hub's domains but the stacks' are ON (R585). -/
def State.domainsOn (s : State) : State :=
  { s with pwr := { s.pwr with hubs := s.pwr.hubs.map (fun p : HubPower =>
      ({ p with domains := p.domains.zipIdx.map (fun d : Domain × Nat =>
        if d.2 < 8 then ({ d.1 with state := .on, idleSince := some s.tick } : Domain) else d.1) } : HubPower)) } }

/-- The package epoch at a start: kept by a warm one; otherwise it rises by 1, and every window frame and image held for
peers is lost (R510, R613). -/
def State.startEpoch (s : State) (warm : Bool) : State :=
  if warm then
    let peer (p : Peer) : Peer := { p with grantHeld := 0, frozen := false, out := false, lost := false, downSince := some s.tick }
    { s with lnk := { s.lnk with peers := s.lnk.peers.map peer } }
  else
    let e := s.lnk.epoch + 1
    ({ s with lnk := { s.lnk with peers := [], epoch := e }, vault := { s.vault with images := [] } }).journal 3 0 0 []
      (leBytes 4 e.toNat)

/-- The start begins at CORE (R606): the kind of the start and the epoch, the domains, the firmware slot, what the last
self-test left, and the quench channels' levels (R624). -/
def State.beginStart (s : State) : State :=
  let warm := s.units.markers.toList.all (fun m => m == some s.lnk.epoch)
  let q := s.start.quench
  let p := s.start.pins
  let one := q.aHigh != q.bHigh
  let q := { q with state := if one then 1 else 0, timerFrom := if one then some s.tick else Option.none, timerMs := q.discMs.toNat }
  let s := { s with start := { s.start with level := .core, started := s.tick, warm := warm, shut := .none, quench := q
                                            pins := { p with offReady := false, spiActive := true } } }
  let s := (s.startEpoch warm).dropMarkers.domainsOn
  let s := s.closeStopped.retestTimedOut.reportDecided
  let s := if s.evt.store.valid && s.evt.store.readable then s.slotCheck true else s.useSlot Option.none
  let s := s.eventAll (ev 0x0010 0 2)
  if !q.aHigh && !q.bHigh then s.quenchNow .pins else s

/-- START: PGOOD rises or RST_N is released; with both high the start begins (R606, R611). -/
def execStart (pgood rstN : Bool) (s : State) : Out :=
  let p := s.start.pins
  let p' := { p with pgood := p.pgood || pgood, rstN := p.rstN || rstN }
  let s' := s.setPins p'
  if p'.pgood && p'.rstN then
    if s.start.level == .off || s.start.level == .reset then .next s'.beginStart else .next s'
  else if p'.pgood && s.start.level == .off then .next { s' with start := { s'.start with level := .reset } }
  else .next s'

/-- Milliseconds since the start. -/
def State.sinceStart (s : State) : Nat := ((s.tick : Int) - s.start.started).toNat / msTicks

/-- The detail of START_LEVEL (Table 19-2). -/
def State.levelEvent (s : State) (level : Nat) : State := s.eventAll (ev 0x0010 0 (level + sat16 s.sinceStart * 65536))

/-- A bank comes into service, EMPTIED where a fault no spare mends keeps it from stripes (Table 15-8). -/
def State.bankAtStart (s : State) (i : Fin 64) : UnitState :=
  let rep := s.rel.repair
  if s.rel.hubs[hubOf (i.val / 16)].lost then .out
  else if rep.sliceRetired.any (fun r => r.1 == i.val)
      || rep.retired.any (fun u => u.kind == 16 && u.hub == i.val / 16 && u.index == i.val % 16) then .emptied
  else .inService

/-- RING_LEVEL: 300 µs after the start, on Shade that is in service; what was announced before goes to the admin ring,
UMBRA_READY first (R606, R608). -/
def execRingLevel (s : State) : Out :=
  if s.start.level != .core || s.stalled || (s.tick : Int) - s.start.started < 46875 then .next s
  else
    let ns := s.start.notices
    let first := ns.filter (fun n => n.1 == 0x0181) ++ ns.filter (fun n => n.1 != 0x0181)
    let s := { s with start := { s.start with level := .ring, notices := [] }
                      units := { s.units with shade := Vector.ofFn s.bankAtStart } }
    let s := s.levelEvent 3
    .next (first.foldl (fun (s : State) n => s.notice n.1 n.2) s)

/-- Whether the history store has been read, or could not be, at this start. -/
def State.storeTried (s : State) : Bool := s.evt.store.ready || !s.evt.store.readable

/-- A calibration is taken: it is journaled, and recorded where it is provisional (R598, R647). -/
def State.calibrated (s : State) (unit : BitVec 16) (c : CalState) : State :=
  let rest := s.pwr.cal.filter (fun e => e.1 ≠ unit)
  let s := { s with pwr := { s.pwr with cal := rest ++ [(unit, c)] } }
  let s := s.journal 1 unit.toNat 0 [] (leBytes 2 unit.toNat ++ leBytes 1 (if c = .provisional then 1 else 0))
  if c = .provisional then s.event (hubOf (unit.toNat / 256 % 16)) (ev 0x0080 0 unit.toNat) else s

/-- A unit without a stored calibration is calibrated at the start, at light load (R598, R609). -/
def State.calibrateNew (s : State) (unit : BitVec 16) : State :=
  if s.evt.store.readable && s.pwr.cal.any (fun e => e.1 == unit) then s else s.calibrated unit .provisional

/-- The R647 code of a stack's PHY and of a link lane. -/
def stackCal (k : Stack) : BitVec 16 := BitVec.ofNat 16 (0x1000 + k.val / 2 * 256 + k.val)
def laneCal (l : LinkNo) (lane : Nat) : BitVec 16 := BitVec.ofNat 16 (0x2000 + l.val / 8 * 256 + l.val % 8 * 5 + lane)

/-- The state a stack comes into service in: OUT where it failed or its controller is retired, EMPTIED where a persistent
fault keeps it from stripes (R519, R541, R607). -/
def State.stackAtStart (s : State) (out : BitVec 8) (k : Fin 8) : UnitState :=
  let rep := s.rel.repair
  if out.getLsbD k.val || s.rel.hubs[hubOf (k.val / 2)].lost
      || rep.retired.any (fun u => u.kind == 9 && u.index == k.val) then .out
  else if rep.erasure.any (fun e => e.1 == k.val) || s.reserveFree k < 128 then .emptied
  else .inService

/-- UMBRA_READY: every stack is in service or OUT, with the stored retirements applied (R542, R606 to R608). -/
def execUmbraReady (out : BitVec 8) (s : State) : Out :=
  if (s.start.level != .core && s.start.level != .ring) || s.start.umbra || s.stalled || !s.storeTried then .next s
  else
    let ms := s.sinceStart
    let stack := Vector.ofFn (s.stackAtStart out)
    let gone := (List.finRange 8).filter (fun k => stack[k] == UnitState.out)
    let s := { s with units := { s.units with stack := stack, selfRefresh := Vector.replicate 8 false }
                      start := { s.start with umbra := true, umbraMs := BitVec.ofNat 12 (min 4095 ms), umbraOut := out }
                      pwr := { s.pwr with hubs := s.pwr.hubs.map (fun p : HubPower =>
                        ({ p with domains := p.domains.zipIdx.map (fun d : Domain × Nat =>
                          if 8 ≤ d.2 then ({ d.1 with state := .on, idleSince := some s.tick } : Domain) else d.1) } : HubPower)) } }
    let s := (List.finRange 8).foldl (fun s k => if k ∈ gone then s else s.calibrateNew (stackCal k)) s
    let s := s.levelEvent 4
    .next (s.notice 0x0181 (sat16 ms + (gone.map (fun k => 2 ^ (16 + k.val))).sum))

/-- Whether a link counts as reached: it is held OFF, it has left its first training, or that has found no peer (R606,
R675). -/
def State.linkReached (s : State) (l : LinkNo) : Bool :=
  let k := s.lnk.links[l]
  k.state != .training || k.trainSince != k.trainFirst

/-- Whether a link has reached HELLO. -/
def LState.hasHello : LState → Bool
  | .hello | .up | .reduced | .retrain | .l1 | .downVersion => true
  | _ => false

/-- LINKS_READY (R606, R608). -/
def execLinksReady (s : State) : Out :=
  if (s.start.level != .core && s.start.level != .ring) || s.start.links || s.stalled || !s.storeTried
      || !(List.finRange 32).all s.linkReached then .next s
  else
    let ms := s.sinceStart
    let up := (List.finRange 32).filter (fun l => s.lnk.links[l].state.hasHello)
    let s := { s with start := { s.start with links := true, linksMs := BitVec.ofNat 12 (min 4095 ms) } }
    let s := up.foldl (fun (s : State) l => s.lnk.links[l].map.foldl (fun (s : State) n => s.calibrateNew (laneCal l n)) s) s
    let s := s.levelEvent 5
    .next (s.notice 0x0182 (sat16 ms + (up.map (fun l => 2 ^ (16 + l.val))).sum))

/-! ### The history store at the start (R610, R650, R669, R678, R679) -/

/-- Retirements the store holds are in force (R542, R562, R609). -/
def State.applyRetired (s : State) : State :=
  s.rel.repair.retired.foldl (fun (s : State) (u : UnitName) =>
    let h := unitHub u
    match u.kind with
    | 1 => s.retireCore h u.index
    | 2 =>
      let x := s.rel.hubs[h]
      if u.index ∈ x.enginesRetired then s
      else
        let s := s.engineSpareIn h u.index
        let x := s.rel.hubs[h]
        s.setHealth h { x with enginesRetired := x.enginesRetired ++ [u.index] }
    | 3 => s.laneTake h (Fin.ofNat 18 u.index) true
    | 4 => s.channelTake h u.index true
    | 12 =>
      let p := s.rg.ports[h]
      s.setPort h { p with modules := p.modules &&& ~~~(1#16 <<< u.index) }
    | _ => s) s

/-- The links' first training begins, each whose START_EN bit is then 1 (R675). -/
def State.firstTraining (s : State) : State :=
  let s := { s with regs := { s.regs with hubs := s.regs.hubs.map (fun x : HubRegs => ({ x with startLatched := x.startEn } : HubRegs)) } }
  (List.finRange 32).foldl (fun s l =>
    if s.linkIs l [.off] && s.regs.hubs[linkHub l].startLatched.getLsbD (l.val % 8) then s.linkTrain l else s) s

/-- A blank store: nothing it would have held is known (R656, R678). -/
def State.blankHistory (s : State) : State :=
  let r := State.reset
  { s with start := { s.start with storeCold := true }
           fw := { s.fw with slotA := FwSlot.none, slotB := FwSlot.none, packs := [], inUse := Option.none, switched := [] }
           rel := { s.rel with repair := r.rel.repair, findings := []
                               bist := { Bist.reset with budgetMs := s.rel.bist.budgetMs, en := s.rel.bist.en
                                                         umbraEn := s.rel.bist.umbraEn, refused := s.rel.bist.refused } }
           pwr := { s.pwr with cal := [] } }

/-- JOURNAL_READ_AT_START: hub 0 reads the store, which is then ready; a store that cannot be read leaves the start cold with
a drawn epoch, mask ROM alone and a notice; one with no superblock is made anew (R610, R650, R656, R669, R678). The links'
first training begins with what was read. -/
def execJournalReadAtStart (readable : Bool) (s : State) : Out :=
  let st := s.evt.store
  if (s.start.level != .core && s.start.level != .ring) || st.ready || (s.start.storeCold && !st.readable) then .next s
  else if !readable then
    let (v, s) := s.fresh 32
    let last := s.lnk.epoch
    let e := if v = last then v + 1 else v
    let s := { s with start := { s.start with storeCold := true, warm := false }
                      lnk := { s.lnk with epoch := e, peers := [] }, vault := { s.vault with images := [] } }
    .next ((((s.setStore { st with readable := false }).useSlot Option.none).notice 0x0186 0).firstTraining)
  else if !st.valid then
    .next (((s.setStore { st with readable := true, valid := true, ready := true, empty := true, token := Option.none
                                  journal := [], head := 0, bytesInBlock := 0, erased := 817 }).blankHistory).firstTraining)
  else
    let j := st.readBack
    .next (((s.setStore { st with readable := true, ready := true, journal := j, head := (st.head + 1) % 818
                                  bytesInBlock := 0, erased := st.erased - 1 }).applyRetired).firstTraining)

/-! ### Orderly shut-down (R614 to R618) -/

/-- A shut-down begins: in-field tests that wait are cancelled and their slices due, an on-demand run ends after its running
slices, the budget is the one that holds now, and the event is recorded (R550, R569, R614, R615, R618). -/
def State.beginShutdown (s : State) (warm : Bool) (drainMs : Nat) (t : Option Ticket) : State :=
  let waiting := (List.finRange 4).flatMap (fun h => (s.rel.hubs[h].due).map Due.unit)
  let s := waiting.foldl State.sliceDue s
  let s := { s with rel := { s.rel with hubs := s.rel.hubs.map (fun x : HubHealth => ({ x with due := [] } : HubHealth)) } }
  let b := s.rel.bist
  let s := s.setBist { b with shutBudgetMs := b.budgetMs, stopCause := if b.state == 2 && b.stopCause = 0 then 1 else b.stopCause }
  let s := s.event 0 (ev 0x0013 0 (warm.toNat + t.isNone.toNat * 2))
  { s with start := { s.start with shut := .draining warm (s.tick + drainMs * msTicks) t } }

/-- SHDN_REQ: the pin has been low for 1 µs: a notice is written and the grace period starts (R614). -/
def execShdnReq (s : State) : Out :=
  let p := s.start.pins
  if s.start.shut != .none || (s.start.level != .core && s.start.level != .ring) || p.shdnReqLow then .next s
  else
    let s := (s.setPins { p with shdnReqLow := true }).notice 0x0180 0
    .next { s with start := { s.start with shut := .grace (s.tick + bitsOf p.shdnCfg.toNat 31 16 * msTicks) } }

/-- GRACE_EXPIRY: the shut-down begins with the kind and drain time of PIN_SHDN_CFG (R614). -/
def execGraceExpiry (s : State) : Out :=
  match s.start.shut with
  | .grace t =>
    let c := s.start.pins.shdnCfg
    .next (if t ≤ s.tick then s.beginShutdown (c.getLsbD 0) (bitsOf c.toNat 15 1) Option.none else s)
  | _ => .next s

/-- What R313 checks of SHUTDOWN. -/
def shutdownSpec : DescSpec :=
  { job := false, admin := true, used := [(64, 64), (95, 80)] }

/-- SHUTDOWN (R614, R615, Table 18-9). -/
def execShutdown (d : Desc) (s : State) : Out :=
  .next (s.withDesc d shutdownSpec (fun t s =>
    if s.shutting then s.complete t { status := 0x95 }
    else
      let ms := d.f 95 80
      s.beginShutdown (d.f 64 64 = 1) (if ms = 0 then bitsOf s.start.pins.shdnCfg.toNat 15 1 else ms) (some t)))

/-- The ticket of a descriptor as fetched (Table 9-3). -/
def Fetched.ticket (f : Fetched) (ring : Nat) : Ticket :=
  { ring := ring, sseq := f.sseq, quiet := f.slot.getLsbD 53, xres := false, resultAddr := 0 }

/-- Whether an in-flight entry is a command's own. -/
def Fetched.isFor (f : Fetched) (ring : Nat) (t : Option Ticket) : Bool :=
  match t with
  | some x => x.ring == ring && x.sseq == f.sseq
  | none => false

/-- The requests in flight but the SHUTDOWN itself. -/
def State.otherInflight (s : State) (t : Option Ticket) : List (Nat × Fetched) :=
  s.rg.list.flatMap (fun r : Ring => (r.inflight.filter (fun f : Fetched => !f.isFor r.id t)).map (fun f => (r.id, f)))

/-- A request still in flight ends with ABORTED; its completion is written where the CQ has room (R615 step 2). -/
def State.abortFetched (s : State) (x : Nat × Fetched) : State :=
  match s.ring? x.1 with
  | some r =>
    if r.room && r.held.isEmpty then s.complete (x.2.ticket x.1) { status := 0x25 }
    else s.setRing (r.ended x.2.sseq)
  | none => s

/-- The work behind the requests that were ended is gone. -/
def State.dropWork (s : State) : State :=
  let h' (h : Handle) : Handle :=
    { h with fill := Option.none, mig := Option.none, waiting := []
             state := if h.state == HState.filling then .registered else if h.state == HState.migrating then .resident
               else if h.state == HState.regenerating then .latent else h.state }
  { s with hs := { s.hs with list := s.hs.list.map h' }
           eng := { s.eng with runs := [], engines := s.eng.engines.map (fun e => (e.1, ({ e.2 with tile := Option.none } : Engine))) }
           codec := { s.codec with jobs := [], requests := []
                                   lanes := s.codec.lanes.map (fun v => v.map (fun l : Lane => ({ l with job := Option.none } : Lane))) }
           vault := { s.vault with ops := [] }
           lnk := { s.lnk with reqs := [], txSignals := [] }
           groups := s.groups.map (fun g : Group => ({ g with colls := [] } : Group))
           rg := { s.rg with fenceWaits := [] }
           ctxs := s.ctxs.map (fun c : Ctx => ({ c with step := Option.none, streams := [] } : Ctx)) }

/-- A list cut into pieces of at most `n`. -/
def pieces {α : Type} (n : Nat) (l : List α) : List (List α) :=
  (List.range ((l.length + n - 1) / n)).map (fun i => (l.drop (n * i)).take n)

/-- What a shut-down writes to the history store: each hub's pinned records and its newest 256 others, the self-test cursors
and the slots; calibrations, retirements and epochs were journaled as they changed (R615 step 5, R648). -/
def State.shutdownJournal (s : State) : State :=
  let s := (List.finRange 4).foldl (fun (s : State) (h : Hub) =>
    let r := s.evt.hubs[h]
    let pinned := (r.slots.filter (fun x => x.1 < 256)).map Prod.snd
    let circ := ((r.slots.filter (fun x => 256 ≤ x.1)).map Prod.snd).mergeSort (fun a b => decide (a.seq.toNat ≤ b.seq.toNat))
    (pieces 127 (pinned ++ circ.drop (circ.length - 256))).foldl (fun (s : State) l => s.journal 6 0 h.val l []) s) s
  let b := s.rel.bist
  (s.journal 5 (2 ^ 64) 0 [] (b.hubCursor.flatMap (leBytes 1) ++ b.stackCursor.flatMap (leBytes 1))).journalSlots

/-- What a warm shut-down keeps: the frames of this Aedvos's own homes are released, each stack that is not OUT takes the
retention marker as its last write, and every stack goes into self-refresh (R617). -/
def State.warmRetain (s : State) : State :=
  let m := Vector.ofFn (fun k : Fin 8 => if s.units.stack[k] == UnitState.out then Option.none else some s.lnk.epoch)
  { s with hs := { s.hs with list := [] }, units := { s.units with markers := m, selfRefresh := Vector.replicate 8 true } }

/-- A shut-down goes on once its requests have ended (R615 steps 2 to 7). -/
def State.afterDrain (s : State) (warm : Bool) (t : Option Ticket) : State :=
  let s := ((s.otherInflight t).foldl State.abortFetched s).dropWork
  let s := match t with
    | some x => s.complete x { status := 0 }
    | none => s
  let s := (List.finRange 32).foldl (fun s l => if s.linkIs l [.off] then s else s.linkDown l .off) s
  let s := s.shutdownJournal
  let s := if warm then s.warmRetain else s
  let b := s.rel.bist
  { s with start := { s.start with shut := .testing warm (b.en && b.shutBudgetMs ≠ 0) } }

/-- DRAIN_EXPIRY: DRAIN_MS has passed, or nothing is in flight any more (R615). -/
def execDrainExpiry (s : State) : Out :=
  match s.start.shut with
  | .draining warm until_ t =>
    .next (if until_ ≤ s.tick || (s.otherInflight t).isEmpty then s.afterDrain warm t else s)
  | _ => .next s

/-- OFF_READY is released once the shut-down test is over, and every output but ALERT_N takes its reset state (R549, R615
step 8, R616). -/
def execOffReady (s : State) : Out :=
  match s.start.shut with
  | .testing _ false =>
    if s.rel.bist.state == 1 || s.rel.bist.state == 2 then .next s
    else
      let p := s.start.pins
      .next { s with start := { s.start with shut := .offReady, pins := { p with offReady := true, spiActive := false } } }
  | _ => .next s

/-! ### Multi-function pins (R625, R626) -/

/-- A pin's function code, a reserved one stored as 0 (Table 18-7). -/
def mfCode (n : Nat) : Nat := if 6 < n then 0 else n

/-- PIN_MF_SEL0 or PIN_MF_SEL1 is written: a pin whose function changes is released for 313 ticks from now (R625). -/
def State.mfSelWrite (s : State) (second : Bool) (v : BitVec 32) : State :=
  let p := s.start.pins
  let pins := if second then (List.range 4).map (fun i => (8 + i, mfCode (bitsOf v.toNat (4 * i + 3) (4 * i))))
    else (List.range 8).map (fun i => (i, mfCode (bitsOf v.toNat (4 * i + 3) (4 * i))))
  let old (n : Nat) : Nat := bitsOf p.mfSel.toNat (4 * n + 3) (4 * n)
  let changed := (pins.filter (fun x => old x.1 ≠ x.2)).map Prod.fst
  let sel := (List.range 12).map (fun n => ((pins.find? (fun x => x.1 == n)).map Prod.snd).getD (old n) * 16 ^ n)
  s.setPins { p with mfSel := BitVec.ofNat 48 sel.sum
                     mfReleasing := p.mfReleasing.filter (fun r => r.1 ∉ changed) ++ changed.map (fun n => (n, s.tick + 313)) }

def execMfSelectWrite (second : Bool) (value : BitVec 32) (s : State) : Out := .next (s.mfSelWrite second value)

/-- MF_RELEASE_END: the count has run and the new function drives the pin (R625). -/
def execMfReleaseEnd (pin : Fin 12) (s : State) : Out :=
  let p := s.start.pins
  .next (if p.mfReleasing.any (fun r => r.1 == pin.val && decide (r.2 ≤ s.tick)) then
    s.setPins { p with mfReleasing := p.mfReleasing.filter (fun r => r.1 ≠ pin.val) } else s)

end Sys2Proof.Machine
end

