-- ==== Sys2Proof/Machine/Calib.lean ====
section
/-!
DEFINITION. Calibration re-checks and drift, the recalibration of a REDUCED stack, and the retention monitor (R598 to R600,
R647, R148, R686).
-/
namespace Sys2Proof.Machine

/-- A unit's calibration has drifted beyond margin: a stack becomes REDUCED, a link lane is bad as by its error ratio, and a
host-port module is left out while it retrains (R600). -/
def State.drifted (s : State) (unit : BitVec 16) : State :=
  let kind := bitsOf unit.toNat 15 12
  let h := hubOf (bitsOf unit.toNat 11 8)
  let n := bitsOf unit.toNat 7 0
  let known := (kind = 1 && n < 8 && n / 2 = h.val) || (kind = 2 && n < 40) || (kind = 3 && n < 16)
  if !known || 3 < bitsOf unit.toNat 11 8 then s
  else
    let rest := s.pwr.cal.filter (fun e => e.1 ≠ unit)
    let s := { s with pwr := { s.pwr with cal := rest ++ [(unit, CalState.drift)] } }
    let s := s.event h (ev 0x0082 1 unit.toNat)
    if kind = 1 then
      let u : TierUnit := .umbra (Fin.ofNat 8 n)
      if s.unitState u == UnitState.inService then s.setUnit u .reduced else s
    else if kind = 2 then s.laneGoesBad (Fin.ofNat 32 (8 * h.val + n / 5)) (n % 5) false
    else
      let p := s.rg.ports[h]
      if p.modules.getLsbD n then
        (s.setPort h { p with modules := p.modules &&& ~~~(1#16 <<< n) }).event h (evU 0x0055 1 12 n (n + 16))
      else s

/-- CALIBRATION_RECHECK: a provisional calibration is confirmed, or found drifted (R599, R600). -/
def execCalibrationRecheck (unit : BitVec 16) (drift : Bool) (s : State) : Out :=
  if !s.pwr.cal.any (fun e => e.1 == unit && e.2 == CalState.provisional) then .next s
  else if drift then .next (s.drifted unit)
  else .next ((s.calibrated unit .confirmed).event (hubOf (bitsOf unit.toNat 11 8)) (ev 0x0081 0 unit.toNat))

/-- DRIFT_CHECK (R600). -/
def execDriftCheck (unit : BitVec 16) (drift : Bool) (s : State) : Out := .next (if drift then s.drifted unit else s)

/-- RECALIBRATION_DONE: a REDUCED stack runs at its full rate again; its new calibration is provisional where the package's
power was below 40% of the cap (R148, R598, R600). -/
def execRecalibrationDone (k : Stack) (s : State) : Out :=
  if s.unitState (.umbra k) != UnitState.reduced then .next s
  else
    let light := decide (s.pwr.mgr.power * 100 < 40 * 8 * s.pwr.mgr.watts)
    .next ((s.setUnit (.umbra k) .inService).calibrated (stackCal k) (if light then .provisional else .confirmed))

/-- RETENTION_MONITOR: a stack's rail left its range while it was held: its retention marker is invalid (R686). -/
def execRetentionMonitor (k : Stack) (s : State) : Out :=
  .next { s with units := { s.units with markers := Vector.set s.units.markers k.val Option.none } }

end Sys2Proof.Machine
end

