-- ==== Sys2Proof/Machine/Ckpt.lean ====
section
/-!
DEFINITION. Checkpoints and snapshots: capture, the image, the commands that work at a holder, and the answers of peers
(R403, R490 to R509, R513).
-/
namespace Sys2Proof.Machine

/-! ### Capture and the image (R493 to R496, R498, Tables 14-4 to 14-7) -/

/-- A stripe as an image stores it: FORM, its bytes, and the blocks of the frame that travel poisoned. -/
structure StoredStripe where
  form : Nat
  bytes : List Byte
  marks : List Nat

/-- A stripe of a handle in the form of Table 14-4. One whose course would exceed 2 MiB is stored raw (R181). -/
def storeStripe (h : Handle) (data : Tab Byte) (poison : List Nat) (press : Bool) (k : Nat) : StoredStripe :=
  let p (b : Nat) : Bool := decide (k * 512 + b ∈ poison)
  let n := stripeLen h.shape.size k
  let blocks := (List.range n).map (fun b => blockBytes data (k * 512 + b))
  let raw : StoredStripe := { form := 0, bytes := blocks.flatten, marks := (List.range n).filter p }
  let course (form cls : Nat) (bs : List (List Byte)) : StoredStripe := match encodeStripe cls k p bs with
    | some c => { form := form, bytes := c, marks := [] }
    | none => raw
  let narrowed := (h.frames.find? (fun f => f.1 == k)).map Prod.snd
  match h.fate, narrowed with
  | .narrow, some fs => course 2 0 fs
  | .narrow, none => course 3 (elemClass h.shape.format) blocks
  | .press, _ => course 1 (elemClass h.shape.format) blocks
  | _, _ => if press then course 1 (elemClass h.shape.format) blocks else raw

/-- The permissions byte of an entry (Table 9-11, offset 21). -/
def Perms.byte (p : Perms) : Nat :=
  p.narrow.toNat + p.tolerant.toNat * 2 + p.mutable.toNat * 4 + p.producer.toNat * 8 + p.adaptNarrow.toNat * 16
    + p.pinTier.toNat * 32 + p.noSwap.toNat * 64

/-- A segment entry (Table 14-6). -/
def segmentEntry (h : Handle) (data : Tab Byte) (poison : List Nat) (minor frame stripes first : Nat) : List Byte :=
  leBytes 5 h.key.obj ++ leBytes 1 h.shape.format ++ leBytes 1 h.fate.code ++ leBytes 1 h.perms.byte
    ++ leBytes 8 (h.shape.size - 1) ++ leBytes 4 h.shape.rows ++ leBytes 4 h.shape.rowLen
    ++ leBytes 2 h.shape.tag.toNat ++ leBytes 1 h.shape.set ++ leBytes 1 h.marks.bits.toNat ++ leBytes 4 frame
    ++ leBytes 4 h.updates.toNat ++ leBytes 4 poison.length ++ leBytes 8 (tensorDigest data h.shape.size).toNat
    ++ (if minor = 0 then leBytes 4 0
        else leBytes 1 h.perms.narrowFormat ++ leBytes 1 h.perms.errorBound ++ leBytes 2 h.perms.widenBudget)
    ++ leBytes 4 stripes ++ leBytes 4 first ++ leBytes 4 0

/-- What a capture needs besides its handles. -/
structure Capture where
  kind : Nat
  key : BitVec 64
  rank : BitVec 16
  ckptNo : BitVec 32
  step : BitVec 32
  minor : Nat
  press : Bool
  seedLo : BitVec 64
  seedHi : BitVec 64

/-- An image: its bytes by image offset, its poisoned blocks, and the offsets of its blocks after frame 0 (Tables 14-5 to
14-7). -/
def State.buildImage (s : State) (c : Capture) (hs : List Handle) : Tab Byte × List Nat × List Nat :=
  let one (h : Handle) : Handle × Tab Byte × List Nat × List StoredStripe :=
    let data := s.objectRange h 0 h.shape.size
    let poison := s.objectPoison h
    (h, data, poison, (List.range (stripeCount h.shape.size)).map (storeStripe h data poison c.press))
  let segs := hs.map one
  let stripes := segs.flatMap (fun x => (x.2.2.2.zipIdx).map (fun y =>
    (y.1, (x.2.2.1.filter (fun b => b / 512 == y.2)).length)))
  let bad := segs.any (fun x => !x.2.2.1.isEmpty)
  let first (i : Nat) : Nat := ((segs.take i).map (fun x => x.2.2.2.length)).sum
  let entries := (segs.zipIdx).flatMap (fun x =>
    segmentEntry x.1.1 x.1.2.1 x.1.2.2.1 c.minor (1 + first x.2) x.1.2.2.2.length (first x.2))
  let table := stripes.flatMap (fun x => leBytes 1 x.1.form ++ leBytes 1 0 ++ leBytes 2 x.2 ++ leBytes 4 x.1.bytes.length)
  let head := leBytes 4 0x4B435041 ++ leBytes 1 1 ++ leBytes 1 c.minor ++ leBytes 1 c.kind ++ leBytes 1 bad.toNat
    ++ leBytes 8 c.key.toNat ++ leBytes 2 c.rank.toNat ++ leBytes 2 segs.length ++ leBytes 4 c.ckptNo.toNat
    ++ leBytes 4 c.step.toNat ++ leBytes 4 stripes.length ++ leBytes 8 c.seedLo.toNat ++ leBytes 8 c.seedHi.toNat
    ++ leBytes 12 0
  let crc := crc32c (head ++ leBytes 4 0 ++ entries ++ table)
  let man := head ++ leBytes 4 crc.toNat ++ entries ++ table
  let img0 : Tab Byte := natTab man.length (leValue man)
  let img := (stripes.zipIdx).foldl (fun (m : Tab Byte) x =>
    tabPaste m ((x.2 + 1) * 2097152) x.1.1.bytes.length (natTab x.1.1.bytes.length (leValue x.1.1.bytes))) img0
  let marks := (stripes.zipIdx).flatMap (fun x => x.1.1.marks.map (fun b => (x.2 + 1) * 512 + b))
  let blocks := (stripes.zipIdx).flatMap (fun x =>
    (List.range ((x.1.1.bytes.length + 4095) / 4096)).map (fun b => (x.2 + 1) * 2097152 + b * 4096))
  (img, marks, blocks)

/-! ### Requests to a holder (R497, R499) -/

/-- An operation at a holder. -/
def State.op? (s : State) (id : Nat) : Option RemoteOp := s.vault.ops.find? (fun o => o.id == id)

/-- An operation's entry replaced. -/
def State.setOp (s : State) (o : RemoteOp) : State :=
  { s with vault := { s.vault with ops := s.vault.ops.map (fun x => if x.id = o.id then o else x) } }

/-- One request of an operation, kept among those it has out. -/
def State.opSend (s : State) (o : RemoteOp) (write : Bool) (link : Nat) (addr len : Nat) (poison : Bool) (data : List Byte) :
    RemoteOp × State :=
  let tag := s.lnk.nextTag
  let q : PnReq := { tag := tag, link := link, write := write, addr := BitVec.ofNat 48 addr, len := len, prio := o.prio,
                     poison := poison, data := data, since := s.tick, op := o.id, again := false }
  ({ o with outstanding := o.outstanding ++ [tag] }, s.sendReq q)

/-- The vault space (Table 14-8). -/
def vaultAddr (use bits : Nat) : Nat := 2 ^ 47 + use * 2 ^ 44 + bits

/-- The link that carries an image offset: frame f goes over link f mod m of the bundle. -/
def State.imageLink (s : State) (o : RemoteOp) (off : Nat) : Nat :=
  let l := s.bundle o.pkg
  ((l[(off / 2097152) % max 1 l.length]?).map Fin.val).getD o.vlink

/-- The request block of an operation goes to the holder. -/
def State.opAsk (s : State) (o : RemoteOp) : State :=
  let data := o.req.bytes ++ List.replicate 4064 0#8
  let (o, s) := s.opSend { o with phase := .ask } true o.vlink (vaultAddr 0 (o.vtag * 4096)) 4096 false data
  s.setOp o

/-- Blocks of an operation's image are sent (R496). -/
def State.opBlocks (s : State) (o : RemoteOp) (offs : List Nat) : State :=
  let r := offs.foldl (fun (a : RemoteOp × State) off =>
    let data := (List.range 4096).map (fun i => tabGet 0#8 o.image (off + i))
    a.2.opSend a.1 true (a.2.imageLink o off) (vaultAddr 2 ((o.slot.getD 0) * 2 ^ 36 + off)) 4096
      (decide (off / 4096 ∈ o.imagePoison)) data) (o, s)
  r.2.setOp r.1

/-- Blocks of a holder's image are asked for. -/
def State.opFetch (s : State) (o : RemoteOp) (offs : List Nat) : State :=
  let r := offs.foldl (fun (a : RemoteOp × State) off =>
    a.2.opSend a.1 false (a.2.imageLink o off) (vaultAddr 2 ((o.slot.getD 0) * 2 ^ 36 + off)) 4096 false []) (o, s)
  r.2.setOp r.1

/-- A request tag of a link that no operation uses (R499). -/
def State.freeTag (s : State) (link : Nat) : Option Nat :=
  (List.range 16).find? (fun t => !s.vault.ops.any (fun o : RemoteOp => o.vlink == link && o.vtag == t))

/-- An operation begins with its request. -/
def State.beginOp (s : State) (o : RemoteOp) : State :=
  let o := { o with id := s.vault.nextOp }
  let s := { s with vault := { s.vault with nextOp := s.vault.nextOp + 1, ops := s.vault.ops ++ [o] } }
  s.opAsk o

/-- An operation leaves: its readers end. -/
def State.dropOp (s : State) (o : RemoteOp) : State :=
  let less (h : Handle) : Handle := { h with readers := h.readers - (o.readers.filter (fun k => k == h.key)).length }
  { s with vault := { s.vault with ops := s.vault.ops.filter (fun x : RemoteOp => x.id ≠ o.id) },
           hs := { s.hs with list := s.hs.list.map less } }

/-- An operation ends with a status; a RESULT the manual does not give is a free value, and 0 where it failed. -/
def State.endOp (s : State) (o : RemoteOp) (st : BitVec 8) : State :=
  let s := s.dropOp o
  match o.ticket with
  | some t => if st = 0 then
      let (v, s) := s.fresh 64
      s.complete t { status := 0, result := v }
    else s.complete t { status := st }
  | none => s

/-- A handle filled by an operation is REGISTERED again. -/
def State.unfillOp (s : State) (id : Nat) : State :=
  (s.hs.list.filter (fun h : Handle => (h.fill.bind Fill.op) == some id)).foldl (fun (s : State) (h : Handle) =>
    (s.unfill h).endWaiting h.waiting 0x21) s

/-- An operation fails; an image it has created is dropped at the holder (R497). -/
def State.failOp (s : State) (o : RemoteOp) (st : BitVec 8) : State :=
  let made := (o.opcode = 0x50 ∨ o.opcode = 0x51) && o.slot.isSome
  let s := (s.unfillOp o.id).endOp o st
  if made && !(s.bundle o.pkg).isEmpty then
    s.beginOp { o with opcode := 0, ticket := none, readers := [], req := { o.req with op := 3 }, slot := none, outstanding := [] }
  else s

/-! ### Reading an image back (R86, R505 to R509) -/

/-- A segment entry as read. -/
structure Segment where
  obj : Nat
  format : Nat
  size : Nat
  rows : Nat
  rowLen : Nat
  flags : Nat
  updates : Nat
  digest : Nat
  narrow : Nat
  frame : Nat
  stripes : Nat
  first : Nat

/-- Segment `i` of a manifest (Table 14-6). -/
def segmentOf (img : Tab Byte) (i : Nat) : Segment :=
  let a := 64 + 64 * i
  { obj := bytesNat img a 5, format := bytesNat img (a + 5) 1, size := bytesNat img (a + 8) 5 + 1, rows := bytesNat img (a + 16) 4,
    rowLen := bytesNat img (a + 20) 4, flags := bytesNat img (a + 27) 1, updates := bytesNat img (a + 32) 4,
    digest := bytesNat img (a + 40) 8, narrow := bytesNat img (a + 48) 4, frame := bytesNat img (a + 28) 4,
    stripes := bytesNat img (a + 52) 4, first := bytesNat img (a + 56) 4 }

/-- The imgSegments of a manifest. -/
def imgSegments (img : Tab Byte) : List Segment := (List.range (bytesNat img 18 2)).map (segmentOf img)

/-- A stripe table entry: FORM and BYTES_USED (Table 14-7). -/
def stripeEntry (img : Tab Byte) (j : Nat) : Nat × Nat :=
  let a := 64 + 64 * bytesNat img 18 2 + 8 * j
  (bytesNat img a 1, bytesNat img (a + 4) 4)

/-- A block read back: its delivered bytes, its frame where it was stored narrow, and its mark. -/
structure BackBlock where
  bytes : List Byte
  frame : List Byte
  poison : Bool

/-- Block `b` of stripe `k` of a segment, from the stripe's frame; none where a check fails (R197, R229, R506). -/
def blockBack (img : Tab Byte) (marks : List Nat) (g : Segment) (nf k b : Nat) : Option BackBlock :=
  let at_ := (g.frame + k) * 2097152
  let (form, used) := stripeEntry img (g.first + k)
  if form = 0 then
    some { bytes := (List.range 4096).map (fun i => tabGet 0#8 img (at_ + b * 4096 + i)), frame := []
           poison := decide ((g.frame + k) * 512 + b ∈ marks) }
  else
    let course := (List.range used).map (fun i => tabGet 0#8 img (at_ + i))
    match expandFromCourse (if form = 2 then 0 else elemClass g.format) k (k * 512 + b) course with
    | .bytes raw p =>
      if form = 2 && !p then (widenFrame g.format nf raw).map (fun w => { bytes := w, frame := raw, poison := false })
      else some { bytes := raw, frame := if form = 2 then raw else [], poison := p }
    | _ => none

/-- A segment's content, its poisoned blocks, and its stripes' frames; none where a check fails. -/
def segmentBack (img : Tab Byte) (marks : List Nat) (g : Segment) : Option (Tab Byte × List Nat × List (Nat × List (List Byte))) :=
  let nf := bitsOf g.narrow 7 0
  let at_ (k b : Nat) : Option BackBlock := blockBack img marks g nf k b
  let all := (List.range g.stripes).map (fun k => (List.range (stripeLen g.size k)).map (at_ k))
  if all.any (fun l => l.any Option.isNone) then none
  else
    let bs := all.map (fun l => l.filterMap id)
    let bytes := bs.flatMap (fun l => l.flatMap BackBlock.bytes)
    let poison := (bs.zipIdx).flatMap (fun x => ((x.1.zipIdx).filter (fun y => y.1.poison)).map (fun y => x.2 * 512 + y.2))
    let frames := (bs.zipIdx).filterMap (fun x =>
      if (stripeEntry img (g.first + x.2)).1 = 2 then some (x.2, x.1.map BackBlock.frame) else none)
    some (tabSlice (natTab bytes.length (leValue bytes)) 0 g.size, poison, frames)

/-! ### The commands (Tables 14-1 and 14-2) -/

/-- The bound key and rank of a context (R490). -/
def State.bound (s : State) (ctx : Nat) : Option (BitVec 64 × BitVec 16) :=
  (s.ctx? ctx).bind (fun c => c.binding.map (fun b => (b.1, b.2.setWidth 16)))

/-- An operation as a descriptor asks for it. -/
def opOf (d : Desc) (t : Ticket) (ctx opcode : Nat) (pkg : BitVec 64) (tag : Nat) (q : VaultReq) : RemoteOp :=
  { id := 0, phase := .ask, opcode := opcode, ticket := some t, ctx := ctx, pkg := pkg, prio := d.prio.toNat, vtag := tag,
    vlink := d.f 69 64, req := q, slot := none, image := [], imagePoison := [], blocks := [], readers := [], status := 0,
    address := d.f 447 384, count := d.f 159 148, allow := d.f 74 74 == 1, setSeed := d.f 75 75 == 1, outstanding := [] }

/-- What every command at a holder checks: the binding, and the bundle of LINK; it waits for the links to come into service
and for a free request tag (R315, R490, R499). -/
def State.atHolder (s : State) (d : Desc) (t : Ticket)
    (act : BitVec 64 → BitVec 16 → BitVec 64 → Nat → State → State) : State :=
  match s.bound (s.descCtx d) with
  | none => s.complete t { status := 0x80 }
  | some (key, rank) =>
    if !s.start.links then s
    else match s.bundlePeer (Fin.ofNat 32 (d.f 69 64)) with
      | none => s.complete t { status := 0x60 }
      | some pkg => match s.freeTag (d.f 69 64) with
        | none => s
        | some tag => act key rank pkg tag s

/-- The handles of a list in host memory, in the order of R698. -/
def State.listed (s : State) (ctx addr n : Nat) : Except (BitVec 8) (List Handle) :=
  (List.range n).foldl (fun (a : Except (BitVec 8) (List Handle)) i => match a with
    | .ok l => (match s.named ctx (s.hostNum (addr + 8 * i) 8) with
      | .ok h => .ok (l ++ [h])
      | .error e => .error e)
    | .error e => .error e) (.ok [])

/-- Why a listed handle cannot be captured (R493, R509). -/
def captureBad (minor : Nat) (h : Handle) : Option (BitVec 8) :=
  if h.fate == Fate.recompute || h.fate == Fate.drop then some 0x18
  else if h.state != HState.resident && h.state != HState.migrating then some 0x14
  else if h.fate == Fate.narrow && minor = 0 then some 0x84 else none

/-- CHECKPOINT and SNAPSHOT_SEND: every handle is checked, its bytes are captured as they stand and it gains a reader, and
CREATE is asked of the holder (R493 to R497). -/
def State.capture (s : State) (d : Desc) (t : Ticket) (kind : Nat) : State :=
  s.atHolder d t (fun key rank pkg tag s =>
    let ctx := s.descCtx d
    let minor := if d.f 143 136 = 0xFF then 1 else d.f 143 136
    match s.listed ctx (d.f 447 384) (d.f 159 148) with
    | .error e => s.complete t { status := e }
    | .ok hs => match (hs.filterMap (captureBad minor)).head? with
      | some e => s.complete t { status := e }
      | none =>
        let frames := (hs.map (fun h => stripeCount h.shape.size)).sum
        if 131072 < frames then s.complete t { status := 0x13 }
        else if !hs.all (fun h => (List.range (stripeCount h.shape.size)).all (s.stripeReadable h)) then
          s.complete t { status := 0x22 }
        else
          let c := s.ctx? ctx
          let k := if kind = 1 then BitVec.ofNat 64 (d.f 383 320) else key
          let cap : Capture :=
            { kind := kind, key := k, rank := rank, ckptNo := BitVec.ofNat 32 (d.f 319 288), step := BitVec.ofNat 32 (d.f 287 256),
              minor := minor, press := d.f 73 73 == 1, seedLo := (c.map Ctx.seedLo).getD 0, seedHi := (c.map Ctx.seedHi).getD 0 }
          let (img, marks, blocks) := s.buildImage cap hs
          let q : VaultReq := { op := 1, kind := kind, retain := d.f 147 144, rank := rank, key := k, ckptNo := cap.ckptNo,
                                frames := 1 + frames, slot := 0 }
          let poisoned := hs.any (fun h => !(s.objectPoison h).isEmpty)
          let o := { opOf d t ctx (0x50 + kind) pkg tag q with image := img, imagePoison := marks, blocks := blocks,
                                                               readers := hs.map Handle.key, status := if poisoned then 0x20 else 0 }
          let more (h : Handle) : Handle := { h with readers := h.readers + (o.readers.filter (fun x => x == h.key)).length }
          let s := { s with hs := { s.hs with list := s.hs.list.map more } }
          s.beginOp o)

/-- The descriptor check of CHECKPOINT and SNAPSHOT_SEND. -/
def captureSpec (d : Desc) (snapshot : Bool) : DescSpec :=
  { job := true, admin := false, moves := true
    used := [(69, 64), (73, 73), (147, 136), (159, 148), (319, 256), (447, 384)] ++ (if snapshot then [(383, 320)] else [])
    range := d.f 69 64 < 32 && 1 ≤ d.f 159 148 && (d.f 143 136 ≤ 1 || d.f 143 136 == 0xFF), addrs := [(d.f 447 384, 64)] }

/-- CHECKPOINT (R493 to R497). -/
def execCheckpoint (d : Desc) (s : State) : Out := .next (s.withDesc d (captureSpec d false) (fun t s => s.capture d t 0))

/-- SNAPSHOT_SEND: as CHECKPOINT, with kind 1 and DEST_KEY (Table 14-1). -/
def execSnapshotSend (d : Desc) (s : State) : Out := .next (s.withDesc d (captureSpec d true) (fun t s => s.capture d t 1))

/-- The rank a command names: 0xFFFF means the bound one (Table 14-2). -/
def rankOf (d : Desc) (rank : BitVec 16) : BitVec 16 := if d.f 175 160 = 0xFFFF then rank else BitVec.ofNat 16 (d.f 175 160)

/-- What R313 checks of CKPT_RESTORE. -/
def ckptRestoreSpec (d : Desc) : DescSpec :=
  { job := true, admin := false, moves := true, used := [(69, 64), (75, 74), (175, 160), (319, 288)]
    range := d.f 69 64 < 32 }

/-- CKPT_RESTORE begins with the holder's records of the key and rank (R492, R505). -/
def execCkptRestore (d : Desc) (s : State) : Out :=
  .next (s.withDesc d (ckptRestoreSpec d) (fun t s => s.atHolder d t (fun key rank pkg tag s =>
    let q : VaultReq := { op := 4, kind := 0, retain := 0, rank := rankOf d rank, key := key, ckptNo := BitVec.ofNat 32 (d.f 319 288),
                          frames := 0, slot := 0 }
    s.beginOp (opOf d t (s.descCtx d) 0x52 pkg tag q))))

/-- What R313 checks of CKPT_DROP. -/
def ckptDropSpec (d : Desc) : DescSpec :=
  { job := true, admin := false, used := [(69, 64), (175, 160), (319, 288)], range := d.f 69 64 < 32 }

/-- CKPT_DROP (R500). -/
def execCkptDrop (d : Desc) (s : State) : Out :=
  .next (s.withDesc d (ckptDropSpec d) (fun t s => s.atHolder d t (fun key rank pkg tag s =>
    let q : VaultReq := { op := 3, kind := 0, retain := 0, rank := rankOf d rank, key := key, ckptNo := BitVec.ofNat 32 (d.f 319 288),
                          frames := 0, slot := 0 }
    s.beginOp (opOf d t (s.descCtx d) 0x53 pkg tag q))))

/-- What R313 checks of CKPT_LIST. -/
def ckptListSpec (d : Desc) : DescSpec :=
  { job := true, admin := false, needX := true, used := [(69, 64), (159, 148), (175, 160), (447, 384)]
    range := d.f 69 64 < 32 && 1 ≤ d.f 159 148 && d.f 159 148 ≤ 256, addrs := [(d.f 447 384, 64)] }

/-- CKPT_LIST (R500, Table 14-1). RANK names the image rank listed. -/
def execCkptList (d : Desc) (s : State) : Out :=
  .next (s.withDesc d (ckptListSpec d) (fun t s => s.atHolder d t (fun key rank pkg tag s =>
    let q : VaultReq := { op := 4, kind := 0, retain := 0, rank := rankOf d rank, key := key, ckptNo := 0, frames := 0, slot := 0 }
    s.beginOp (opOf d t (s.descCtx d) 0x54 pkg tag q))))

/-- What R313 checks of SNAPSHOT_READ. -/
def snapshotReadSpec (d : Desc) : DescSpec :=
  { job := true, admin := false, moves := true
    used := [(135, 128), (255, 176), (359, 320), (447, 384)], addrs := [(d.f 447 384, 64)] }

/-- SNAPSHOT_READ delivers bytes of a segment of a snapshot in this Aedvos's own vault (R508). -/
def execSnapshotRead (d : Desc) (s : State) : Out :=
  .next (s.withDesc d (snapshotReadSpec d) (fun t s =>
    match s.bound (s.descCtx d) with
    | none => s.complete t { status := 0x80 }
    | some (key, _) => match (s.image? (d.f 135 128)).filter (fun i : Image => i.kind == 1 && i.key == key) with
      | none => s.complete t { status := 0x82 }
      | some i =>
        if i.state != ImgState.sealed then s.complete t { status := 0x83 }
        else match (imgSegments i.data).find? (fun g => g.obj == d.f 359 320) with
          | none => s.complete t { status := 0x82 }
          | some g =>
            let off := d.f 255 216
            let len := if d.f 215 176 = 0 then g.size - off else d.f 215 176
            if g.size ≤ off || g.size < off + len then s.complete t { status := 0x13 }
            else match segmentBack i.data i.poison g with
              | none => s.complete t { status := 0x21 }
              | some (data, poison, _) =>
                let bad := poison.filter (fun b => off / 4096 ≤ b && b * 4096 < off + len)
                let s := s.deliverBytes false false g.format g.size off len (d.f 447 384) data bad
                let ks := (List.range ((off + len + 2097151) / 2097152 - off / 2097152)).map (fun j => hubOf (off / 2097152 + j))
                s.completeVia t ks { status := if bad.isEmpty then 0 else 0x20
                                     result := if bad.isEmpty then digestRange data off len else 0 }))

/-! ### What the holder answers -/

/-- The records of a result block. -/
def resultRecords (b : List Byte) : List (List Byte) := chunks 32 (min 126 (leValue ((b.drop 2).take 2))) (b.drop 64)

/-- Fields of a directory record: slot, state, INCOMPLETE, FMT_MINOR, CKPT_NO. -/
def recSlot (r : List Byte) : Nat := leValue (r.take 1)
def recState (r : List Byte) : Nat := leValue ((r.drop 1).take 1)
def recIncomplete (r : List Byte) : Bool := bitOf (leValue ((r.drop 2).take 1)) 0
def recMinor (r : List Byte) : Nat := leValue ((r.drop 3).take 1)
def recCkpt (r : List Byte) : Nat := leValue ((r.drop 16).take 4)

/-- The record a CKPT_RESTORE means: the one with its CKPT_NO, or for 0xFFFF_FFFF the SEALED one of the highest
(Table 14-2). -/
def pickRecord (want : BitVec 32) (rs : List (List Byte)) : Option (List Byte) :=
  if want = 0xFFFFFFFF then
    (rs.filter (fun r => recState r == 2)).foldl (fun (a : Option (List Byte)) r => match a with
      | none => some r
      | some b => if recCkpt b < recCkpt r then some r else some b) none
  else rs.find? (fun r => recCkpt r == want.toNat)

/-- A CKPT_RESTORE has its records: the image is chosen and checked, and its manifest is asked for (R505, R509). -/
def State.restorePick (s : State) (o : RemoteOp) (b : List Byte) : State :=
  match pickRecord o.req.ckptNo (resultRecords b) with
  | none => s.endOp o 0x82
  | some r =>
    if 1 < recMinor r then s.endOp o 0x84
    else if recState r ≠ 2 then s.endOp o 0x83
    else s.opFetch { o with phase := .readHead, slot := some (recSlot r), count := (recIncomplete r).toNat } [0]

/-- Why a segment cannot be restored: its handle must be REGISTERED, with the segment's shape (R505). -/
def State.segmentBad (s : State) (ctx : Nat) (g : Segment) : Option (BitVec 8) :=
  match s.handle? { ctx := ctx, obj := g.obj } with
  | none => some 0x14
  | some h =>
    if h.state != HState.registered then some 0x14
    else if h.shape.size ≠ g.size || h.shape.format ≠ g.format || h.shape.rows ≠ g.rows || h.shape.rowLen ≠ g.rowLen then some 0x85
    else none

/-- Every handle of an image enters FILLING (R506). -/
def State.restoreBegin (s : State) (o : RemoteOp) (t : Ticket) (gs : List Segment) : Except (BitVec 8) State :=
  gs.foldl (fun (a : Except (BitVec 8) State) g => match a with
    | .ok s => (match s.handle? { ctx := o.ctx, obj := g.obj } with
      | some h => s.beginFill h { ticket := t, prio := o.prio, ringCtx := o.ctx, source := 0, readyBlocks := 0, readyBase := 0,
                                  readyHub := 0, readyCtr := 0, nextBlock := 0, blocksIn := 0, run := none, op := some o.id }
      | none => .error 0x14)
    | .error e => .error e) (.ok s)

/-- A whole manifest is in: the remaining checks of R505 are made, the handles enter FILLING, and the stripes are asked
for. -/
def State.restoreCheckAll (s : State) (o : RemoteOp) : State :=
  let img := o.image
  let gs := imgSegments img
  if !manifestOk img then s.endOp o 0x21
  else if o.count = 1 && !o.allow then s.endOp o 0x87
  else match (gs.filterMap (s.segmentBad o.ctx)).head?, o.ticket with
    | some e, _ => s.endOp o e
    | none, some t => (match s.restoreBegin o t gs with
      | .error e => s.endOp o e
      | .ok s =>
        let offs := gs.flatMap (fun g => (List.range g.stripes).flatMap (fun k =>
          (List.range (((stripeEntry img (g.first + k)).2 + 4095) / 4096)).map (fun b => (g.frame + k) * 2097152 + b * 4096)))
        s.opFetch { o with phase := .readAll } offs)
    | none, none => s.endOp o 0

/-- The manifest's first block is in: its magic and version are checked and the rest is asked for (R505, R509). -/
def State.restoreHead (s : State) (o : RemoteOp) : State :=
  if bytesNat o.image 0 4 ≠ 0x4B435041 then s.endOp o 0x82
  else if bytesNat o.image 4 1 ≠ 1 || 1 < bytesNat o.image 5 1 then s.endOp o 0x84
  else
    let n := (min 2097152 (manifestLen o.image) + 4095) / 4096
    if n ≤ 1 then s.restoreCheckAll o
    else s.opFetch { o with phase := .readMan } ((List.range (n - 1)).map (fun i => (i + 1) * 4096))

/-- A segment's bytes become its handle's: widened, or, for a NARROW handle with the segment's three narrow fields, its
frames and stripe forms as stored (R506). -/
def State.fillSegment (s : State) (h : Handle) (g : Segment) (data : Tab Byte) (poison : List Nat)
    (frames : List (Nat × List (List Byte))) : State × Handle :=
  let flags := BitVec.ofNat 3 g.flags
  let dig := tensorDigest data h.shape.size
  let m : Marks := { h.marks with digest := dig, received := dig, poison := poison, ovf := flags.getLsbD 0, ufz := flags.getLsbD 1,
                                  nf := flags.getLsbD 2 }
  let h := { h with content := if h.fate.stored then data else [], marks := m, updates := BitVec.ofNat 32 g.updates, fill := none }
  let s := if h.fate == Fate.keep then s.hostDeliver h.keepAddr h.shape.size data 0 poison else s
  let same := h.fate == Fate.narrow && h.perms.narrowFormat == bitsOf g.narrow 7 0 && h.perms.errorBound == bitsOf g.narrow 15 8
    && h.perms.widenBudget == bitsOf g.narrow 31 16
  let s := poison.foldl (fun (s : State) _ => s.poisonCreated h.key.entry h.word) (s.dropLaneWork h.key)
  if same then
    let form (k : Nat) : StripeForm := if frames.any (fun f => f.1 == k) then .narrowed else .full 0
    (s, { h with frames := frames, homes := (h.homes.zipIdx).map (fun x => { x.1 with form := form x.2 }) })
  else if h.fate == Fate.narrow then
    let (s, h) := s.narrowFill h
    (s, { h with marks := { h.marks with digest := tensorDigest h.content h.shape.size } })
  else (s, h)

/-- Every stripe is in: the handles are filled, their digests compared, and the command ends (R506, R507). -/
def State.restoreEnd (s : State) (o : RemoteOp) : State :=
  let gs := imgSegments o.image
  let backs := gs.map (fun g => (g, segmentBack o.image o.imagePoison g))
  let good (x : Segment × Option (Tab Byte × List Nat × List (Nat × List (List Byte)))) : Bool := match x.2 with
    | some (data, _, _) => (tensorDigest data x.1.size).toNat == x.1.digest
    | none => false
  if !backs.all good then s.failOp o 0x21
  else
    let s := backs.foldl (fun (s : State) x => match s.handle? { ctx := o.ctx, obj := x.1.obj }, x.2 with
      | some h, some (data, poison, frames) =>
        let (s, h) := s.fillSegment h x.1 data poison frames
        (s.setHandle { h with state := .resident }).runWaiting h.key
      | _, _ => s) s
    let s := match s.ctx? o.ctx with
      | some c => if o.setSeed then s.setCtx { c with seedLo := BitVec.ofNat 64 (bytesNat o.image 32 8),
                                                      seedHi := BitVec.ofNat 64 (bytesNat o.image 40 8) } else s
      | none => s
    let bad := backs.any (fun x => match x.2 with
      | some (_, p, _) => !p.isEmpty
      | none => false)
    let s := s.dropOp o
    match o.ticket with
    | some t => s.complete t { status := if bad then 0x20 else 0, result := if bad then 0 else BitVec.ofNat 64 gs.length }
    | none => s

/-- A holder's result block is in (R497, R499, R504). -/
def State.opResult (s : State) (o : RemoteOp) (b : List Byte) : State :=
  let st : BitVec 8 := b.getD 0 0
  let slot := (b.getD 1 0).toNat
  match o.req.op with
  | 1 =>
    if st ≠ 0 then s.endOp o st
    else
      let o := { o with slot := some slot, req := { o.req with slot := slot }, phase := .write }
      if o.blocks.isEmpty then s.opBlocks { o with phase := .manifest } [0] else s.opBlocks o o.blocks
  | 2 =>
    if st ≠ 0 then s.failOp o st
    else
      let w : OwnImage := { pkg := o.pkg, ctx := o.ctx, slot := o.req.slot, ckptNo := o.req.ckptNo, reported := false }
      ({ s with vault := { s.vault with own := s.vault.own ++ [w] } }).endOp o o.status
  | 3 => s.endOp o st
  | 4 =>
    if st ≠ 0 then s.endOp o st
    else if o.opcode = 0x54 then
      (s.hostWrite o.address ((resultRecords b).take o.count).flatten).endOp o 0
    else s.restorePick o b
  | _ =>
    let s := s.dropOp o
    match (resultRecords b).head?, s.vault.own.find? (fun w : OwnImage => w.pkg == o.pkg && w.slot == o.req.slot && !w.reported) with
    | some r, some w =>
      if recIncomplete r && recCkpt r == w.ckptNo.toNat then
        let own := s.vault.own.map (fun x : OwnImage => if x = w then ({ x with reported := true } : OwnImage) else x)
        let number := ((s.bundle o.pkg).head?.map Fin.val).getD 0
        ({ s with vault := { s.vault with own := own } }).notice 0x0141 (number * 2 ^ 40 + w.slot * 2 ^ 32 + w.ckptNo.toNat)
      else s
    | _, _ => s

/-- A request of an operation is answered: once all it has out are in, it goes on. -/
def State.opGoesOn (s : State) (o : RemoteOp) (data : List Byte) : State :=
  if !o.outstanding.isEmpty then s.setOp o
  else match o.phase with
    | .ask =>
      let (o, s) := s.opSend { o with phase := .result } false o.vlink (vaultAddr 1 (o.vtag * 4096)) 4096 false []
      s.setOp o
    | .result => s.opResult o data
    | .write =>
      let n := (manifestLen o.image + 4095) / 4096
      s.opBlocks { o with phase := .manifest } ((List.range n).map (fun i => i * 4096))
    | .manifest => s.opAsk { o with req := { o.req with op := 2 } }
    | .readHead => s.restoreHead o
    | .readMan => s.restoreCheckAll o
    | .readAll => s.restoreEnd o

/-- Bytes of an image that came in for an operation. -/
def RemoteOp.takes (o : RemoteOp) (q : PnReq) (data : List Byte) (poison : Bool) : RemoteOp :=
  if o.phase == .readHead || o.phase == .readMan || o.phase == .readAll then
    let off := bitsOf q.addr.toNat 35 0
    { o with image := tabPaste o.image off data.length (natTab data.length (leValue data)),
             imagePoison := if poison then o.imagePoison ++ [off / 4096] else o.imagePoison }
  else o

/-- OWN_IMAGE_POLL: core C4 reads the STATUS of each image its contexts wrote at a holder whose bundle is up (R504). -/
def execOwnImagePoll (hub : Hub) (s : State) : Out :=
  .next (s.vault.own.foldl (fun (s : State) (w : OwnImage) =>
    match (s.bundle w.pkg).head? with
    | some l =>
      if linkHub l ≠ hub || w.reported then s
      else match s.freeTag l.val with
        | some tag =>
          let q : VaultReq := { op := 5, kind := 0, retain := 0, rank := 0, key := 0, ckptNo := w.ckptNo, frames := 0, slot := w.slot }
          s.beginOp { id := 0, phase := .ask, opcode := 1, ticket := none, ctx := w.ctx, pkg := w.pkg, prio := 0, vtag := tag,
                      vlink := l.val, req := q, slot := none, image := [], imagePoison := [], blocks := [], readers := [], status := 0,
                      address := 0, count := 0, allow := false, setSeed := false, outstanding := [] }
        | none => s
    | none => s) s)

/-! ### Answers of peers (R391, R403, R404, R513) -/

/-- A request out on a link, by its tag. -/
def State.req? (s : State) (l : LinkNo) (tag : BitVec 16) (write : Bool) : Option PnReq :=
  s.lnk.reqs.find? (fun q : PnReq => q.tag == tag && q.link == l.val && q.write == write)

/-- A request is no longer out. -/
def State.dropReq (s : State) (q : PnReq) : State :=
  { s with lnk := { s.lnk with reqs := s.lnk.reqs.filter (fun x => x ≠ q) } }

/-- A check value that does not match on a link: the request goes out once more, and a second failure is persistent
(R391, R523). -/
def State.checkAgain (s : State) (l : LinkNo) (q : PnReq) : State :=
  if q.again then (s.event (linkHub l) (evU 0x0043 2 15 l.val 5)).sendTest { hub := l.val / 8, kind := 15, index := l.val, sub := 0 } 3
  else
    let q' : PnReq := { q with again := true, since := s.tick }
    let s := s.event (linkHub l) (evU 0x0042 1 15 l.val 5)
    ({ s with lnk := { s.lnk with reqs := s.lnk.reqs.map (fun x => if x = q then q' else x) } }).sendMsg l q'.msg

/-- The channel a mover's request belongs to. -/
def moverOf (op : Nat) : Hub × Fin 64 := (Fin.ofNat 4 ((op - 2 ^ 32) / 64), Fin.ofNat 64 (op - 2 ^ 32))

/-- The bus error cause of a STATUS (Table 10-10). -/
def causeOf (status : Nat) : Nat := if status = 4 then 3 else if status = 3 then 4 else if status = 2 then 5 else 1

/-- A request ends with a STATUS other than OK: the channel halts, or the operation ends with TIER_FAULT. -/
def State.reqFails (s : State) (q : PnReq) (status : Nat) : State :=
  if 2 ^ 32 ≤ q.op then
    let (h, c) := moverOf q.op
    s.haltChan h c.val (causeOf status) q.write false
  else match s.op? q.op with
    | some o => s.failOp o 0x22
    | none => s

/-- A request's answer reaches what asked: the channel's burst goes on, or the operation. -/
def State.reqEnds (s : State) (q : PnReq) (data : List Byte) (poison checkFailed : Bool) : State :=
  if 2 ^ 32 ≤ q.op then
    let (h, c) := moverOf q.op
    if q.write then s
    else
      let x := s.chan h c.val
      if x.asked ≠ some q.tag then s
      else (s.setChan h c.val { x with got := x.got ++ [(data, poison)], asked := none }).passPort h c checkFailed
  else match s.op? q.op with
    | some o =>
      if checkFailed then s.failOp o 0x21
      else s.opGoesOn ({ o with outstanding := o.outstanding.erase q.tag }.takes q data poison) data
    | none => s

/-- PN_RD_DATA: the answer to a read; one that nothing waits for is discarded (R391, R513). -/
def execPnRdData (l : LinkNo) (m : PnReply) (s : State) : Out :=
  match s.req? l m.tag false with
  | none => .next s
  | some q =>
    if m.status ≠ 0 then .next ((s.dropReq q).reqFails q m.status.toNat)
    else
      let bad := m.block && !m.poison && crc32c m.data ≠ m.bcrc
      if bad && !q.again then .next (s.checkAgain l q)
      else
        let s := if bad then s.checkAgain l q else s
        .next ((s.dropReq q).reqEnds q m.data m.poison bad)

/-- PN_WR_ACK: the answer to a write; the check value as committed confirms the block (R64, R403, R513). -/
def execPnWrAck (l : LinkNo) (m : PnReply) (s : State) : Out :=
  match s.req? l m.tag true with
  | none => .next s
  | some q =>
    if m.status ≠ 0 then .next ((s.dropReq q).reqFails q m.status.toNat)
    else
      let bad := !q.poison && bitsOf m.arg.toNat 31 0 ≠ (crc32c q.data).toNat
      if bad && !q.again then .next (s.checkAgain l q)
      else
        let s := if bad then s.checkAgain l q else s
        .next ((s.dropReq q).reqEnds q [] q.poison bad)

/-! ### Penumbra lost -/

/-- Operations at a peer that is out end with TIER_FAULT (R156). -/
def State.endOps (s : State) (u : TierUnit) : State :=
  match u with
  | .penumbra l =>
    (s.vault.ops.filter (fun o : RemoteOp => o.pkg == s.linkPkg l)).foldl (fun (s : State) (o : RemoteOp) => s.failOp o 0x22) s
  | _ => s

/-- UNIT_OUT (R75, R148, R156). -/
def execUnitOut (u : TierUnit) (s : State) : Out := .next ((s.unitOut u).endOps u)

/-- PENUMBRA_OUT: no link of the peer's bundle has been up for 100 ms (R156). -/
def execPenumbraOut (link : LinkNo) (s : State) : Out :=
  match s.linkPeer link with
  | some p => match p.downSince with
    | some t => .next (if t + 100 * msTicks ≤ s.tick then (s.unitOut (.penumbra link)).endOps (.penumbra link) else s)
    | none => .next s
  | none => .next s

end Sys2Proof.Machine
end

