-- ==== Sys2Proof/Machine/Codec.lean ====
section
/-!
DEFINITION. Codec lanes at work, and the glints of the compute die (R195 to R209, R225 to R227).
-/
namespace Sys2Proof.Machine

/-! ### Lanes (R201 to R203) -/

/-- A lane takes a job, or stands idle. -/
def State.setLane (s : State) (h : Hub) (l : Fin 18) (j : Option LaneJob) : State :=
  let lanes := Vector.set s.codec.lanes h.val (Vector.set s.codec.lanes[h] l.val { s.codec.lanes[h][l] with job := j })
  { s with codec := { s.codec with lanes := lanes } }

/-- Whether a lane is in service: neither retired nor on test (R530). -/
def State.laneServes (s : State) (h : Hub) (l : Fin 18) : Bool :=
  !s.codec.lanes[h][l].retired && !s.rel.hubs[h].testing.any (fun t => t.unit.kind == 3 && t.unit.index == l.val)

/-- The job a hub's free lane takes next: of the highest mover priority; among equals the requests take turns, in the
order of their first job (R201). A larger number is a higher priority (R110). -/
def State.nextJob (s : State) (h : Hub) : Option LaneJob :=
  let js := s.codec.jobs.filter (fun j => j.hub == h)
  let top := js.foldl (fun a j => max a j.prio) 0
  let best := js.filter (fun j => j.prio == top)
  let after := best.filter (fun j => decide (s.codec.turn[h] < j.request))
  let pool := if after.isEmpty then best else after
  let least := pool.foldl (fun (a : Option Nat) j => match a with
    | none => some j.request
    | some r => some (min r j.request)) none
  pool.find? (fun j => some j.request == least)

/-- LANE_JOB: a lane with no job takes the next one (R201). -/
def execLaneJob (h : Hub) (l : Fin 18) (s : State) : Out :=
  if s.stalled then .next s else
  if s.start.level != Level.ring || !s.laneServes h l || s.codec.lanes[h][l].job.isSome then .next s
  else match s.nextJob h with
    | none => .next s
    | some j =>
      let s := { s with codec := { s.codec with jobs := s.codec.jobs.erase j, turn := Vector.set s.codec.turn h.val j.request } }
      .next (s.setLane h l (some j))

/-- Whether the source blocks of a stripe have come in, for a fill that reads a source (R202, R316). -/
def State.stripeStaged (s : State) (k : HKey) (stripe : Nat) : Bool :=
  match s.handle? k with
  | some h => match h.fill with
    | some f => f.source = 0 || decide (min (blockCount h.shape.size) ((stripe + 1) * 512) ≤ f.blocksIn)
    | none => true
  | none => true

/-- A verifier that fails twice: the event, and the lane goes to a targeted test (R196, R227). -/
def State.verifierFailed (s : State) (h : Hub) (l : Fin 18) (narrow : Bool) : State :=
  (s.event h (evU 0x004A 2 3 l.val narrow.toNat)).sendTest { hub := h.val, kind := 3, index := l.val, sub := 0 } 3

/-- COURSE_COMPRESS: a lane finishes the compression of its stripe. With one verifier failure it has encoded again; with
two, a narrow stripe is stored FULL under cause 4 and any other block is written rough, and the lane goes to test; the
request is not affected (R195, R196, R202, R227). -/
def execCourseCompress (h : Hub) (l : Fin 18) (verifierFails : Nat) (s : State) : Out :=
  if s.stalled then .next s else
  match s.codec.lanes[h][l].job with
  | some j =>
    if !j.compress || !s.stripeStaged j.key j.stripe then .next s
    else
      let s := s.setLane h l none
      let narrow := match s.handle? j.key with
        | some x => x.fate == Fate.narrow || (x.mig.map Mig.fate) == some Fate.narrow
        | none => false
      if verifierFails < 2 then .next s
      else
        let s := if narrow then
            { s with codec := { s.codec with unverified := s.codec.unverified ++ [(j.key, j.stripe)] } }
          else s
        .next (s.verifierFailed h l narrow)
  | none => .next s

/-- A request to the lanes. -/
def State.laneRequest? (s : State) (id : Nat) : Option LaneRequest := s.codec.requests.find? (fun q => q.id == id)

/-- A restore's lane work is over: the handle has one reader fewer, and the bytes are delivered, or the restore ends with
CHECK_FAILED (R57, R197). -/
def State.endLaneRequest (s : State) (q : LaneRequest) (failed : Bool) : State :=
  let s := s.dropJobs (fun j => j.restoring && j.request == q.id)
  let s := { s with codec := { s.codec with requests := s.codec.requests.filter (fun x => x.id ≠ q.id) } }
  match s.handle? q.key with
  | some h =>
    let h := { h with readers := h.readers - 1 }
    let s := s.setHandle h
    if failed then
      s.restoreEnded q.key q.restore [] { status := 0x21, flags := h.marks.bits
                                          xbytes := restoreBytes none 0 0 0 0 (q.retries + 1) }
    else s.deliverRestore h q.restore q.retries
  | none => s

/-- BLOCK_EXPAND: a lane finishes its job. Blocks that fail their check are read again and expanded on another lane; a
second failure ends the request with CHECK_FAILED, or stops the migration (R65, R197). -/
def execBlockExpand (h : Hub) (l : Fin 18) (firstTryOk secondTryOk : Bool) (s : State) : Out :=
  if s.stalled then .next s else
  match s.codec.lanes[h][l].job with
  | some j =>
    if j.compress then .next s
    else
      let s := s.setLane h l none
      let failed := !firstTryOk && !secondTryOk
      if j.restoring then
        match s.laneRequest? j.request with
        | some q =>
          let q := if firstTryOk then q else { q with retries := q.retries + 1 }
          let qs := updWhere (fun x : LaneRequest => x.id == q.id) (fun _ => q) s.codec.requests
          let s := { s with codec := { s.codec with requests := qs } }
          if failed then .next (s.endLaneRequest { q with retries := q.retries - 1 } true)
          else if s.laneJobs.any (fun x => x.restoring && x.request == q.id) then .next s
          else .next (s.endLaneRequest q false)
        | none => .next s
      else if failed then
        match s.handle? j.key with
        | some x => match x.mig with
          | some m => .next (((s.event x.key.entry (ev 0x0071 1 x.word)).stopMig x m 0x21).pumpMigs)
          | none => .next s
        | none => .next s
      else .next s
  | none => .next s

/-- LANE_RETIRED: a retired lane's job starts again on another lane (R203, R534). -/
def execLaneRetired (h : Hub) (l : Fin 18) (s : State) : Out := .next (s.retireLane h l)

/-! ### Glints (R204 to R209) -/

/-- A glint with nothing queued and an empty cache. -/
def Glint.idle : Glint := { queue := [], cache := none, replies := [], err := none }

/-- A glint of the compute die. -/
def State.glint (s : State) (g : Fin 256) : Glint := tabGet Glint.idle s.codec.glints g.val

/-- A glint replaced. -/
def State.setGlint (s : State) (g : Fin 256) (x : Glint) : State :=
  { s with codec := { s.codec with glints := tabPut Glint.idle s.codec.glints g.val x } }

/-- GLINT_REQUEST: a glint takes up to 8 requests, which it answers in order (R205); with 8 queued REQ_READY is low. -/
def execGlintRequest (g : Fin 256) (r : GlintRequest) (s : State) : Out :=
  let x := s.glint g
  if 8 ≤ x.queue.length then .next s
  else
    let q : GlintReq := { base := r.base, offset := r.offset, len := r.len, tag := r.tag }
    .next (s.setGlint g { x with queue := x.queue ++ [q] })

/-- GLINT_RESET: every request is cancelled and the cache is emptied (Table 5-13). -/
def execGlintReset (g : Fin 256) (s : State) : Out := .next (s.setGlint g Glint.idle)

/-- The stream header's check, order 1 of Table 5-11. -/
def streamHeaderOk (base : Nat) (h : Nat) (crc : Nat) : Bool :=
  base % 64 == 0 && bitsOf h 31 0 == 0x4C485341 && bitsOf h 39 32 == 1 && bitsOf h 47 40 == 0 && bitsOf h 57 56 != 3
    && bitsOf h 63 58 == 0 && bitsOf h 175 168 == 0 && bitsOf h 199 196 == 0 && bitsOf h 207 201 == 0
    && bitsOf h 479 248 == 0 && bitsOf h 511 480 == crc

/-- OUT_STATUS values by severity, the worst last (R208). -/
def glintRank (st : Nat) : Nat :=
  if st = 0 then 0 else if st = 1 then 1 else if st = 2 then 2 else if st = 5 then 3 else 4

/-- The worse of two statuses (R208). -/
def glintWorse (a b : Nat) : Nat := if glintRank a < glintRank b then b else a

/-- Object block `ob` of a stream as a glint expands it: orders 3 to 10 of Table 5-11. -/
def State.glintBlock (s : State) (base hdr ob : Nat) : Expanded :=
  let c := ob / 512 - bitsOf hdr 127 96 / 512
  let entry := s.hostNum (base + 64 + 8 * c) 8
  let off := bitsOf entry 39 0
  let len := bitsOf (s.hostNum (base + off) 64) 159 128
  if bitsOf entry 63 40 ≠ 0 || off % 64 ≠ 0 || bitsOf hdr 247 208 < off + max 64 len then .format
  else expandFromCourse (bitsOf hdr 57 56) (ob / 512) ob (s.hostRead (base + off) (max 64 len))

/-- A reply under way: the bytes with their marks so far, the status, and whether a block has failed. -/
structure GlintWalk where
  bytes : List Byte
  poison : List Bool
  status : Nat
  bad : Bool
  state : State

/-- One block of a request: its bytes from `lo` to `hi`. A failed block and all that follow it carry OUT_POISON; bytes
that no check vouches for and no expansion gave are free values (R207, R208). -/
def GlintWalk.block (w : GlintWalk) (base hdr ob lo hi : Nat) : GlintWalk :=
  let n := hi - lo
  match w.state.glintBlock base hdr ob with
  | .bytes raw p =>
    { w with bytes := w.bytes ++ (raw.drop lo).take n, poison := w.poison ++ List.replicate n (w.bad || p),
             status := glintWorse w.status p.toNat }
  | e =>
    let (v, s) := w.state.fresh (8 * n)
    { bytes := w.bytes ++ leBytes n v.toNat, poison := w.poison ++ List.replicate n true,
      status := glintWorse w.status (if e = .check then 2 else 3), bad := true, state := s }

/-- A request answered without one expanded block: every byte poisoned, with a status. -/
def State.glintFail (s : State) (r : GlintReq) (st : Nat) : GlintReply × State :=
  let n := r.len.toNat
  let (v, s) := s.fresh (8 * n)
  ({ tag := r.tag, bytes := leBytes n v.toNat, poison := List.replicate n true, status := BitVec.ofNat 3 st }, s)

/-- A request answered from the stream in host memory (R200, R206 to R209). -/
def State.glintAnswer (s : State) (r : GlintReq) (memErr : Bool) : GlintReply × State :=
  let base := r.base.toNat
  let hdr := s.hostNum base 64
  let crc := (crc32c (s.hostRead base 60 ++ [0#8, 0#8, 0#8, 0#8])).toNat
  let off := r.offset.toNat
  let len := r.len.toNat
  if memErr then s.glintFail r 5
  else if !streamHeaderOk base hdr crc then s.glintFail r 3
  else if bitsOf hdr 167 128 + 1 < off + len then
    ({ tag := r.tag, bytes := [], poison := [], status := 4 }, s)
  else
    let b0 := off / 4096
    let first := bitsOf hdr 127 96
    let w0 : GlintWalk := { bytes := [], poison := [], status := 0, bad := false, state := s }
    let w := (List.range ((off + len + 4095) / 4096 - b0)).foldl (fun (w : GlintWalk) i =>
      let b := b0 + i
      w.block base hdr (first + b) (max off (b * 4096) - b * 4096) (min (off + len) (b * 4096 + 4096) - b * 4096)) w0
    ({ tag := r.tag, bytes := w.bytes, poison := w.poison, status := BitVec.ofNat 3 w.status }, w.state)

/-- GLINT_MEM_DATA: the data a glint read for its oldest request comes back, is checked in the order of Table 5-11 and
answered; GLINT_ERR pulses for statuses 2, 3 and 5 (R200, R205 to R209). -/
def execGlintMemData (g : Fin 256) (memErr : Bool) (s : State) : Out :=
  let x := s.glint g
  match x.queue with
  | r :: rest =>
    let (a, s) := s.glintAnswer r memErr
    let id := BitVec.ofNat 32 (s.hostNum (r.base.toNat + 8) 4)
    let crc := BitVec.ofNat 32 (s.hostNum (r.base.toNat + 60) 4)
    let bad := a.status == 2 || a.status == 3 || a.status == 5
    let cache := if a.status == 3 || a.status == 5 then x.cache else some (r.base, id, crc)
    .next (s.setGlint g { queue := rest, cache := cache, replies := x.replies ++ [a], err := if bad then some a.status else none })
  | [] => .next s

end Sys2Proof.Machine
end

