-- ==== Sys2Proof/Machine/Collectives.lean ====
section
/-!
DEFINITION. The commands of chapter 12: groups, their formation and loss, the collective commands, their messages, and
the seal (R418 to R457).
-/
namespace Sys2Proof.Machine

/-! ### Groups (R418 to R424) -/

/-- The group admin operands (Table 12-3). -/
def groupSpec (used : List (Nat × Nat)) : DescSpec :=
  { job := false, admin := true, used := (67, 64) :: used }

/-- Whether a member table breaks R419. -/
def tableBad (d1 d2 split : Nat) (members : List (BitVec 64)) : Bool :=
  d1 < 2 || d2 = 0 || 34 < d1 + d2 || (d2 = 1 && split ≠ 65536) || 65536 < split
    || members.any (fun p => p == 0) || members.dedup.length ≠ members.length || !members.contains Config.packageId

/-- The formation records that came before the group, by sender. -/
def State.takeForms (s : State) (g : Group) : State :=
  let mine (x : EarlyForm) : Bool := x.slot == g.slot && (g.rankOf? x.pkg).any (fun r => decide (r ∈ g.linePeers))
  let fs := s.forms.filter mine
  let rank (x : EarlyForm) : Nat := (g.rankOf? x.pkg).getD 0
  let r1 := (fs.filter (fun x : EarlyForm => !x.round2)).map (fun x => ({ x.record with rank := rank x } : FormRecord))
  let r2 := (fs.filter EarlyForm.round2).map (fun x => (rank x, x.record.minor))
  ({ s with forms := s.forms.filter (fun x => !mine x) }).setGroup { g with round1 := r1, round2 := r2 }

/-- What R313 checks of GROUP_CREATE. -/
def groupCreateSpec (d : Desc) : DescSpec :=
  { groupSpec [(91, 80), (111, 96), (191, 128)] with addrs := [(d.f 191 128, 1)] }

/-- GROUP_CREATE: the member table is checked and formation begins (R418, R419, R421). -/
def execGroupCreate (d : Desc) (s : State) : Out :=
  .next (s.withDesc d (groupCreateSpec d) (fun t s =>
    let a := d.f 191 128
    let d1 := s.hostNum (a + 8) 2
    let d2 := s.hostNum (a + 10) 2
    let n := d1 * d2
    let small := decide (d1 + d2 ≤ 34)
    let members := if small then (List.range n).map (fun i => BitVec.ofNat 64 (s.hostNum (a + 64 + 8 * i) 8)) else []
    let split := s.hostNum (a + 12) 4
    if (s.ctx? (d.f 91 80)).isNone then s.complete t { status := 0x51 }
    else if tableBad d1 d2 split members then s.complete t { status := 0x03 }
    else if (s.group? (d.f 67 64)).isSome then s.complete t { status := 0x75 }
    else
      let g : Group :=
        { slot := d.f 67 64, state := .forming, ctx := d.f 91 80, ticket := some t, since := s.tick
          timeoutMs := if d.f 111 96 = 0 then 10000 else d.f 111 96, key := BitVec.ofNat 64 (s.hostNum a 8), d1 := d1, d2 := d2
          split := split, seedLo := BitVec.ofNat 64 (s.hostNum (a + 16) 8), seedHi := BitVec.ofNat 64 (s.hostNum (a + 24) 8)
          members := members, rank := members.findIdx (fun p => p == Config.packageId)
          digest := digestRange (s.hostSlice a (64 + 8 * n)) 0 (64 + 8 * n), minor := 0, round1 := [], round2 := [], sent1 := []
          sent2 := [], seen := [], lastStarted := 0, colls := [], early := [], openStep := none, sealedSteps := [], pend := []
          aborted := [] }
      (({ s with groups := s.groups ++ [g] }).takeForms g).pumpForm g.slot))

/-- A group is destroyed: what runs on it ends with ABORTED, its pending values are discarded and its slot is free
(R423). -/
def State.destroyGroup (s : State) (g : Group) : State :=
  let s := g.colls.foldl (fun (s : State) (c : Coll) => s.failColl g.slot c 0x25) s
  let s := match g.ticket with
    | some t => s.complete t { status := 0x25 }
    | none => s
  { s with groups := s.groups.filter (fun x : Group => x.slot ≠ g.slot) }

/-- GROUP_DESTROY (R423). -/
def execGroupDestroy (d : Desc) (s : State) : Out :=
  .next (s.withDesc d (groupSpec []) (fun t s => match s.group? (d.f 67 64) with
    | none => s.complete t { status := 0x74 }
    | some g =>
      let (v, s) := (s.destroyGroup g).fresh 64
      s.complete t { status := 0, result := v }))

/-- A group state's number. -/
def GState.code : GState → Nat
  | .forming => 1 | .ready => 2 | .broken => 3

/-- The record of a group slot (R423). -/
def State.groupRecord (s : State) (slot : Nat) : List Byte :=
  match s.group? slot with
  | none => List.replicate 64 0
  | some g =>
    let tensors := (g.pend.filter (fun p : PendUpdate => p.values.any (fun v : Pend => some v.key == p.w))).length
    [BitVec.ofNat 8 g.state.code, BitVec.ofNat 8 g.d1, BitVec.ofNat 8 g.d2, BitVec.ofNat 8 g.minor] ++ leBytes 2 g.rank
      ++ leBytes 2 g.ctx ++ leBytes 8 g.key.toNat ++ leBytes 4 g.lastStarted.toNat
      ++ leBytes 1 (g.colls.filter Coll.started).length ++ leBytes 3 0 ++ leBytes 4 (g.openStep.getD 0).toNat
      ++ leBytes 4 tensors ++ List.replicate 32 0

/-- What R313 checks of GROUP_QUERY. -/
def groupQuerySpec : DescSpec :=
  { groupSpec [] with needX := true }

/-- GROUP_QUERY (R423). -/
def execGroupQuery (d : Desc) (s : State) : Out :=
  .next (s.withDesc d groupQuerySpec (fun t s =>
    let (v, s) := s.fresh 64
    s.complete t { status := 0, result := v, xbytes := s.groupRecord (d.f 67 64) }))

/-- FORMATION_TIMEOUT (Table 12-2). -/
def execFormationTimeout (group : Fin 16) (s : State) : Out :=
  match s.group? group.val with
  | some g =>
    if g.state != .forming || s.tick < g.since + g.timeoutMs * msTicks then .next s
    else .next (s.endForming g (if g.linePeers.any (fun r => (s.bundle (g.pkg r)).isEmpty) then 0x71 else 0x73))
  | none => .next s

/-- Whether a member sees a line peer lost: no link of its bundle has been up for 100 ms, or its HELLO names another epoch
than it formed with, or another major (R424). -/
def State.peerLost (s : State) (g : Group) (r : Nat) : Bool :=
  match s.peer? (g.pkg r) with
  | none => true
  | some p =>
    let gone := match p.downSince with
      | some t => decide (t + 100 * msTicks ≤ s.tick)
      | none => false
    let formed := g.round1.find? (fun x : FormRecord => x.rank == r)
    let other := (List.finRange 32).any (fun l => match s.lnk.links[l].peer with
      | some h => h.pkg == g.pkg r && h.major ≠ 1
      | none => false)
    gone || formed.any (fun x : FormRecord => x.epoch ≠ p.epoch) || other

/-- GROUP_BROKEN: a READY group that has lost a line peer (R424). -/
def execGroupBroken (group : Fin 16) (s : State) : Out :=
  match s.group? group.val with
  | some g => .next (if g.state == .ready && g.linePeers.any (s.peerLost g) then s.breakGroup g.slot else s)
  | none => .next s

/-! ### The commands (R425, R426) -/

/-- The formats and sizes a collective takes (R425). -/
def collFormatOk (c : Coll) : Bool :=
  let sum := c.srcFmt ∈ [1, 2, 3, 4, 5]
  let whole := c.srcFmt ∈ [1, 2, 3, 4, 5, 0x0C, 0x0D]
  (match c.opcode with
    | 0x40 | 0x41 => sum && c.outFmt ∈ [1, 2, 3]
    | 0x44 => sum && c.outFmt ∈ [1, 2]
    | 0x42 => whole && c.outFmt == c.srcFmt
    | _ => true)
  && (c.opcode = 0x43 || c.opcode = 0x45 || c.size % (elemBits c.srcFmt / 8) == 0)

/-- The group a collective names, or the status it ends with (R418, R423, R425, R426). -/
def State.collGroup (s : State) (slot ctx : Nat) (seq : BitVec 32) : Except (BitVec 8) Group :=
  match s.group? slot with
  | none => .error 0x74
  | some g =>
    if g.ctx ≠ ctx then .error 0x74
    else if g.state == .broken then .error 0x77
    else if seq ∈ g.seen then .error 0x7A
    else .ok g

/-- The descriptor as a collective, before its sources are read. -/
def collOf (d : Desc) (opcode : Nat) (t : Ticket) (ctx : Nat) : Coll :=
  let c : Coll :=
    { seq := BitVec.ofNat 32 (d.f 255 224), opcode := opcode, ticket := t, ctx := ctx, prio := d.prio.toNat, ops := d.ops
      payload := d.payload, started := false, chk := 0, handles := [], reads := [], src := [], srcPoison := [], bufs := []
      partials := [], totals := [], results := [], resultSlabs := [], resultPoison := [], flags := 0, table := [], landed := []
      received := 0, doneRanks := [], seals := [], since := 0 }
  { c with chk := c.check (if opcode = 0x45 then 0 else c.size - 1) (d.f 319 288) }

/-- The slabs of a source that poisoned blocks reach. -/
def poisonSlabs (eb : Nat) (slabs : Nat) (blocks : List Nat) : List Nat :=
  (List.range slabs).filter (fun j => blocks.any (fun b => decide (b * 4096 < (j + 1) * 1024 * eb ∧ j * 1024 * eb < b * 4096 + 4096)))

/-- A collective takes the source handle it names (R425, R456). -/
def State.sourceHandle (s : State) (c : Coll) : Except (BitVec 8) Coll :=
  if c.f 64 64 = 0 || c.opcode = 0x43 || c.opcode = 0x45 then .ok c
  else match s.named c.ctx (c.f 383 320) with
    | .error e => .error e
    | .ok h =>
      if h.state != .resident then .error 0x14
      else if h.shape.size < c.size then .error 0x13
      else if !(List.range (stripeCount h.shape.size)).all (s.stripeReadable h) then .error 0x22
      else .ok { c with src := [s.objectRange h 0 c.size], reads := [h.key]
                        srcPoison := poisonSlabs (elemBits c.srcFmt / 8) c.slabs (s.objectPoison h) }

/-- A collective joins its group, and starts when it may; one that was aborted before it came ends so (R426, R427). -/
def State.joinColl (s : State) (g : Group) (c : Coll) : State :=
  let s := c.reads.foldl (fun (s : State) k => match s.handle? k with
    | some h => s.setHandle { h with readers := h.readers + 1 }
    | none => s) s
  let open_ := if c.opcode = 0x44 then some c.step else g.openStep
  let s := s.setGroup { g with colls := g.colls ++ [c], seen := g.seen ++ [c.seq], openStep := open_ }
  match g.aborted.find? (fun a => a.1 == c.seq) with
  | some a => (s.failColl g.slot c a.2).pumpColls g.slot
  | none => s.pumpColls g.slot

/-- A collective other than REDUCE_UPDATE and PERMUTE, past the checks of R313. -/
def State.plainColl (s : State) (d : Desc) (t : Ticket) (opcode : Nat) : State :=
  let c := collOf d opcode t (s.descCtx d)
  if !collFormatOk c then s.complete t { status := 0x03 }
  else match s.sourceHandle c with
    | .error e => s.complete t { status := e }
    | .ok c => match s.collGroup (c.f 131 128) c.ctx c.seq with
      | .error e => s.complete t { status := e }
      | .ok g => s.joinColl g c

/-- What R313 checks of a reduction or a gather (Table 12-4). -/
def slabSpec (d : Desc) (scale : Bool) : DescSpec :=
  let sl := toSigned 8 (d.f 159 152)
  { job := true, admin := false, moves := true
    used := [(447, 320), (287, 224), (215, if scale then 152 else 160), (131, 128), (64, 64)]
    range := !scale || (decide (-64 ≤ sl) && decide (sl ≤ 63))
    addrs := (d.f 447 384, 64) :: (if d.f 64 64 = 1 then [] else [(d.f 383 320, 64)]) }

/-- ALL_REDUCE (R431). -/
def execAllReduce (d : Desc) (s : State) : Out :=
  .next (s.withDesc d (slabSpec d true) (fun t s => s.plainColl d t 0x40))

/-- REDUCE_SCATTER (R431). -/
def execReduceScatter (d : Desc) (s : State) : Out :=
  .next (s.withDesc d (slabSpec d true) (fun t s => s.plainColl d t 0x41))

/-- ALL_GATHER (R430). -/
def execAllGather (d : Desc) (s : State) : Out :=
  .next (s.withDesc d (slabSpec d false) (fun t s => s.plainColl d t 0x42))

/-- The handles a payload names from a byte on, null for none; the first error ends the command. -/
def State.payloadHandles (s : State) (ctx : Nat) (words : List Nat) : Except (BitVec 8) (List (Option Handle)) :=
  words.foldl (fun a w => match a with
    | .error e => .error e
    | .ok l => if w = 0 then .ok (l ++ [none]) else match s.named ctx w with
      | .error e => .error e
      | .ok h => .ok (l ++ [some h])) (.ok [])

/-- Why the handles of a REDUCE_UPDATE do not suit it (R439). -/
def State.updateMisfit (s : State) (c : Coll) (hs : List (Option Handle)) : Option (BitVec 8) :=
  let l := hs.filterMap id
  let adam := c.p 48 1 == 2
  let shape := hs.map Option.isSome
  if l.any (fun h : Handle => h.fate != .stash || !h.perms.mutable) then some 0x18
  else if shape ≠ [true, true, adam] || l.any (fun h : Handle => h.shape.format ≠ 2 || h.shape.size ≠ 2 * c.elements) then some 0x03
  else if l.any (fun h : Handle => s.hasPending h.key || (h.state != .resident && h.state != .migrating))
      || (l.map Handle.key).dedup.length ≠ l.length then some 0x14
  else if l.any (fun h : Handle => !(List.range (stripeCount h.shape.size)).all (s.stripeReadable h)) then some 0x22
  else none

/-- REDUCE_UPDATE past the checks of R313, in the order of R425, R446 and R439. -/
def State.reduceUpdate (s : State) (d : Desc) (t : Ticket) : State :=
  let c := collOf d 0x44 t (s.descCtx d)
  if !collFormatOk c then s.complete t { status := 0x03 }
  else match s.sourceHandle c with
    | .error e => s.complete t { status := e }
    | .ok c => match s.collGroup (c.f 131 128) c.ctx c.seq with
      | .error e => s.complete t { status := e }
      | .ok g =>
        let refuse (e : BitVec 8) : State :=
          (s.setGroup { g with pend := g.pend ++ [failedUpdate c.seq c.step] }).complete t { status := e }
        if g.openStep.any (fun x => x ≠ c.step) || c.step ∈ g.sealedSteps then refuse 0x79
        else match s.payloadHandles c.ctx [c.p 0 8, c.p 8 8, c.p 16 8] with
          | .error e => refuse e
          | .ok hs => match s.updateMisfit c hs with
            | some e => refuse e
            | none =>
              let l := hs.filterMap id
              if l.any (fun h : Handle => h.mig.isSome || s.permuting h.key) then s
              else
                let bad := l.flatMap (fun h : Handle => poisonSlabs 2 c.slabs (s.objectPoison h))
                s.joinColl g { c with handles := hs.map (fun h => h.map Handle.key), reads := c.reads ++ l.map Handle.key
                                      src := c.src ++ l.map Handle.content, resultPoison := bad.dedup }

/-- What R313 checks of REDUCE_UPDATE. -/
def reduceUpdateSpec (d : Desc) : DescSpec :=
  { job := true, admin := false, ext := true, moves := true, used := [(447, 224), (215, 160), (131, 128), (64, 64)]
    payload := [(0, 49), (64, 36)], range := d.p 48 1 == 1 || d.p 48 1 == 2
    addrs := (d.f 447 384, 64) :: (d.p 24 8, 1) :: (d.p 32 8, 1) :: (d.p 40 8, 1)
      :: (if d.f 64 64 = 1 then [] else [(d.f 383 320, 64)]) }

/-- REDUCE_UPDATE (R441, Table 12-8). -/
def execReduceUpdate (d : Desc) (s : State) : Out :=
  .next (s.withDesc d (reduceUpdateSpec d) (fun t s => s.reduceUpdate d t))

/-- PERMUTE past the checks of R313. -/
def State.permute (s : State) (d : Desc) (t : Ticket) : State :=
  let c := collOf d 0x43 t (s.descCtx d)
  match s.collGroup (c.f 131 128) c.ctx c.seq with
  | .error e => s.complete t { status := e }
  | .ok g => match s.payloadHandles c.ctx ((List.range 8).map (fun i => c.p (8 * i) 8)) with
    | .error e => s.complete t { status := e }
    | .ok hs =>
      let l := hs.filterMap id
      if l.any (fun h : Handle => h.fate != .stash || !h.perms.mutable) then s.complete t { status := 0x18 }
      else if l.any (fun h : Handle => h.state != .resident && h.state != .migrating) then s.complete t { status := 0x14 }
      else if l.any (fun h : Handle => !(List.range (stripeCount h.shape.size)).all (s.stripeReadable h)) then
        s.complete t { status := 0x22 }
      else if l.any (fun h : Handle => h.mig.isSome || 0 < h.readers || s.hasPending h.key || s.permuting h.key) then s
      else s.joinColl g { c with handles := hs.map (fun h => h.map Handle.key), reads := l.map Handle.key
                                 src := hs.map (fun h => (h.map Handle.content).getD []) }

/-- What R313 checks of PERMUTE. -/
def permuteSpec (d : Desc) : DescSpec :=
  { job := true, admin := false, ext := true, moves := true
    used := [(383, 320), (255, 224), (195, 160), (131, 128)], payload := [(0, 64)]
    addrs := [(d.f 383 320, 64)] }

/-- PERMUTE (R451). -/
def execPermute (d : Desc) (s : State) : Out :=
  .next (s.withDesc d (permuteSpec d) (fun t s => s.permute d t))

/-- What R313 checks of UPDATE_SEAL. -/
def updateSealSpec (d : Desc) : DescSpec :=
  { job := true, admin := false, moves := true
    used := [(319, 288), (255, 224), (175, 160), (151, 136), (131, 128)], range := d.f 151 136 ≠ 0 }

/-- UPDATE_SEAL (R447). -/
def execUpdateSeal (d : Desc) (s : State) : Out :=
  .next (s.withDesc d (updateSealSpec d) (fun t s => s.plainColl d t 0x45))

/-! ### Messages (R421, R427, R438) -/

/-- A message whose KIND does not fit its TYPE is refused; the refusal an event names has no code for it (R390, R438). -/
def State.refuseKind (s : State) (l : LinkNo) (typ : Nat) : State :=
  let (v, s) := s.fresh 8
  s.refuse l typ v.toNat

/-- The rank that a collective message on a link comes from, where its group is in use and the sender is a line peer. -/
def State.sender (s : State) (l : LinkNo) (m : CollMsg) : Option (Group × Nat) :=
  match s.group? m.group.val, s.bundlePeer l with
  | some g, some pkg => (g.rankOf? pkg).bind (fun r => if r ∈ g.linePeers then some (g, r) else none)
  | _, _ => none

/-- A message of a collective is taken, and what may start then starts. -/
def State.takeColl (s : State) (l : LinkNo) (m : CollMsg) (record : Option SealRecord) : State :=
  match s.sender l m with
  | some (g, r) =>
    if g.state == .broken then s
    else (s.collTake g.slot { rank := r, msg := m, record := record }).pumpColls g.slot
  | none => s

/-- COLL_DATA (R438). -/
def execCollData (l : LinkNo) (m : CollMsg) (s : State) : Out :=
  if !s.linkIs l [.up, .reduced] then .next s
  else if 5 < m.kind.toNat then .next (s.refuseKind l 0x10)
  else .next (s.takeColl l m none)

/-- COLL_SEAL: a seal record, or a permute-done record (R447, R454). -/
def execCollSeal (l : LinkNo) (m : CollMsg) (r : SealRecord) (s : State) : Out :=
  if !s.linkIs l [.up, .reduced] then .next s
  else if m.kind ≠ 6 && m.kind ≠ 7 then .next (s.refuseKind l 0x12)
  else .next (s.takeColl l m (some r))

/-- COLL_FORM: a formation record of a line peer; one for a slot that is not forming waits for GROUP_CREATE (R421). -/
def execCollForm (l : LinkNo) (m : CollMsg) (r : FormRecord) (s : State) : Out :=
  if !s.linkIs l [.up, .reduced] then .next s
  else if m.kind ≠ 8 && m.kind ≠ 9 then .next (s.refuseKind l 0x11)
  else match s.bundlePeer l with
    | none => .next s
    | some pkg =>
      let round2 := m.kind == 9
      let keep : State :=
        let old := s.forms.filter (fun x : EarlyForm => !(x.slot == m.group.val && x.pkg == pkg && x.round2 == round2))
        { s with forms := old ++ [{ slot := m.group.val, pkg := pkg, round2 := round2, record := r }] }
      match s.group? m.group.val with
      | none => .next keep
      | some g =>
        if g.state != .forming then .next keep
        else match g.rankOf? pkg with
          | none => .next s
          | some k =>
            if k ∉ g.linePeers then .next s
            else
              let g := if round2 then { g with round2 := g.round2.filter (fun x => x.1 ≠ k) ++ [(k, r.minor)] }
                else { g with round1 := g.round1.filter (fun x : FormRecord => x.rank ≠ k) ++ [{ r with rank := k }] }
              .next ((s.setGroup g).pumpForm g.slot)

/-- COLL_ABORT: the collective ends with the reason, or the group breaks, and the abort goes on once (R424, R427). -/
def execCollAbort (l : LinkNo) (m : CollMsg) (s : State) : Out :=
  if !s.linkIs l [.up, .reduced] then .next s
  else if m.kind ≠ 10 then .next (s.refuseKind l 0x13)
  else match s.sender l m with
    | some (g, _) =>
      if m.reason = 0x77 then .next (s.breakGroup g.slot)
      else .next ((s.abortColl g.slot m.seq m.reason).pumpColls g.slot)
    | none => .next s

/-! ### The seal (R448 to R450) -/

/-- The pending values of a step become the values of their handles (R448). -/
def State.commitStep (s : State) (g : Group) (step : BitVec 32) : State :=
  (g.pend.filter (fun p : PendUpdate => p.step == step)).foldl (fun (s : State) p =>
    p.values.foldl (fun (s : State) (v : Pend) => match s.handle? v.key with
      | some h => s.setHandle { h with homes := v.homes, content := v.bytes, updates := h.updates + 1
                                       marks := { h.marks with digest := tensorDigest v.bytes h.shape.size } }
      | none => s) s) s

/-- The committed weights are written again to the DEST of each REDUCE_UPDATE of the step (R449). -/
def State.rewriteStep (s : State) (g : Group) (step : BitVec 32) : State :=
  (g.pend.filter (fun p : PendUpdate => p.step == step && p.dest ≠ 0)).foldl (fun (s : State) p =>
    match p.w.bind s.handle? with
    | some h => s.hostDeliver p.dest h.shape.size h.content 0 h.marks.poison
    | none => s) s

/-- A step is sealed: its pending stripes are gone, and the seal leaves the group. -/
def State.closeStep (s : State) (slot : Nat) (c : Coll) : State :=
  match s.group? slot with
  | some g => (s.setGroup { g with pend := g.pend.filter (fun p : PendUpdate => p.step ≠ c.step)
                                   openStep := if g.openStep = some c.step then none else g.openStep
                                   sealedSteps := g.sealedSteps ++ [c.step] }).dropColl slot c.seq
  | none => s

/-- The reasons a step is skipped for, and the lowest rank that set NF or FAILED (R449). -/
def skipReasons (rs : List SealRecord) : Nat :=
  let first := rs.headD { rank := 0, nf := false, failed := false, count := 0, digests := 0 }
  let bad := (rs.filter (fun r : SealRecord => r.nf || r.failed)).map SealRecord.rank
  let low := bad.foldl min 0xFFFF
  (rs.any SealRecord.nf).toNat + 2 * (rs.any SealRecord.failed).toNat
    + 4 * (rs.any (fun r : SealRecord => r.count ≠ first.count)).toNat
    + 8 * (rs.any (fun r : SealRecord => r.digests ≠ first.digests)).toNat + low * 2 ^ 16

/-- A step is skipped: an event is recorded, whose code and class the manual does not give, the committed weights are
written again, and the seal ends (R449). -/
def State.skipStep (s : State) (g : Group) (c : Coll) (st : BitVec 8) : State :=
  let (v, s) := s.fresh 96
  let e : Event := { code := bitsOf v.toNat 15 0, cls := bitsOf v.toNat 17 16, kind := 0, index := 0, detail := v.extractLsb' 32 64 }
  let s := s.event (hubOf c.ticket.ring) e
  let s := (s.rewriteStep g c.step).closeStep g.slot c
  s.completeVia c.ticket allPorts { status := st, result := BitVec.ofNat 64 (skipReasons c.seals) }

/-- The seal of a group that has started. -/
def Group.sealing (g : Group) : Option Coll := g.colls.find? (fun c : Coll => c.started && c.opcode == 0x45)

/-- SEAL_DECIDE: with every record held, commit or skip (R447 to R449). -/
def execSealDecide (group : Fin 16) (s : State) : Out :=
  match s.group? group.val with
  | some g => match g.sealing with
    | some c =>
      if c.seals.length < g.d1 * g.d2 then .next s
      else if skipReasons c.seals % 16 ≠ 0 then .next ((s.skipStep g c 0x78).pumpColls g.slot)
      else
        let done := (g.pend.filter (fun p : PendUpdate => p.step == c.step && p.w.isSome)).length
        let s := (s.commitStep g c.step).closeStep g.slot c
        .next ((s.complete c.ticket { status := 0, result := BitVec.ofNat 64 done }).pumpColls g.slot)
    | none => .next s
  | none => .next s

/-- SEAL_TIMEOUT: a seal without every record by TIMEOUT_MS skips with MEMBER_LOST, and the group breaks (R450). -/
def execSealTimeout (group : Fin 16) (s : State) : Out :=
  match s.group? group.val with
  | some g => match g.sealing with
    | some c =>
      if g.d1 * g.d2 ≤ c.seals.length || s.tick < c.since + c.f 151 136 * msTicks then .next s
      else .next ((s.skipStep g c 0x77).breakGroup g.slot)
    | none => .next s
  | none => .next s

end Sys2Proof.Machine
end

