-- ==== Sys2Proof/Machine/Sync.lean ====
section
/-!
DEFINITION. The sync block's commands (chapter 13): mirrors and posts, long waits, beacon lines and barriers, counter
registers and locks.
-/
namespace Sys2Proof.Machine

/-! ### Counters in host memory (R464 to R467) -/

/-- The counter region of a hub (Table 13-8, R464). -/
def Sync.base (y : Sync) : Nat := bitsOf y.baseLo.toNat 31 12 * 4096 + bitsOf y.baseHi.toNat 24 0 * 2 ^ 32

/-- MIRROR_WRITE: the mirror word of an owned counter that has changed is written (R465, Table 13-2). -/
def execMirrorWrite (hub : Hub) (ctr : Fin 256) (s : State) : Out :=
  let y := s.syn.hubs[hub]
  let c := ctr.val
  if !y.ctrl.getLsbD 0 || c ∉ y.dirty || !bitOf (s.ctrCfg hub c).toNat 31 then .next s
  else
    let word := leBytes 4 (s.hostCtr hub c).toNat ++ leBytes 2 (tabGet 0 y.realigns c) ++ leBytes 2 0
    .next ((s.setSync hub { y with dirty := y.dirty.erase c }).hostWrite (y.base + 8 * c) word)

/-- A post word of a hub as host memory holds it. -/
def State.postWord (s : State) (h : Hub) (c : Nat) : BitVec 32 :=
  BitVec.ofNat 32 (s.hostNum (s.syn.hubs[h].base + 0x800 + 4 * c) 4)

/-- The post word of an owned counter is taken: the counter rises by what was posted since the last read (R467). -/
def State.takePost (s : State) (h : Hub) (c : Nat) : State :=
  if !bitOf (s.ctrCfg h c).toNat 31 then s
  else
    let y := s.syn.hubs[h]
    let p := s.postWord h c
    let l := tabGet 0 y.lastPost c
    if p = l then s else (s.setSync h { y with lastPost := tabPut 0 y.lastPost c p }).raiseHost h c (p - l)

/-- A hub reads its post words. -/
def State.readPosts (s : State) (h : Hub) : State := (List.range 256).foldl (fun (s : State) c => s.takePost h c) s

/-- POST_POLL (R467). -/
def execPostPoll (hub : Hub) (s : State) : Out :=
  .next (if s.syn.hubs[hub].ctrl.getLsbD 1 then s.readPosts hub else s)

/-- WAKE_IN (R467). -/
def execWakeIn (hub : Hub) (s : State) : Out :=
  .next (if s.syn.hubs[hub].ctrl.getLsbD 2 then s.readPosts hub else s)

/-- LONG_WAIT: a domain becomes long-waiting, where LONG_WAIT is not 0 (R474). -/
def execLongWait (domain : Fin 40) (s : State) : Out :=
  let h := hubOf (domain.val / 10)
  let p := s.pwr.hubs[h]
  let d := domain.val % 10
  if bitsOf s.syn.hubs[h].ctrl.toNat 23 16 = 0 || (p.dom d).state != .on then .next s
  else .next (s.setPower h (p.upd d (fun (x : Domain) => { x with longWaiting := true })))

/-! ### Counter registers (R467 to R469, Table 13-9) -/

/-- SYN_CTR_CFG of the selected counter is written; a write while a waiter is pending on it is discarded and recorded,
the writer's context being none (R467, R469). -/
def State.ctrCfgWrite (s : State) (h : Hub) (value : BitVec 32) : State :=
  let c := s.syn.hubs[h].sel.toNat % 256
  if s.ctrWaited h c then
    let (w, s) := s.fresh 12
    s.event h (ev 0x0062 1 (c + w.toNat * 256))
  else
    let v := value &&& ~~~0x7000#32
    let v := if bitsOf v.toNat 28 27 = 3 then v &&& ~~~0x18000000#32 else v
    let y := s.syn.hubs[h]
    let taken := bitOf v.toNat 31 && !bitOf (s.ctrCfg h c).toNat 31
    let last := if taken then tabPut 0 y.lastPost c (s.postWord h c) else y.lastPost
    s.setSync h { y with cfg := tabPut ctrCfgReset y.cfg c v, lastPost := last }

/-- SYN_CTR_CFG_WRITE (R469). -/
def execSynCtrCfgWrite (hub : Hub) (value : BitVec 32) (s : State) : Out := .next (s.ctrCfgWrite hub value)

/-- SYN_CTR_VAL of the selected counter is written: it takes the value; one that carries it up raises a running step's
mark (R96, R465). -/
def State.ctrValWrite (s : State) (h : Hub) (value : BitVec 32) : State :=
  let c := s.syn.hubs[h].sel.toNat % 256
  let d := value - s.hostCtr h c
  let s := s.setHostCtr h c value
  if d ≠ 0 && d.toNat < 2 ^ 31 then s.markRaise h c else s

/-- SYN_CTR_VAL_WRITE (R465). -/
def execSynCtrValWrite (hub : Hub) (value : BitVec 32) (s : State) : Out := .next (s.ctrValWrite hub value)

/-! ### Barrier slots (R475 to R483) -/

/-- The lead hub of a slot, the lowest in HUBS (R480). -/
def BarSlot.lead (b : BarSlot) : Hub := hubOf (b.hubs.headD 0)

/-- SYN_BAR_CFG or SYN_BAR_CFG2 is written: ENABLE 0 to 1 starts the slot at generation 0, ENABLE 0 ends it (R478). -/
def State.barCfgWrite (s : State) (b : Fin 8) (second : Bool) (value : BitVec 32) : State :=
  let x := s.syn.bars[b]
  if second then
    let v := if bitsOf value.toNat 19 12 = 0 then value ||| 0x1000#32 else value
    s.setBar b { x with cfg2 := v }
  else
    let y : BarSlot := { x with cfg := value &&& ~~~0x1F#32 }
    let phase (h : Hub) : BeaconPhase :=
      if !y.on || h.val ∉ y.hubs then .out
      else if !x.on || h.val ∉ x.hubs then .asserting else x.beacon[h]
    let y := { y with beacon := Vector.ofFn phase }
    if !y.on then s.setBar b { y with state := .disabled, cause := 0 }
    else if !x.on then
      s.setBar b { y with state := .waiting, cause := 0, gen := 0, arrive0 := [], arrive1 := [], line0 := [], line1 := []
                          lineDoneSent := false }
    else s.setBar b y

/-- SYN_BAR_CFG_WRITE (R478). -/
def execSynBarCfgWrite (slot : Fin 8) (second : Bool) (value : BitVec 32) (s : State) : Out :=
  .next (s.barCfgWrite slot second value)

/-- A hub's beacon phase for a slot. -/
def State.setBeacon (s : State) (b : Fin 8) (h : Hub) (p : BeaconPhase) : State :=
  let x := s.syn.bars[b]
  s.setBar b { x with beacon := Vector.set x.beacon h.val p }

/-- BARRIER_ARRIVE: a participating hub whose arrival counter is at least ARRIVE_STEP releases its beacon line (R475,
R476, R479). -/
def execBarrierArrive (hub : Hub) (slot : Fin 8) (s : State) : Out :=
  let x := s.syn.bars[slot]
  if x.state == .waiting && x.beacon[hub] == .asserting
      && reached (s.hostCtr hub x.arriveCtr) (BitVec.ofNat 32 x.arriveStep) then
    .next (s.setBeacon slot hub .released)
  else .next s

/-- BARRIER messages go to the other members of a line (R480, R481, Table 13-5). -/
def State.sendBarrier (s : State) (g : Group) (b : Fin 8) (lineDone : Bool) (gen : Nat) (ranks : List Nat) : State :=
  (ranks.filter (fun r => r ≠ g.rank)).foldl (fun (s : State) r =>
    s.sendPkg (g.pkg r) 0 (lmsg 5 0 (BitVec.ofNat 64 (b.val + g.slot * 16 + lineDone.toNat * 2 ^ 12 + gen % 2 ^ 32 * 2 ^ 32)))) s

/-- Once the lead hub holds ARRIVE from every member of its dimension-1 line, LINE_DONE leaves (R480, Table 13-4). -/
def State.barLine (s : State) (b : Fin 8) : State :=
  let x := s.syn.bars[b]
  match s.group? x.group with
  | some g =>
    if x.grouped && x.state == .arrived && !x.lineDoneSent && g.line1.all (fun r => decide (r ∈ x.arrive0)) && g.d2 ≠ 1 then
      let line0 := if g.rank ∈ x.line0 then x.line0 else x.line0 ++ [g.rank]
      (s.setBar b { x with lineDoneSent := true, line0 := line0 }).sendBarrier g b true (x.gen + 1) g.line2
    else s
  | none => s

/-- BEACON_COMPLETE: with every participating hub released, the line is seen high; the package has arrived, and a
group-scope slot tells its dimension-1 line (R476, R479, R480). -/
def execBeaconComplete (slot : Fin 8) (s : State) : Out :=
  let x := s.syn.bars[slot]
  let all := x.hubs.all (fun h => x.beacon[hubOf h] == .released)
  if x.state != .waiting || x.hubs.isEmpty || !all then .next s
  else
    let beacon := Vector.ofFn (fun (h : Hub) => if h.val ∈ x.hubs then BeaconPhase.hold else x.beacon[h])
    let y : BarSlot := { x with state := .arrived, arrivedAt := s.tick, beacon := beacon }
    match x.grouped, s.group? x.group with
    | true, some g =>
      let y := { y with arrive0 := if g.rank ∈ y.arrive0 then y.arrive0 else y.arrive0 ++ [g.rank] }
      .next (((s.setBar slot y).sendBarrier g slot false (x.gen + 1) g.line1).barLine slot)
    | _, _ => .next (s.setBar slot y)

/-- The hold time of a hub in ticks of 6.4 ns (Table 13-7). -/
def Sync.holdTicks (y : Sync) : Nat :=
  let n := bitsOf y.ctrl.toNat 15 8
  let n := if 4 ≤ n && n ≤ 64 then n else 4
  (n * 250 + 63) / 64

/-- BEACON_HOLD_END: after the hold time a participating hub asserts its line again (R476). -/
def execBeaconHoldEnd (hub : Hub) (slot : Fin 8) (s : State) : Out :=
  let x := s.syn.bars[slot]
  if x.beacon[hub] == .hold && decide (x.arrivedAt + s.syn.hubs[hub].holdTicks ≤ s.tick) then
    .next (s.setBeacon slot hub .asserting)
  else .next s

/-- Whether a slot's present generation is complete (R480). -/
def State.barComplete (s : State) (x : BarSlot) : Bool :=
  x.state == .arrived && (!x.grouped || (match s.group? x.group with
    | some g => g.line1.all (fun r => decide (r ∈ x.arrive0)) && (g.d2 == 1 || g.line2.all (fun r => decide (r ∈ x.line0)))
    | none => false))

/-- What a completed generation does on one participating hub (R482). -/
def State.barDone (s : State) (b : Fin 8) (x : BarSlot) (h : Hub) : State :=
  let s := s.raiseHost h x.arriveCtr (0 - BitVec.ofNat 32 x.arriveStep)
  let s := s.raiseHost h x.releaseCtr 1
  let s := s.realignOn (fun w => bitOf w 31 && bitsOf w 28 27 == 2 && bitsOf w 26 24 == b.val) h
  if x.wakes then s.wakeOut h else s

/-- BARRIER_COMPLETE: a complete generation lowers the arrival counters, raises the release counters, realigns what names
the slot and pulses WAKE, on every participating hub; the slot waits for the next (R482). -/
def execBarrierComplete (slot : Fin 8) (s : State) : Out :=
  let x := s.syn.bars[slot]
  if !s.barComplete x then .next s
  else
    let s := x.hubs.foldl (fun (s : State) h => s.barDone slot x (hubOf h)) s
    .next (s.setBar slot { x with state := .waiting, gen := x.gen + 1, arrive0 := x.arrive1, arrive1 := [], line0 := x.line1
                                  line1 := [], lineDoneSent := false })

/-- BARRIER: ARRIVE and LINE_DONE are held for the present generation and the next; any other is refused (R480, R481). -/
def execBarrier (m : BarrierMsg) (s : State) : Out :=
  let x := s.syn.bars[m.slot]
  match s.group? m.group.val with
  | none => .next s
  | some g => match (s.bundle (g.pkg m.rank)).head? with
    | none => .next s
    | some l =>
      let live := x.state == .waiting || x.state == .arrived
      let fits := live && x.grouped && x.group == m.group.val && decide (m.rank ∈ (if m.lineDone then g.line2 else g.line1))
      let now := m.generation.toNat == (x.gen + 1) % 2 ^ 32
      let next_ := m.generation.toNat == (x.gen + 2) % 2 ^ 32
      if !fits || !(now || next_) then
        let (v, s) := s.fresh 8
        .next (s.refuse l 5 v.toNat)
      else
        let put (l : List Nat) : List Nat := if m.rank ∈ l then l else l ++ [m.rank]
        let y : BarSlot := match m.lineDone, now with
          | false, true => { x with arrive0 := put x.arrive0 }
          | false, false => { x with arrive1 := put x.arrive1 }
          | true, true => { x with line0 := put x.line0 }
          | true, false => { x with line1 := put x.line1 }
        .next ((s.setBar m.slot y).barLine m.slot)

/-- BARRIER_TIMEOUT: a group-scope generation not complete within TIMEOUT_MS of the package's arrival puts the slot in
FAULT (R483). -/
def execBarrierTimeout (slot : Fin 8) (s : State) : Out :=
  let x := s.syn.bars[slot]
  if x.state == .arrived && x.grouped && x.timeoutMs ≠ 0 && !s.barComplete x
      && decide (x.arrivedAt + x.timeoutMs * msTicks ≤ s.tick) then .next (s.barFault slot 1)
  else .next s

/-! ### Locks (R486 to R489) -/

/-- A lock of a hub. -/
def State.lock (s : State) (h : Hub) (l : Nat) : LockState := tabGet .free s.syn.hubs[h].locks l

/-- A lock of a hub takes a state. -/
def State.setLock (s : State) (h : Hub) (l : Nat) (x : LockState) : State :=
  let y := s.syn.hubs[h]
  s.setSync h { y with locks := tabPut .free y.locks l x }

/-- LOCK_ACQUIRE: a FREE or ABANDONED lock becomes HELD by the requester; a HELD one stays (R486). -/
def execLockAcquire (hub : Hub) (lock : Fin 64) (requester : BitVec 8) (s : State) : Out :=
  match s.lock hub lock.val with
  | .held _ => .next s
  | _ => .next (s.setLock hub lock.val (.held requester))

/-- A release: by the holder it makes the lock FREE, by any other it is counted (R487). -/
def State.lockRelease (s : State) (h : Hub) (l : Nat) (requester : BitVec 8) : State :=
  if s.lock h l = .held requester then s.setLock h l .free
  else
    let y := s.syn.hubs[h]
    s.setSync h { y with badReleases := y.badReleases + 1 }

/-- LOCK_RELEASE (R487). -/
def execLockRelease (hub : Hub) (lock : Fin 64) (requester : BitVec 8) (s : State) : Out :=
  .next (s.lockRelease hub lock.val requester)

/-- A HELD lock becomes ABANDONED, with its event (R488). -/
def State.lockAbandon (s : State) (h : Hub) (l : Nat) : State :=
  match s.lock h l with
  | .held b => (s.setLock h l (.abandoned b)).event h (ev 0x0064 1 (l + b.toNat * 256))
  | _ => s

/-- LOCK_ABANDON (R488). -/
def execLockAbandon (hub : Hub) (lock : Fin 64) (s : State) : Out := .next (s.lockAbandon hub lock.val)

end Sys2Proof.Machine
end

