-- ==== Sys2Proof/Machine/Contexts.lean ====
section
/-!
DEFINITION. CONTEXT_DESTROY (R49, R99, R424, R470, Table 9-17).
-/
namespace Sys2Proof.Machine

/-- Every counter a context owns is set to 0, and OWNED is cleared (R470). -/
def State.dropCounters (s : State) (ctx : Nat) : State :=
  (List.finRange 4).foldl (fun (s : State) (h : Hub) =>
    let mine := (s.syn.hubs[h].cfg.filter (fun e => bitOf e.2.toNat 31 && bitsOf e.2.toNat 11 0 == ctx))
    mine.foldl (fun (s : State) e =>
      let s := s.setHostCtr h e.1 0
      let y := s.syn.hubs[h]
      s.setSync h { y with cfg := tabPut ctrCfgReset y.cfg e.1 (e.2 &&& 0x7FFFFFFF#32) }) s) s

/-- A context's handles are freed; what they charged goes with the context's ledgers (R49). -/
def State.freeContext (s : State) (ctx : Nat) : State :=
  let hs := s.hs.list.filter (fun h : Handle => h.key.ctx == ctx && h.state != .freeing)
  let s := hs.foldl State.freeHandle s
  let clear (h : Handle) : Handle :=
    if h.key.ctx = ctx then { h with chargeShade := 0, chargeUmbra := 0, chargePenumbra := 0 } else h
  { s with hs := { s.hs with list := s.hs.list.map clear } }

/-- A live context with no ring bound to it is destroyed: its handles are freed, its groups destroyed, its plans, step and
streams discarded, its counters cleared, and it is no longer listed. -/
def State.destroyContext (s : State) (c : Ctx) : State :=
  let s := (s.groups.filter (fun g : Group => g.ctx == c.id)).foldl State.destroyGroup s
  let s := c.streams.foldl State.endStream s
  let s := match c.step.bind StepRun.ending with
    | some (t, _) => s.complete t { status := 0x25 }
    | none => s
  let s := (s.freeContext c.id).dropCounters c.id
  { s with ctxs := s.ctxs.filter (fun x : Ctx => x.id ≠ c.id),
           regs := { s.regs with lastCounts := s.regs.lastCounts.filter (fun x : Nat × List Byte => x.1 ≠ c.id) } }

/-- What R313 checks of CONTEXT_DESTROY. -/
def contextDestroySpec : DescSpec :=
  { job := false, admin := true, used := [(91, 80)] }

/-- CONTEXT_DESTROY (Table 9-17). -/
def execContextDestroy (d : Desc) (s : State) : Out :=
  .next (s.withDesc d contextDestroySpec (fun t s =>
    match s.ctx? (d.f 91 80) with
    | none => s.complete t { status := 0x51 }
    | some c =>
      if s.rg.list.any (fun r : Ring => r.ctx == c.id && r.id ≠ 0) then s.complete t { status := 0x54 }
      else (s.destroyContext c).complete t { status := 0 }))

end Sys2Proof.Machine
end

