-- ==== Sys2Proof/Machine/Controller.lean ====
section
/-!
DEFINITION. The deadline controller: projection, and its five actions (R113 to R125, R150, R417, R573, R574).
-/
namespace Sys2Proof.Machine

/-! ### What a restore asks of each stage (Table 3-17) -/

/-- Work a restore brings to a stage: the stage code, a class within it (TIER_READ: 0 Shade, 1 Umbra; EXPAND: 1 a narrowed
stripe; RECOMPUTE: the ops per beat of the format), the amount, and the units that serve it, numbered as hubs, stacks or
links. -/
structure StageUse where
  stage : Nat
  cls : Nat
  amount : Nat
  units : List Nat

/-- A bundle's links, for the link number a home names. -/
def State.linksOf (s : State) (l : LinkNo) : List Nat :=
  match s.lnk.links[l].peer with
  | some p => (s.bundle p.pkg).map Fin.val
  | none => [l.val]

/-- Ops per beat of an engine by format (R271). -/
def opsPerBeat (fmt : Nat) : Nat := if fmt = 8 then 8192 else if 4 ≤ fmt && fmt ≤ 7 then 4096 else 2048

/-- The work of reading a range of a stored or KEEP handle. -/
def State.readUses (s : State) (h : Handle) (off len : Nat) : List StageUse :=
  let k0 := off / 2097152
  let ks := (List.range ((off + len + 2097151) / 2097152 - k0)).map (fun i => k0 + i)
  ks.flatMap (fun k => match h.homes[k]? with
    | none => []
    | some x =>
      let n := min (off + len) ((k + 1) * 2097152) - max off (k * 2097152)
      let tier := match x.unit with
        | .shade hub _ => [({ stage := 1, cls := 0, amount := n, units := [hub.val] } : StageUse)]
        | .umbra st => [{ stage := 1, cls := 1, amount := n, units := [st.val] }]
        | .penumbra l => [{ stage := 5, cls := 0, amount := n, units := s.linksOf l }]
      let expand := match x.form with
        | .narrowed => [({ stage := 2, cls := 1, amount := n, units := [x.unit.hub.val] } : StageUse)]
        | _ => if h.fate == Fate.press then [{ stage := 2, cls := 0, amount := n, units := [x.unit.hub.val] }] else []
      tier ++ expand)

/-- The COST of a recipe of the active plan (R271). -/
def Plan.cost (p : Plan) (number : Nat) : Nat :=
  ((p.recipes.find? (fun r : PlanRecipe => r.number == number)).map PlanRecipe.cost).getD 1

/-- The work of making a range of a handle: reads of a stored one; for a RECOMPUTE handle its inputs' reads, in
proportion to the range, its recompute, and the bridge for its WHOLE and WEIGHT inputs (R259), down its chain. -/
def State.makeUses (s : State) (p : Plan) : Nat → Handle → Nat → Nat → List StageUse
  | 0, _, _, _ => []
  | n + 1, h, off, len =>
    match h.fate, h.recipe with
    | .recompute, some r =>
      let elems := len * 8 / max 1 (elemBits h.shape.format)
      let ins := (r.inputs.zipIdx).filterMap (fun x => (s.handle? (wordKey x.1.handle.toNat)).map (fun y => (y, x.2)))
      { stage := 3, cls := opsPerBeat h.shape.format, amount := p.cost r.number * elems, units := [0, 1, 2, 3] }
        :: ins.flatMap (fun x =>
          let y := x.1
          let m := y.shape.size * len / max 1 h.shape.size
          let shared := inMode r.ops x.2 == 2 || inMode r.ops x.2 == 3 || inMode r.ops x.2 == 4
          let m := if shared then y.shape.size else m
          (if shared then [({ stage := 7, cls := 0, amount := 3 * m, units := [0, 1, 2, 3] } : StageUse)] else [])
            ++ s.makeUses p n y 0 m)
    | _, _ => s.readUses h off len

/-- The work of one restore of a batch, its delivery included. -/
def State.restoreUses (s : State) (p : Plan) (ctx : Nat) (r : PlanRestore) : List StageUse :=
  match s.handle? { ctx := ctx, obj := r.obj } with
  | none => []
  | some h =>
    let len := if r.length = 0 then h.shape.size - r.offset else r.length
    let ks := (List.range (stripeCount h.shape.size)).filter (fun k => r.offset < (k + 1) * 2097152 && k * 2097152 < r.offset + len)
    let ports := if h.fate == Fate.recompute then [0, 1, 2, 3] else (ks.map (fun k => (h.stripeHub k).val)).dedup
    let uses := (s.makeUses p 5 h r.offset len).filter (fun u => !(r.glint && h.fate == Fate.press && u.stage == 2))
    { stage := 4, cls := 0, amount := len, units := ports } :: uses

/-- The work a batch has left: its restores that have not ended. -/
def State.batchUses (s : State) (p : Plan) (ctx : Nat) (b : PlanBatch) (x : BatchRun) : List StageUse :=
  (b.restores.zipIdx).flatMap (fun q => if x.ended.any (fun e => e.1 == q.2) then [] else s.restoreUses p ctx q.1)

/-! ### Rates (R114, R149, R150, R573) -/

/-- The pace of a stage on a hub in units of 1/256: 256 for a synchronous stage; none before a pace window has ended. -/
def HubPower.paceOf (x : HubPower) (stage cls : Nat) : Option Nat :=
  let d (i : Nat) : Nat := (x.delivered.getD i 0).toNat
  if x.windows = 0 && stage ≠ 4 && stage ≠ 5 && !(stage == 1 && cls == 1) then none
  else if stage = 1 && cls = 0 then some (d 1)
  else if stage = 2 then some (d 4)
  else if stage = 3 then some (min (d 2) (d 3))
  else if stage = 7 then some (d 5)
  else some 256

/-- The rate of one unit at a stage, in 1/25,600 of a byte, or of an op, a tick. -/
def State.unitRate (s : State) (u : StageUse) (n : Nat) : Option Nat :=
  if u.stage = 1 && u.cls = 1 then
    some (256 * (if s.units.stack[(Fin.ofNat 8 n : Fin 8)] == UnitState.reduced then 917504 else 1048576))
  else if u.stage = 5 then
    some (256 * (if s.lnk.links[(Fin.ofNat 32 n : Fin 32)].state == LState.reduced then 43200 else 57600))
  else
    let nominal := match u.stage with
      | 1 => 5120000
      | 2 => 1310720
      | 3 => 1280 * u.cls * (s.chainPlaces (hubOf n)).length
      | 4 => 2560000
      | _ => 640000
    (s.pwr.hubs[hubOf n].paceOf u.stage u.cls).map (fun p => nominal * p)

/-- The rate of all the units that serve a use; none where the manual states no rate. -/
def State.useRate (s : State) (u : StageUse) : Option Nat :=
  if u.stage = 2 && u.cls = 1 then none
  else (u.units.dedup).foldl (fun (a : Option Nat) n => match a, s.unitRate u n with
    | some x, some y => some (x + y)
    | _, _ => none) (some 0)

/-- The work of a batch at each stage and class, added up. -/
def gatherUses (l : List StageUse) : List StageUse :=
  ((l.map (fun u => (u.stage, u.cls))).dedup).map (fun k =>
    let us := l.filter (fun u => u.stage == k.1 && u.cls == k.2)
    { stage := k.1, cls := k.2, amount := (us.map StageUse.amount).sum, units := (us.flatMap StageUse.units).dedup })

/-- The other work at shared stages, as stages and priorities: issued batches, migrations, runs and codec jobs; the work of
batch `b` of context `ctx` left out. -/
def State.demands (s : State) (ctx b : Nat) : List (Nat × Nat) :=
  (s.ctxs.flatMap (fun c : Ctx => match c.active, c.step with
    | some p, some r => ((p.batches.zip r.batches).zipIdx).flatMap (fun q =>
        if q.1.2.issued && !q.1.2.done && !(c.id == ctx && q.2 == b) then
          ((s.batchUses p c.id q.1.1 q.1.2).map StageUse.stage).dedup.map (fun st => (st, q.1.2.prio))
        else [])
    | _, _ => []))
  ++ s.hs.list.flatMap (fun h : Handle => match h.mig with
    | some m => (1, m.prio) :: (if h.fate == Fate.press || m.fate == Fate.press then [(2, m.prio)] else [])
    | none => [])
  ++ (s.eng.runs.filter (fun r : Run => r.restore.isNone)).map (fun r : Run => (3, r.prio))
  ++ s.codec.jobs.map (fun j : LaneJob => (2, j.prio))

/-- The ticks a use takes, and whether the batch has less than the whole of the stage (R114: share). -/
def State.useTicks (s : State) (free b prio : Nat) (dems : List (Nat × Nat)) (u : StageUse) : Nat × Bool :=
  let same := (dems.filter (fun d => d.1 == u.stage && d.2 == prio)).length
  let above := dems.any (fun d => d.1 == u.stage && decide (prio < d.2))
  let t := match s.useRate u with
    | some r => if above || r = 0 then Config.unstatedTime free b u.stage
        else (u.amount * 25600 * (1 + same) + r - 1) / r
    | none => Config.unstatedTime free b u.stage
  (t, above || 0 < same)

/-- The wake time a stage adds while a domain that carries it is in RETAIN or RAMPING (R574), and the time a link in L1
adds (R417). -/
def State.wakeTicks (s : State) (u : StageUse) : Nat :=
  let asleep (n d : Nat) : Bool := let x := (s.pwr.hubs[hubOf n].dom d).state; x == DState.retain || x == DState.ramping
  let any (d : Nat) : Bool := u.units.any (fun n => asleep n d)
  match u.stage with
  | 1 => if u.cls = 1 then (if u.units.any (fun k => asleep (k / 2) (8 + k % 2)) then 3125 else 0)
    else if any 1 then 1250 else 0
  | 2 => if any 4 then 625 else 0
  | 3 => if any 2 || any 3 then 782 else 0
  | 5 => if u.units.any (fun l => s.lnk.links[(Fin.ofNat 32 l : Fin 32)].state == LState.l1) then 3125 else 0
  | 7 => if any 5 then 625 else 0
  | _ => 0

/-- A batch's longest stage: its ticks, code and whether its share is below 1, with the wake times added. -/
def State.longest (s : State) (free b prio : Nat) (dems : List (Nat × Nat)) (us : List StageUse) : Nat × Nat × Bool :=
  let g := gatherUses us
  let best := g.foldl (fun (a : Nat × Nat × Bool) u =>
    let (t, low) := s.useTicks free b prio dems u
    if a.1 < t || (a.1 == t && decide (u.stage < a.2.1)) then (t, u.stage, low) else a) (0, 4, false)
  (best.1 + (g.map s.wakeTicks).sum, best.2)

/-! ### Projection (R114) -/

/-- A batch's projection: its ticks at the longest stage, its stage, and whether that stage's share is below 1. -/
structure Proj where
  batch : Nat
  start : Nat
  proj : Nat
  margin : Int
  stage : Nat
  low : Bool

/-- The earliest tick at which R108 would let batch `b` issue if everything before it issued now, given when the batches
before it would complete. -/
def PlanBatch.t0 (p : PlanBatch) (widened : Bool) (now : Nat) (ends : List Nat) : Nat :=
  let l := ends.mergeSort (fun a c => decide (a ≤ c))
  let free := if l.length < p.lookahead widened then now else l.getD (l.length - p.lookahead widened) now
  max (max now (p.gate widened)) free

/-- The projections of every batch of a step that has not completed, in order. -/
def State.projectAll (s : State) (c : Ctx) (p : Plan) (r : StepRun) (free now : Nat) : List Proj :=
  ((p.batches.zip r.batches).zipIdx.foldl (fun (a : List Proj × List Nat) q =>
    let b := q.2
    let pb := q.1.1
    let x := q.1.2
    if x.done then a
    else
      let us := s.batchUses p c.id pb x
      let (t, st, low) := s.longest free b x.prio (s.demands c.id b) us
      let t0 := pb.t0 x.widened now a.2
      let proj := if x.issued then now + t else t0 + p.fillTicks + t
      let onlyMark := !x.issued && c.mark.toNat < pb.afterMark && t0 == now && (r.batches.take b).all (fun y : BatchRun => y.issued)
      let e : Proj := { batch := b, start := t0, proj := proj, margin := (pb.deadline : Int) - (proj : Int),
                        stage := if onlyMark then 6 else st, low := low }
      (a.1 ++ [e], a.2 ++ [if x.issued then proj else now + p.fillTicks + t])) ([], [])).1

/-! ### Actions (R115 to R121) -/

/-- Bytes the controller's migrations have in flight (R120). -/
def State.controllerBytes (s : State) (ctx : Nat) : Nat :=
  (s.hs.list.map (fun h : Handle => match h.mig with
    | some m => if m.byController && h.key.ctx == ctx then h.shape.size else 0
    | none => 0)).sum

/-- Whether another controller-started migration of a handle stays within MIGRATE_BUDGET (R120). -/
def State.budgetTakes (s : State) (p : Plan) (h : Handle) : Bool :=
  decide (s.controllerBytes h.key.ctx + h.shape.size ≤ p.migrateBudget * 1048576)

/-- The handles that unissued batches name, in batch then record order; MUTABLE and unplanned ones are no candidates
(R116, R121). -/
def State.candidates (s : State) (ctx : Nat) (p : Plan) (r : StepRun) : List Handle :=
  ((p.batches.zip r.batches).filter (fun q => !q.2.issued)).flatMap (fun q =>
    q.1.restores.filterMap (fun x => (s.handle? { ctx := ctx, obj := x.obj }).bind (fun h =>
      if h.perms.mutable || !h.perms.planned then none else some h)))

/-- A tier has quota and free space for a handle in a placement. -/
def State.hasRoom (s : State) (h : Handle) (pl : Placement) : Bool :=
  s.ledgerTakes h.key.ctx pl.tier (chargeFor pl.tier h.shape.size)
    && (s.placeAll pl h.key.obj h.shape.size (List.range (stripeCount h.shape.size))).isSome

/-- The placements over a whole tier. -/
def wholeShade : Placement := { tier := 2, hubMask := 0xF, stackMask := 0, peer := 0 }

/-- Where a faster-home candidate would go (R117): the fastest tier that has room. -/
def State.fasterHome (s : State) (stage : Nat) (h : Handle) : Option Placement :=
  let tiers := if h.fate == Fate.recompute then
      (if stage = 3 && h.state == HState.latent && s.inputsLive h then [wholeShade, defaultPlace] else [])
    else if (h.fate == Fate.stash || h.fate == Fate.press) && h.state == HState.resident && !h.perms.pinTier then
      (if h.place.tier = 3 then [wholeShade] else if h.place.tier = 4 then [wholeShade, defaultPlace] else [])
    else []
  tiers.find? (fun pl => (pl.tier ≠ 3 || s.start.umbra) && s.hasRoom h pl)

/-- An unpress candidate (R118). -/
def State.unpressable (s : State) (h : Handle) : Bool :=
  h.fate == Fate.press && !h.perms.noSwap && (h.state == HState.registered || h.state == HState.resident)
    && (s.placeAll h.place h.key.obj h.shape.size (List.range (stripeCount h.shape.size))).isSome

/-- A narrow candidate (R119). -/
def narrowable (h : Handle) : Bool :=
  (h.fate == Fate.stash || h.fate == Fate.press) && h.perms.adaptNarrow
    && (h.state == HState.registered || h.state == HState.resident)

/-- A change the controller starts: a migration, or the fate a REGISTERED handle is filled with; one that cannot start
ends with an error, which is an event (R118 to R120). -/
def State.controllerMove (s : State) (h : Handle) (goal : Fate) (pl : Placement) (base : Nat) : State :=
  if h.state == HState.registered then s.setHandle { h with fate := goal }
  else match s.startMigrate h goal pl (base - 1) none with
    | .ok s => s
    | .error _ => s.event h.key.entry (ev 0x0025 1 h.word)

/-- The runs that serve a batch, with the regenerations under them, take its priority (R110, R116, R239). -/
def State.raiseRuns (s : State) (ctx b prio : Nat) : State :=
  let mine (r : Run) : Bool := r.ctx == ctx && (match r.restore with
    | some w => (w.batch.map Prod.fst) == some b
    | none => false)
  let under (ids : List Nat) : List Nat := ids ++ (s.eng.runs.filterMap (fun r : Run => match r.kind with
    | .input parent _ => if parent ∈ ids then some r.id else none
    | _ => none))
  let ids := under (under (under (under ((s.eng.runs.filter mine).map Run.id))))
  let up (w : WaitingRestore) : WaitingRestore :=
    if w.ringCtx = ctx && (w.batch.map Prod.fst) == some b then { w with prio := prio } else w
  { s with eng := { s.eng with runs := s.eng.runs.map (fun r : Run => if r.id ∈ ids then ({ r with prio := prio } : Run) else r) },
           hs := { s.hs with list := s.hs.list.map (fun h : Handle => ({ h with waiting := h.waiting.map up } : Handle)) } }

/-- A step's batches changed by number. -/
def State.mapBatches (s : State) (ctx : Nat) (f : Nat → BatchRun → BatchRun) : State :=
  match s.stepOf ctx with
  | some (c, r) => s.setCtx { c with step := some { r with batches := (r.batches.zipIdx).map (fun x => f x.2 x.1) } }
  | none => s

/-- An evaluation is counted (R124). -/
def State.countEval (s : State) (ctx : Nat) (f : StepCounts → StepCounts) : State :=
  match s.ctx? ctx with
  | some c => s.setCtx { c with counts := f c.counts }
  | none => s

/-- An action is marked on a batch (R123). -/
def State.markAction (s : State) (ctx b bit : Nat) : State :=
  s.mapBatches ctx (fun i x => if i = b then { x with actions := x.actions ||| (1#5 <<< bit) } else x)

/-- Action 1: every batch up to w that is not complete rises by one, up to PRIO_MAX. -/
def State.actPriority (s : State) (ctx w : Nat) (p : Plan) (r : StepRun) : State :=
  let up (i : Nat) (x : BatchRun) : Bool := decide (i ≤ w) && !x.done && decide (x.prio < p.prioMax)
  let s := s.mapBatches ctx (fun i x => if up i x then { x with prio := x.prio + 1, actions := x.actions ||| 1 } else x)
  let s := (r.batches.zipIdx).foldl (fun (s : State) q =>
    if up q.2 q.1 && q.1.issued then s.raiseRuns ctx q.2 (q.1.prio + 1) else s) s
  s.countEval ctx (fun k => { k with priority := k.priority + 1 })

/-- Whether widening moves t0 earlier for an unissued batch up to w. -/
def widens (p : Plan) (r : StepRun) (w now : Nat) (ps : List Proj) : Bool :=
  let ends (b : Nat) : List Nat := (ps.filter (fun e => decide (e.batch < b))).map (fun e =>
    if (r.batches[e.batch]?).any (fun x : BatchRun => x.issued) then e.proj else now + (e.proj - e.start))
  ((p.batches.zip r.batches).zipIdx).any (fun q => decide (q.2 ≤ w) && !q.1.2.issued && !q.1.2.widened
    && decide (q.1.1.t0 true now (ends q.2) < q.1.1.t0 false now (ends q.2)))

/-- act(w) of R115. -/
def State.controllerAct (s : State) (c : Ctx) (p : Plan) (r : StepRun) (now : Nat) (ps : List Proj) (w : Proj) : State :=
  let ctx := c.id
  let st := w.stage
  let prio := ((r.batches[w.batch]?).map BatchRun.prio).getD 0
  let cands := s.candidates ctx p r
  let faster := (cands.filter (fun h => s.budgetTakes p h)).findSome? (fun h => (s.fasterHome st h).map (fun pl => (h, pl)))
  let unpress := cands.find? (fun h => s.unpressable h && s.budgetTakes p h)
  let narrow := cands.find? (fun h => narrowable h && s.budgetTakes p h)
  if st = 6 then s.countEval ctx (fun k => { k with none := k.none + 1 })
  else if w.low && prio < p.prioMax then s.actPriority ctx w.batch p r
  else if widens p r w.batch now ps then
    (s.mapBatches ctx (fun i x => if i ≤ w.batch && !x.issued then { x with widened := true, actions := x.actions ||| 2 } else x)).countEval
      ctx (fun k => { k with widen := k.widen + 1 })
  else match (if st = 1 || st = 5 || st = 7 || st = 3 then faster else none) with
  | some (h, pl) =>
    ((s.controllerMove h (if h.fate == Fate.recompute then .stash else h.fate) pl p.basePrio).markAction ctx w.batch 2).countEval ctx
      (fun k => { k with faster := k.faster + 1 })
  | none => match (if st = 2 then unpress else none) with
    | some h => ((s.controllerMove h .stash h.place p.basePrio).markAction ctx w.batch 3).countEval ctx
        (fun k => { k with unpress := k.unpress + 1 })
    | none => match (if st = 1 || st = 5 || st = 2 then narrow else none) with
      | some h =>
        (((s.controllerMove h .narrow h.place p.basePrio).markAction ctx w.batch 4).countEval ctx
          (fun k => { k with narrow := k.narrow + 1 })).event (hubOf c.planRing) (ev 0x0022 1 (h.key.obj + ctx * 2 ^ 40))
      | none =>
        (s.countEval ctx (fun k => { k with exhausted := k.exhausted + 1 })).event (hubOf c.planRing)
          (ev 0x0021 1 (ctx + w.batch * 4096 + st * 2 ^ 24))

/-- The calm count of a step. -/
def State.setCalm (s : State) (ctx n : Nat) : State :=
  match s.stepOf ctx with
  | some (c, r) => s.setCtx { c with step := some { r with calm := n } }
  | none => s

/-- relax() of R115: unissued batches return to BASE_PRIO and lose their widening. -/
def State.relax (s : State) (ctx base : Nat) : State :=
  s.mapBatches ctx (fun _ x => if x.issued then x else { x with prio := base, widened := false })

/-- One evaluation of R115 on the watched batches. -/
def State.evaluate (s : State) (c : Ctx) (p : Plan) (r : StepRun) : State :=
  let ctx := c.id
  let now := r.now s.tick
  let (_, s) := s.fresh 1
  let ps := s.projectAll c p r (s.freeCount - 1) now
  let watched := ps.filter (fun e => match p.batches[e.batch]?, r.batches[e.batch]? with
    | some b, some x => decide (b.deadline - b.openMax ≤ now) && (x.issued || r.ending.isNone)
    | _, _ => false)
  match watched with
  | [] => s.setCalm ctx 0
  | e :: es =>
    let s := s.mapBatches ctx (fun i x => match watched.find? (fun q => q.batch == i) with
      | some q => { x with stage := q.stage }
      | none => x)
    let w := es.foldl (fun (a : Proj) q => if q.margin < a.margin then q else a) e
    if !p.controllerEn then s
    else if w.margin < (p.guardTicks : Int) then (s.setCalm ctx 0).controllerAct c p r now ps w
    else if watched.all (fun q => decide (2 * (p.guardTicks : Int) ≤ q.margin)) then
      if r.calm + 1 = 4 then (s.relax ctx p.basePrio).setCalm ctx 0 else s.setCalm ctx (r.calm + 1)
    else s.setCalm ctx 0

/-- CONTROLLER_EVALUATE: the watched batches are projected and at most one action is taken (R113 to R121). -/
def execControllerEvaluate (ctx : Nat) (s : State) : Out :=
  match s.stepOf ctx with
  | some (c, r) => match c.active with
    | some p => .next (s.evaluate c p r)
    | none => .next s
  | none => .next s

end Sys2Proof.Machine
end

