-- ==== Sys2Proof/Machine/Rings.lean ====
section
/-!
DEFINITION. Rings: their creation, end, state and attachment, quotas, grants and seeds, doorbells, the fetching of
descriptors and the reading of CQ_HEAD (R301 to R337, R136, R137, R285).
-/
namespace Sys2Proof.Machine

/-! ### The replay window (R329 to R332) -/

/-- Whether a sequence number lies from `lo` up to but not including `hi`, modulo 2^32. -/
def seqIn (q lo hi : BitVec 32) : Bool := decide ((q - lo).toNat < (hi - lo).toNat)

/-- The written completions a hub still holds for a ring (R332). -/
def State.written (s : State) (r : Ring) : List Written := s.rg.windows[hubOf r.id].filter (fun w => w.ring == r.id)

/-- REPLAY_FIRST: the lowest CSEQ still in a ring's window (R332). -/
def State.replayFirst (s : State) (r : Ring) : BitVec 32 := match s.written r with
  | w :: _ => w.cseq
  | [] => r.cqTail

/-- Held completions of a ring are written, in CSEQ order, while the CQ has room (R329). -/
def State.writeHeld : Nat → State → Nat → State
  | 0, s, _ => s
  | n + 1, s, id => match s.ring? id with
    | some r => match r.held with
      | e :: rest =>
        if r.room then
          let lostEntry := e.extractLsb' 64 4 == 4#4 && e.extractLsb' 72 8 == 0x08#8
          State.writeHeld n (s.cqWrite { r with held := rest, lostQueued := r.lostQueued && !lostEntry } e) id
        else s
      | [] => s
    | none => s

/-- A ring's CQ_HEAD takes the value read: completions below it leave the window, and held ones are written as room
appears (R329, R332). -/
def State.takeHead (s : State) (r : Ring) (head : BitVec 32) : State :=
  let h := hubOf r.id
  let keep (w : Written) : Bool := w.ring != r.id || seqIn w.cseq head r.cqTail
  ((s.setWindow h (s.rg.windows[h].filter keep)).setRing { r with cqHead := head }).writeHeld r.held.length r.id

/-- SQ_TAIL of a control block. -/
def State.readTail (s : State) (ctrl : Nat) : BitVec 32 := BitVec.ofNat 32 (s.hostNum ctrl 4)

/-- CQ_HEAD of a control block. -/
def State.readHead (s : State) (ctrl : Nat) : BitVec 32 := BitVec.ofNat 32 (s.hostNum (ctrl + 8) 4)

/-- SQ_TAIL and CQ_HEAD of a ring are read (R308, R329). -/
def State.readControl (s : State) (id : Nat) : State :=
  match s.ring? id with
  | some r => (s.setRing { r with sqTail := s.readTail r.ctrlAddr }).takeHead { r with sqTail := s.readTail r.ctrlAddr }
      (s.readHead r.ctrlAddr)
  | none => s

/-- A hub polls its rings: the package has reached RING and the hub is not lost (R606, R536). -/
def State.hubServes (s : State) (h : Hub) : Bool := s.start.level == .ring && !s.rel.hubs[h].lost

/-! ### Contexts, quotas, grants and seeds -/

/-- A context as CONTEXT_CREATE leaves it: quotas 0, seed 0, no plan (R136, R285). -/
def Ctx.fresh (id : Nat) : Ctx :=
  let l : Ledger := { quota := 0, charge := 0, peak := 0 }
  { id := id, seedLo := 0, seedHi := 0, shade := l, umbra := l, penumbra := l, spills := 0, active := none, staged := none,
    planRing := 0, rules := [], step := none, counts := StepCounts.zero, exhausted := [], streams := [], binding := none,
    mark := 0, lastStep := none }

/-- What R313 checks of CONTEXT_CREATE. -/
def contextCreateSpec : DescSpec :=
  { job := false, admin := true, used := [(91, 80)] }

/-- CONTEXT_CREATE: refused while direct mode holds channels and while a self-test on demand runs (R333, R383, R552). -/
def execContextCreate (d : Desc) (s : State) : Out :=
  .next (s.withDesc d contextCreateSpec (fun t s =>
    let id := d.f 91 80
    if (s.ctx? id).isSome then s.complete t { status := 0x50 }
    else if s.mov.hubs.toList.any (fun m : Movers => m.directGranted != 0)
        || s.rel.bist.state == 2 then s.complete t { status := 0x54 }
    else ({ s with ctxs := s.ctxs ++ [Ctx.fresh id] }).complete t { status := 0 }))

/-- What R313 checks of SET_QUOTA. -/
def setQuotaSpec (d : Desc) : DescSpec :=
  let tier := d.f 67 64
  let n := d.f 191 128
  { job := false, admin := true, used := [(67, 64), (91, 80), (191, 128)]
    range := 2 ≤ tier && tier ≤ 4 && n % granule tier == 0 }

/-- SET_QUOTA (R136, R142). -/
def execSetQuota (d : Desc) (s : State) : Out :=
  let tier := d.f 67 64
  let n := d.f 191 128
  .next (s.withDesc d (setQuotaSpec d) (fun t s =>
    match s.ctx? (d.f 91 80) with
    | none => s.complete t { status := 0x51 }
    | some c =>
      let l := c.ledger tier
      if l.quota < n && s.capacity tier < s.quotaSum tier - l.quota + n then s.complete t { status := 0x17 }
      else (s.setCtx (c.setLedger tier { l with quota := n })).complete t
        { status := 0, result := BitVec.ofNat 64 l.quota }))

/-- Whether a stack that holds mapped frames of a peer's window is frozen (R402). -/
def State.exportFrozen (s : State) (p : Peer) : Bool :=
  p.frameStacks.any (fun f => let st := s.units.stack[Fin.ofNat 8 f.2]; st == UnitState.frozen || st == UnitState.emptied)

/-- What R313 checks of SET_EXPORT. -/
def setExportSpec (d : Desc) : DescSpec :=
  let n := d.f 191 128
  { job := false, admin := true, used := [(69, 64), (191, 128)]
    range := d.f 69 64 < 32 && n % 2097152 == 0 }

/-- SET_EXPORT: the Umbra granted to the peer of a bundle; a change is told by GRANT (R137, R402). -/
def execSetExport (d : Desc) (s : State) : Out :=
  let n := d.f 191 128
  .next (s.withDesc d (setExportSpec d) (fun t s =>
    match s.bundlePeer (Fin.ofNat 32 (d.f 69 64)) with
    | none => s.complete t { status := 0x60 }
    | some pkg =>
      let p := (s.peer? pkg).getD (Peer.fresh pkg 0)
      if p.grantGiven < n && s.capacity 3 + p.grantGiven < s.quotaSum 3 + n then s.complete t { status := 0x17 }
      else
        let s' := s.setPeer { p with grantGiven := n }
        let s' := if n = p.grantGiven then s' else s'.sendGrant pkg (s.exportFrozen p)
        s'.complete t { status := 0, result := BitVec.ofNat 64 p.grantGiven }))

/-- What R313 checks of SET_SEED. -/
def setSeedSpec : DescSpec :=
  { job := false, admin := true, used := [(91, 80), (255, 128)] }

/-- SET_SEED (R285). -/
def execSetSeed (d : Desc) (s : State) : Out :=
  .next (s.withDesc d setSeedSpec (fun t s =>
    match s.ctx? (d.f 91 80) with
    | none => s.complete t { status := 0x51 }
    | some c => (s.setCtx { c with seedLo := BitVec.ofNat 64 (d.f 191 128), seedHi := BitVec.ofNat 64 (d.f 255 192) }).complete
        t { status := 0 }))

/-! ### Ring structures (R301, R302) -/

/-- The host ranges of a ring's structures. -/
def spansOf (ctrl sq sqOrder cq cqOrder : Nat) : List (Nat × Nat) :=
  [(ctrl, 128), (sq, 64 * ringSize sqOrder), (cq, 16 * ringSize cqOrder)]

/-- The host ranges of a ring. -/
def Ring.spans (r : Ring) : List (Nat × Nat) := spansOf r.ctrlAddr r.sqAddr r.sqOrder r.cqAddr r.cqOrder

/-- The ranges that the structures a command names for ring `id` may not meet: the admin region, the mailboxes and the
structures of the other rings in use (R302). -/
def State.takenRanges (s : State) (id : Nat) : List (Nat × Nat) :=
  [(s.rg.adminUsed.toNat, 0x8000), (s.rg.adminUsed.toNat + 0x8000, 0x400)]
    ++ (s.rg.list.filter (fun r => r.id ≠ id)).flatMap Ring.spans

/-- Whether a command's structures overlap what R302 lists. -/
def State.spansBad (s : State) (id : Nat) (l : List (Nat × Nat)) : Bool :=
  (l.zipIdx).any (fun x => (l.drop (x.2 + 1)).any (rangesMeet x.1) || (s.takenRanges id).any (rangesMeet x.1))

/-- The ring number of an admin command. -/
def ringArg (d : Desc) : Nat := d.f 79 64

/-- The geometry RING_CREATE and RING_ATTACH name is in its ranges (R301, Table 9-16). -/
def geometryOk (d : Desc) : Bool := d.f 95 92 ≤ 10 && d.f 99 96 ≤ 10 && 1 ≤ d.f 112 100 && d.f 112 100 ≤ 4096

/-- The ranges RING_CREATE and RING_ATTACH name. -/
def spansArg (d : Desc) : List (Nat × Nat) := spansOf (d.f 191 128) (d.f 255 192) (d.f 95 92) (d.f 319 256) (d.f 99 96)

/-- What R313 checks of RING_CREATE. -/
def ringCreateSpec (d : Desc) : DescSpec :=
  { job := false, admin := true, used := [(112, 64), (319, 128)], range := geometryOk d
    addrs := [(d.f 191 128, 64), (d.f 255 192, 64), (d.f 319 256, 64)] }

/-- RING_CREATE (R301, R302, R304, R333). -/
def execRingCreate (d : Desc) (s : State) : Out :=
  .next (s.withDesc d (ringCreateSpec d) (fun t s =>
    let id := ringArg d
    if id = 0 then s.complete t { status := 0x53 }
    else if (s.ring? id).isSome then s.complete t { status := 0x52 }
    else if (s.ctx? (d.f 91 80)).isNone then s.complete t { status := 0x51 }
    else if s.spansBad id (spansArg d) then s.complete t { status := 0x05 }
    else
      let r : Ring :=
        { id := id, ctx := d.f 91 80, state := .active, sqOrder := d.f 95 92, cqOrder := d.f 99 96, limit := d.f 112 100,
          ctrlAddr := d.f 191 128, sqAddr := d.f 255 192, cqAddr := d.f 319 256, sqHead := 0, sqTail := 0, lastSseq := 0,
          cqTail := 0, cqHead := 0, held := [], lost := 0, lostQueued := false, inflight := [], suspect := none,
          deaf := false, destroying := none }
      ({ s with rg := { s.rg with list := s.rg.list ++ [r] } }).complete t { status := 0 }))

/-- What R313 checks of RING_DESTROY. -/
def ringDestroySpec : DescSpec :=
  { job := false, admin := true, used := [(79, 64)] }

/-- RING_DESTROY: it stops fetching, and completes once the ring's commands in flight have ended (Table 9-17). One for a
ring that is being destroyed waits for that. -/
def execRingDestroy (d : Desc) (s : State) : Out :=
  .next (s.withDesc d ringDestroySpec (fun t s =>
    let id := ringArg d
    match s.ring? id with
    | none => s.complete t { status := 0x53 }
    | some r =>
      if id = 0 then s.complete t { status := 0x53 }
      else if r.destroying.isSome then s
      else (s.setRing { r with destroying := some t }).endDestroy id))

/-- The record of a ring (Table 9-18); all zero for an UNUSED ring. -/
def State.ringRecord (s : State) (id : Nat) : List Byte :=
  match s.ring? id with
  | none => List.replicate 64 0
  | some r =>
    let batches := match s.ctx? r.ctx with
      | some c => if id ≠ 0 && c.active.isSome && c.planRing == id then ((c.step.map StepRun.inFlight).getD 0) else 0
      | none => 0
    leBytes 1 (if r.state == .active then 1 else 2) ++ leBytes 1 r.sqOrder ++ leBytes 1 r.cqOrder ++ leBytes 1 0
      ++ leBytes 2 (if id = 0 then 0 else r.ctx) ++ leBytes 2 r.limit ++ leBytes 4 r.sqHead.toNat
      ++ leBytes 4 r.lastSseq.toNat ++ leBytes 4 r.cqTail.toNat ++ leBytes 4 r.cqHead.toNat
      ++ leBytes 4 r.inflight.length ++ leBytes 4 r.held.length ++ leBytes 4 r.lost.toNat
      ++ leBytes 4 (s.replayFirst r).toNat ++ leBytes 2 batches ++ leBytes 6 0 ++ leBytes 8 r.ctrlAddr ++ leBytes 8 0

/-- What R313 checks of GET_RING_STATE. -/
def getRingStateSpec (d : Desc) : DescSpec :=
  let n := if d.f 127 120 = 0 then 256 else d.f 127 120
  { job := false, admin := true, needX := true, used := [(79, 64), (127, 120)]
    range := ringArg d + n ≤ 65536 }

/-- GET_RING_STATE: a record per ring (Table 9-17). -/
def execGetRingState (d : Desc) (s : State) : Out :=
  let n := if d.f 127 120 = 0 then 256 else d.f 127 120
  .next (s.withDesc d (getRingStateSpec d) (fun t s =>
    s.complete t { status := 0, result := BitVec.ofNat 64 n
                   xbytes := (List.range n).flatMap (fun i => s.ringRecord (ringArg d + i)) }))

/-- RING_ATTACH on a ring it may name: the completions of its window from REPLAY_FROM on wait to be written to the new
CQ, and are written as far as it has room (R336, R329). -/
def State.attach (s : State) (r : Ring) (d : Desc) (t : Ticket) : State :=
  let from_ := BitVec.ofNat 32 (d.f 351 320)
  let ctrl := d.f 191 128
  let first := s.replayFirst r
  if s.spansBad r.id (spansArg d) then s.complete t { status := 0x05 }
  else if (r.cqTail - first).toNat < (from_ - first).toNat then s.complete t { status := 0x55 }
  else if s.readHead ctrl ≠ from_ || s.readTail ctrl ≠ r.sqHead then s.complete t { status := 0x03 }
  else
    let again := ((s.written r).filter (fun w => seqIn w.cseq from_ r.cqTail)).map Written.entry
    let h := hubOf r.id
    let s := s.setWindow h (s.rg.windows[h].filter (fun w => w.ring ≠ r.id))
    let s := (s.hostWrite (ctrl + 64) (leBytes 8 r.sqHead.toNat)).hostWrite (ctrl + 72) (leBytes 8 r.cqTail.toNat)
    let r := { r with state := .active, sqOrder := d.f 95 92, cqOrder := d.f 99 96, limit := d.f 112 100, ctrlAddr := ctrl,
                      sqAddr := d.f 255 192, cqAddr := d.f 319 256, sqTail := r.sqHead, cqHead := from_, cqTail := from_,
                      held := again ++ r.held, suspect := none }
    let s := (s.setRing r).writeHeld r.held.length r.id
    let n := match s.ring? r.id with
      | some x => (x.cqTail - from_).toNat
      | none => 0
    s.complete t { status := 0, result := BitVec.ofNat 64 n }

/-- What R313 checks of RING_ATTACH. -/
def ringAttachSpec (d : Desc) : DescSpec :=
  { job := false, admin := true, used := [(79, 64), (112, 92), (351, 128)], range := geometryOk d
    addrs := [(d.f 191 128, 64), (d.f 255 192, 64), (d.f 319 256, 64)] }

/-- RING_ATTACH (R302, R336). -/
def execRingAttach (d : Desc) (s : State) : Out :=
  .next (s.withDesc d (ringAttachSpec d) (fun t s =>
    match s.ring? (ringArg d) with
    | some r => if r.id = 0 then s.complete t { status := 0x53 } else s.attach r d t
    | none => s.complete t { status := 0x53 }))

/-- What R313 checks of RING_RESUME. -/
def ringResumeSpec : DescSpec :=
  { job := false, admin := true, used := [(79, 64)] }

/-- RING_RESUME: a STOPPED ring is ACTIVE again, and its control block is read (Table 9-17). -/
def execRingResume (d : Desc) (s : State) : Out :=
  .next (s.withDesc d ringResumeSpec (fun t s =>
    match s.ring? (ringArg d) with
    | some r =>
      if r.id = 0 then s.complete t { status := 0x53 }
      else if r.state == RingState.active then s.complete t { status := 0 }
      else ((s.setRing { r with state := .active, suspect := none }).readControl r.id).complete t { status := 0 }
    | none => s.complete t { status := 0x53 }))

/-! ### Doorbells (R305 to R308) -/

/-- The host address of summary line `n` of 64 bytes. -/
def State.lineAddr (s : State) (n : Nat) : Nat := s.rg.adminUsed.toNat + 64 * n

/-- A hub issues SWAP0 for every word of a summary line that is not zero (R308). -/
def State.swapLine (s : State) (h : Hub) (line : Nat) : State :=
  (List.range 8).foldl (fun (s : State) w =>
    let a := s.lineAddr line + 8 * w
    if s.hostNum a 8 = 0 then s
    else
      let p := s.rg.ports[h]
      let m : HMsg := { typ := 3, addr := a, tag := p.nextTag, arg := 0, len := 8 }
      let q : PortReq := { tag := p.nextTag, addr := a, len := 8, since := s.tick, use := .summary (8 * line + w) }
      s.setPort h (({ p with swaps := p.swaps ++ [q], nextTag := p.nextTag + 1 } : HostPort).send m)) s

/-- SUMMARY_POLL: a hub reads its 32 summary lines (R307, R308). -/
def execSummaryPoll (hub : Hub) (s : State) : Out :=
  if s.hubServes hub then .next ((List.range 32).foldl (fun (s : State) i => s.swapLine hub (32 * hub.val + i)) s)
  else .next s

/-- WATCH: with WATCH_EN, a hub reads the line of its own that the message names (R307). -/
def execWatch (hub : Hub) (line : BitVec 7) (s : State) : Out :=
  if s.hubServes hub && s.regs.hubs[hub].watchEn && line.toNat / 32 == hub.val then .next (s.swapLine hub line.toNat)
  else .next s

/-- A doorbell of a ring has been found: its SQ_TAIL and CQ_HEAD are read; that of a ring that is not ACTIVE is discarded
and recorded, and ring 0's is ignored while it attaches (R308, R337). -/
def State.rang (s : State) (h : Hub) (id : Nat) : State :=
  match s.ring? id with
  | some r => if r.state == RingState.active then (if r.deaf then s else s.readControl id)
      else s.event h (ev 0x00A2 0 id)
  | none => s.event h (ev 0x00A2 0 id)

/-- SWAP_DATA: the exchange of a SWAP0 has put zero in its word; each bit it held is a doorbell of the ring R305 gives
(R305, R308, R342). -/
def execSwapData (hub : Hub) (tag : BitVec 16) (s : State) : Out :=
  let p := s.rg.ports[hub]
  match p.swaps.find? (fun q : PortReq => q.tag == tag) with
  | none => .next s
  | some q =>
    let w := s.hostNum q.addr 8
    let s := s.setPort hub { p with swaps := p.swaps.filter (fun x : PortReq => x.tag ≠ tag) }
    let s := s.hostWrite q.addr (List.replicate 8 0)
    let b0 := match q.use with
      | .summary word => 64 * word
      | _ => 8 * (q.addr - s.rg.adminUsed.toNat)
    let bits := ((List.range 64).filter (bitOf w)).map (fun i => b0 + i)
    .next (bits.foldl (fun (s : State) b => s.rang hub (4 * (b % 16384) + b / 16384)) s)

/-! ### Fetching (R309 to R312) -/

/-- Whether an opcode is listed in Table 9-4 and the tables it names. -/
def opcodeListed (n : Nat) : Bool :=
  n ≤ 0x09 || (0x10 ≤ n && n ≤ 0x13) || n == 0x18 || n == 0x19 || (0x40 ≤ n && n ≤ 0x45) || (0x50 ≤ n && n ≤ 0x55)
    || (0x80 ≤ n && n ≤ 0x89) || (0xA0 ≤ n && n ≤ 0xA2) || (0xB0 ≤ n && n ≤ 0xB2) || (0xC0 ≤ n && n ≤ 0xC3)
    || (0xC8 ≤ n && n ≤ 0xCD) || (0xD0 ≤ n && n ≤ 0xD4) || (0xE0 ≤ n && n ≤ 0xE4)

/-- The 64 bytes of slot `q` of a ring, as a number. -/
def State.slotOf (s : State) (r : Ring) (q : BitVec 32) : BitVec 512 :=
  BitVec.ofNat 512 (s.hostNum (r.sqAddr + 64 * (q.toNat % ringSize r.sqOrder)) 64)

/-- What is left of a fetch run: the ring as it stands, the descriptors to act on and whether the run goes on. -/
structure FetchRun where
  ring : Ring
  bad : List Fetched
  left : Nat
  on : Bool

/-- One descriptor of a run: a slot whose SSEQ differs ends the run and is read again later (R310); an extended form
takes four slots (R312). -/
def State.fetchOne (s : State) (f : FetchRun) : FetchRun :=
  let r := f.ring
  let n := (r.sqTail - r.sqHead).toNat
  if !f.on || f.left = 0 || n = 0 || r.limit ≤ r.inflight.length then { f with on := false }
  else
    let w := s.slotOf r r.sqHead
    let size := if w.getLsbD 55 then 4 else 1
    if w.extractLsb' 0 32 ≠ r.sqHead then { f with on := false, ring := { r with suspect := some (r.sqHead, s.tick) } }
    else if n < size || f.left < size then { f with on := false }
    else
      let pay := s.slotOf r (r.sqHead + 3) ++ s.slotOf r (r.sqHead + 2) ++ s.slotOf r (r.sqHead + 1)
      let x : Fetched := { sseq := r.sqHead, slot := w, payload := if size = 4 then pay else 0 }
      let r := { r with sqHead := r.sqHead + BitVec.ofNat 32 size, lastSseq := x.sseq, inflight := r.inflight ++ [x] }
      { ring := r, bad := if opcodeListed (bitsOf w.toNat 63 56) then f.bad else f.bad ++ [x], left := f.left - size,
        on := true }

/-- The descriptors of a run, at most 64 slots (R309). -/
def State.fetchRun (s : State) (r : Ring) : FetchRun :=
  (List.range 64).foldl (fun f _ => s.fetchOne f) { ring := r, bad := [], left := 64, on := true }

/-- Whether a ring fetches: ACTIVE, none of its completions held, and not being destroyed (R309, R330, Table 9-17). -/
def Ring.fetches (r : Ring) : Bool :=
  r.state == RingState.active && r.held.isEmpty && r.destroying.isNone && r.suspect.isNone && !r.deaf

/-- DESCRIPTOR_FETCH: the slots from SQ_HEAD up to SQ_TAIL are copied, SQ_HEAD is written, and a descriptor whose OPCODE
is not listed ends with BAD_OPCODE (R309 to R313). Fetching stops in a quench and once a shut-down has begun (R615, R621). -/
def execDescriptorFetch (ring : BitVec 16) (s : State) : Out :=
  match s.ring? ring.toNat with
  | none => .next s
  | some r =>
    if !s.serves r.id || s.stalled || s.shutting || !r.fetches || ringSize r.sqOrder < (r.sqTail - r.sqHead).toNat then .next s
    else
      let f := s.fetchRun r
      let s := s.setRing f.ring
      let s := if f.ring.sqHead = r.sqHead then s else s.hostWrite (r.ctrlAddr + 64) (leBytes 8 f.ring.sqHead.toNat)
      .next (f.bad.foldl (fun (s : State) (x : Fetched) =>
        s.complete { ring := r.id, sseq := x.sseq, quiet := false, xres := false, resultAddr := 0 } { status := 0x01 }) s)

/-- Two microseconds, in ticks. -/
def twoUs : Nat := 313

/-- A ring stops for a slot or tail that cannot be: kind RING, status SEQ_GAP, naming a sequence number; the manual does
not give the count beside it (R310, R311, Table 9-13). -/
def State.seqGap (s : State) (r : Ring) (named : BitVec 32) : State :=
  let s := s.setRing { r with state := .stopped, suspect := none }
  let s := s.event (hubOf r.id) (ev 0x00A0 2 (r.id + named.toNat * 2 ^ 32))
  let (n, s) := s.fresh 32
  s.post r.id false 0 0x07 0 false 4 (n ++ named)

/-- SEQ_GAP: a slot read again after 2 µs still differs, or SQ_TAIL lies beyond the SQ: the ring stops (R310, R311). A
slot that now agrees is fetched. -/
def execSeqGap (ring : BitVec 16) (s : State) : Out :=
  match s.ring? ring.toNat with
  | none => .next s
  | some r =>
    if !s.serves r.id || r.state != RingState.active then .next s
    else if ringSize r.sqOrder < (r.sqTail - r.sqHead).toNat then .next (s.seqGap r r.sqTail)
    else match r.suspect with
      | some (q, t) =>
        if s.tick < t + twoUs then .next s
        else if (s.slotOf r q).extractLsb' 0 32 = q then .next (s.setRing { r with suspect := none })
        else .next (s.seqGap r q)
      | none => .next s

/-- Whether the last CQ_HEAD read leaves fewer than a quarter of the CQ free (R329). -/
def Ring.tight (r : Ring) : Bool := decide (4 * (ringSize r.cqOrder - (r.cqTail - r.cqHead).toNat) < ringSize r.cqOrder)

/-- CQ_HEAD_REREAD: CQ_HEAD is read again while less than a quarter of the CQ is free, and held completions are written
(R329, R332). -/
def execCqHeadReread (ring : BitVec 16) (s : State) : Out :=
  match s.ring? ring.toNat with
  | none => .next s
  | some r => if s.serves r.id && (r.tight || !r.held.isEmpty) then .next (s.takeHead r (s.readHead r.ctrlAddr)) else .next s

end Sys2Proof.Machine
end

