-- ==== Sys2Proof/Machine/Ports.lean ====
section
/-!
DEFINITION. The host ports: flits received and sent again, answers to reads and fences, failures and time-outs, and
modules left out (R31, R32, R157, R338 to R346, R376).
-/
namespace Sys2Proof.Machine

/-! ### Flits (R340, R344, R345) -/

/-- An ACK, or a NAK's ACK, covers the control flits up to the one it names. -/
def HostPort.acked (p : HostPort) (ack : BitVec 16) : HostPort :=
  { p with unacked := p.unacked.filter (fun f => decide (2 ^ 15 ≤ (ack - f.seq).toNat)) }

/-- A control flit that arrives whole and in order is taken: it is acknowledged, its ACK, NAK and credits act, and
messages that wait leave. -/
def HostPort.take (p : HostPort) (f : HostFlit) : HostPort :=
  let p := p.acked f.ack
  ({ p with rxExpect := p.rxExpect + 1, ackOut := f.seq, nakOut := false, nakSeen := p.nakSeen || f.nak,
            msgCredits := p.msgCredits + f.creditMsgs, dataCredits := p.dataCredits + f.creditData } : HostPort).pump

/-- HOST_FLIT_RECEIVE: a flit that fails FCRC or a DCRC, or that follows one, is discarded and NAKed; during retraining
none is taken (R344). -/
def execHostFlitReceive (hub : Hub) (f : HostFlit) (s : State) : Out :=
  let p := s.rg.ports[hub]
  if p.retraining then .next s
  else if !f.fcrcOk || !f.dcrcOk then .next (s.setPort hub { p with nakOut := true })
  else if f.seq ≠ p.rxExpect then .next s
  else .next (s.setPort hub (p.take f))

/-- A port retrains: requests wait, and locks held through the port are ABANDONED (R344, R488). -/
def State.retrainPort (s : State) (h : Hub) : State :=
  let p := s.rg.ports[h]
  (s.setPort h { p with retraining := true, nakSeen := false }).abandonWhere h (fun b => b == BitVec.ofNat 8 (128 + h.val))

/-- HOST_PORT_RESEND: on NAK the port sends again from ACK + 1; a control flit sent again 8 times makes it retrain
(R344). -/
def execHostPortResend (hub : Hub) (s : State) : Out :=
  let p := s.rg.ports[hub]
  if !p.nakSeen || p.retraining then .next s
  else if p.unacked.any (fun f : HFlit => 8 ≤ f.resends) then .next (s.retrainPort hub)
  else
    let fs := p.unacked.map (fun f : HFlit => ({ f with resends := f.resends + 1 } : HFlit))
    .next (s.setPort hub { p with unacked := fs, nakSeen := false })

/-- HOST_PORT_RETRAINED: a port's retraining ends and it goes on, with what waited; or a module left out rejoins
(R344, R338). -/
def execHostPortRetrained (hub : Hub) (module : Option (Fin 16)) (s : State) : Out :=
  let p := s.rg.ports[hub]
  match module with
  | some m =>
    if p.modules.getLsbD m.val then .next s
    else .next ((s.setPort hub { p with modules := p.modules ||| (1#16 <<< m.val) }).event hub (evU 0x0055 1 12 m.val m.val))
  | none =>
    if !p.retraining then .next s
    else
      let fs := p.unacked.map (fun f : HFlit => ({ f with resends := 0 } : HFlit))
      .next (s.setPort hub ({ p with retraining := false, unacked := fs } : HostPort).pump)

/-- HOST_MODULE_LEFT_OUT: a module that fails training is left out (R338). -/
def execHostModuleLeftOut (hub : Hub) (module : Fin 16) (s : State) : Out :=
  let p := s.rg.ports[hub]
  if p.modules.getLsbD module.val then
    .next ((s.setPort hub { p with modules := p.modules &&& ~~~(1#16 <<< module.val) }).event hub
      (evU 0x0055 1 12 module.val (module.val + 16)))
  else .next s

/-! ### Answers to reads (R157, R316, R343) -/

/-- A host-port read or write that failed is recorded (R157). -/
def State.portError (s : State) (h : Hub) (addr : Nat) : State := s.event h (ev 0x0033 2 addr)

/-- A request of a read that failed ends with TIER_FAULT (R157). -/
def State.readFailed (s : State) (h : Hub) (q : PortReq) : State :=
  let s := s.portError h q.addr
  match q.use with
  | .readyBlock k _ => match s.handle? k with
    | some x => s.failFill x 0x22
    | none => s
  | .summary _ => s
  | .other => s

/-- A block read for a fill arrives, poisoned where a flit of it is marked (R198, R343, R526); with the last block, the
run whose input it fills goes on (R236). -/
def State.blockIn (s : State) (k : HKey) (b : Nat) (marked : Bool) : State :=
  let s := s.takeBlocks k b 1
  let s := match s.handle? k with
    | some h =>
      if marked && b ∉ h.marks.poison then
        (s.setHandle { h with marks := { h.marks with poison := h.marks.poison ++ [b] } }).poisonCreated k.entry h.word
      else s
    | none => s
  match s.handle? k with
  | some h => match h.fill with
    | some f => match f.run with
      | some id => if h.sourceIn f then s.feedRun id k else s
      | none => s
    | none => s
  | none => s

/-- RD_DATA: the answer to the read of a tag (R157, R343). -/
def execRdData (hub : Hub) (tag : BitVec 16) (error : Bool) (poison : BitVec 16) (s : State) : Out :=
  let p := s.rg.ports[hub]
  match p.reads.find? (fun q : PortReq => q.tag == tag) with
  | none => .next s
  | some q =>
    let s := s.setPort hub { p with reads := p.reads.filter (fun x : PortReq => x.tag ≠ tag) }
    if error then .next (s.readFailed hub q)
    else .next (match q.use with
      | .readyBlock k b => s.blockIn k b (poison != 0)
      | .summary _ => s
      | .other => s)

/-! ### Fences (R31, R32, R346) -/

/-- What waited for fences ends, with its own status: a command's completion, a batch's restore, or a stream's layer. -/
def State.endWait (s : State) (w : FenceWait) (status : BitVec 8) : State :=
  let n := w.result.toNat
  if w.kind = 2 then s.batchEnded (n / 2 ^ 24) (n / 4096 % 4096) (n % 4096) status
  else if w.kind = 3 then
    s.layerEnded (n / 2 ^ 50) (n / 2 ^ 44 % 64) (n / 65536 % 2 ^ 28) (n % 65536) status (w.flags.getLsbD 2)
  else s.complete w.ticket { status := status, flags := w.flags, result := if status = w.status then w.result else 0,
                             xbytes := w.xbytes }

/-- FENCE_ACK: a fence is answered; what waited for it alone ends (R31, R32). -/
def execFenceAck (hub : Hub) (number : BitVec 32) (s : State) : Out :=
  let p := s.rg.ports[hub]
  if !p.fences.any (fun f : PortFence => f.number == number) then .next s
  else
    let s := s.setPort hub { p with fences := p.fences.filter (fun f : PortFence => f.number ≠ number) }
    let ws : List FenceWait := s.rg.fenceWaits.map (fun w : FenceWait =>
      ({ w with fences := w.fences.filter (fun f => f ≠ (hub, number)) } : FenceWait))
    let over_ := ws.filter (fun w : FenceWait => w.fences.isEmpty)
    let s := { s with rg := { s.rg with fenceWaits := ws.filter (fun w : FenceWait => !w.fences.isEmpty) } }
    .next (over_.foldl (fun (s : State) (w : FenceWait) => s.endWait w w.status) s)

/-- Whatever waits on a test of its fences or writes ends with TIER_FAULT (R157, R346). -/
def State.failWaits (s : State) (p : FenceWait → Bool) : State :=
  let hit := s.rg.fenceWaits.filter p
  let s := { s with rg := { s.rg with fenceWaits := s.rg.fenceWaits.filter (fun w => !p w) } }
  hit.foldl (fun (s : State) (w : FenceWait) => s.endWait w 0x22) s

/-- The channels of a hub whose SYNC HOST waits for a fence. -/
def State.fenceChans (s : State) (h : Hub) (number : BitVec 32) : List Nat :=
  (List.range 64).filter (fun c => (s.chan h c).fence == some number)

/-- FENCE_TIMEOUT: a fence unanswered for 10 ms ends what it was sent behind, and the port retrains; the manual names no
address for the event (R346). -/
def execFenceTimeout (hub : Hub) (number : BitVec 32) (s : State) : Out :=
  let p := s.rg.ports[hub]
  match p.fences.find? (fun f : PortFence => f.number == number) with
  | none => .next s
  | some f =>
    if s.tick < f.since + 10 * msTicks then .next s
    else
      let s := s.setPort hub { p with fences := p.fences.filter (fun f : PortFence => f.number ≠ number) }
      let s := s.failWaits (fun w : FenceWait => (hub, number) ∈ w.fences)
      let s := (s.fenceChans hub number).foldl (fun (s : State) c => s.haltChan hub c 6 true false) s
      let (a, s) := s.fresh 57
      .next ((s.portError hub a.toNat).retrainPort hub)

/-- HOST_PORT_TIMEOUT: a read or exchange unanswered for 10 ms ends its request with TIER_FAULT (R157). -/
def execHostPortTimeout (hub : Hub) (tag : BitVec 16) (s : State) : Out :=
  let p := s.rg.ports[hub]
  match (p.reads ++ p.swaps).find? (fun q : PortReq => q.tag == tag) with
  | none => .next s
  | some q =>
    if s.tick < q.since + 10 * msTicks then .next s
    else
      let s := s.setPort hub { p with reads := p.reads.filter (fun x : PortReq => x.tag ≠ tag),
                                      swaps := p.swaps.filter (fun x : PortReq => x.tag ≠ tag) }
      .next (s.readFailed hub q)

/-- WR_ERR: a write failed. A channel whose transfer sent it halts, LATE once the transfer's pulse was raised; a request
still waiting for its fences ends with TIER_FAULT (R157, R376). The manual names no address for the event. -/
def execWrErr (hub : Hub) (tag : BitVec 16) (s : State) : Out :=
  let p := s.rg.ports[hub]
  match p.writes.find? (fun w : PortWrite => w.tag == tag) with
  | some w =>
    let s := s.setPort hub { p with writes := p.writes.filter (fun x : PortWrite => x.tag ≠ tag) }
    .next (s.haltChan hub w.ch 1 true w.late)
  | none =>
    let (a, s) := s.fresh 57
    .next ((s.portError hub a.toNat).failWaits (fun w : FenceWait => (hub, tag) ∈ w.writes))

end Sys2Proof.Machine
end

