-- ==== Sys2Proof/Machine/RegMap.lean ====
section
/-!
DEFINITION. The map of a hub's register window (R654, Table 20-3, Table 10-2).
-/
namespace Sys2Proof.Machine

/-- The registers of a mover channel's block (Table 10-2); shadow and active words by their word offset. -/
inductive MovReg where
  | shadow (word : Nat) | active (word : Nat)
  | status | progressLo | progressHi | errLo | errHi | errInfo | cmpCount | cmpFirstLo | cmpFirstHi | checkFail | cmd | prio
deriving DecidableEq, Repr

/-- The registers of Table 20-3. -/
inductive WinReg where
  | hubId | hubFw | pkgIdLo | pkgIdHi | epoch | scratch | tie0 | tie1 | tieAdminLo | tieAdminHi | tieBist
  | adminBaseLo | adminBaseHi | adminAttach | hubCtrl | hubStatus | regErr | hubStart | dupCtrl | scrubCtrl
  | pwrMode | pwrCap | pwrPower | pwrStatus | pwrPace (n : Nat) | tickLo | tickHi | pwrIdle | pwrIdleStack | pwrTemp
  | pwrDomain
  | quenchCfg | quenchStatus | quenchCtrl | pinAlert | shdnCfg | mfSel0 | mfSel1 | mfOut | mfIn
  | evrCtrl | evrStatus | evrNewest | evrReadSlot | evrData (n : Nat) | ctxSel | ctxData (n : Nat)
  | storeStatus | storeJseq | storeWear
  | synCtrl | hctrBaseLo | hctrBaseHi | ctrSel | ctrCfg | ctrVal
  | barCfg (b : Nat) | barCfg2 (b : Nat) | barStatus (b : Nat) | synLock (l : Nat)
  | lnkCtrl | laneBer | lnkIdle | lnkState
  | bistBudget | bistCtrl | bistStatus | bistRun | fieldCtrl
  | movDirect | movEvtPend | mov (c : Nat) (r : MovReg)
deriving DecidableEq, Repr

/-- The registers with an offset of their own. -/
def regList : List (Nat × WinReg) :=
  [(0x0000, .hubId), (0x0004, .hubFw), (0x0008, .pkgIdLo), (0x000C, .pkgIdHi), (0x0010, .epoch), (0x0014, .scratch),
   (0x0020, .tie0), (0x0024, .tie1), (0x0028, .tieAdminLo), (0x002C, .tieAdminHi), (0x0030, .tieBist),
   (0x0040, .adminBaseLo), (0x0044, .adminBaseHi), (0x0048, .adminAttach), (0x0050, .hubCtrl), (0x0054, .hubStatus),
   (0x0058, .regErr), (0x005C, .hubStart), (0x0060, .dupCtrl), (0x0064, .scrubCtrl)]
  ++ [(0x0100, .pwrMode), (0x0104, .pwrCap), (0x0108, .pwrPower), (0x010C, .pwrStatus), (0x0128, .tickLo),
   (0x012C, .tickHi), (0x0130, .pwrIdle), (0x0134, .pwrIdleStack), (0x0138, .pwrTemp), (0x013C, .pwrDomain),
   (0x0200, .quenchCfg), (0x0204, .quenchStatus), (0x0208, .quenchCtrl), (0x020C, .pinAlert), (0x0210, .shdnCfg),
   (0x0214, .mfSel0), (0x0218, .mfSel1), (0x021C, .mfOut), (0x0220, .mfIn)]
  ++ [(0x0300, .evrCtrl), (0x0304, .evrStatus), (0x0308, .evrNewest), (0x030C, .evrReadSlot), (0x0330, .ctxSel),
   (0x0380, .storeStatus), (0x0384, .storeJseq), (0x0388, .storeWear),
   (0x0400, .synCtrl), (0x0404, .hctrBaseLo), (0x0408, .hctrBaseHi), (0x040C, .ctrSel), (0x0410, .ctrCfg),
   (0x0414, .ctrVal)]
  ++ [(0x0800, .lnkCtrl), (0x0804, .laneBer), (0x0808, .lnkIdle), (0x080C, .lnkState),
   (0x0900, .bistBudget), (0x0904, .bistCtrl), (0x0908, .bistStatus), (0x090C, .bistRun), (0x0910, .fieldCtrl)]

/-- The word offsets of a register set: the source's seven words, the destination's, MOV_CTRL and the fill constant. -/
def movSetWord (w : Nat) : Bool := w ≤ 6 || (8 ≤ w && w ≤ 14) || (16 ≤ w && w ≤ 18)

/-- What an offset of a channel's block names. -/
def movRegAt (x : Nat) : Option MovReg :=
  if x < 0x80 then (if movSetWord (x / 4) then some (.shadow (x / 4)) else none)
  else if x < 0xCC then (if movSetWord (x / 4 - 32) then some (.active (x / 4 - 32)) else none)
  else match x with
    | 0xCC => some .status
    | 0xD0 => some .progressLo
    | 0xD4 => some .progressHi
    | 0xD8 => some .errLo
    | 0xDC => some .errHi
    | 0xE0 => some .errInfo
    | 0xE4 => some .cmpCount
    | 0xE8 => some .cmpFirstLo
    | 0xEC => some .cmpFirstHi
    | 0xF0 => some .checkFail
    | 0xF8 => some .cmd
    | 0xFC => some .prio
    | _ => none

/-- What an offset names on a hub that holds it (Table 20-3); none where the table lists nothing. -/
def regAt (off : Nat) : Option WinReg :=
  if off % 4 ≠ 0 then none
  else if 0x0110 ≤ off && off < 0x0128 then some (.pwrPace ((off - 0x0110) / 4))
  else if 0x0310 ≤ off && off < 0x0330 then some (.evrData ((off - 0x0310) / 4))
  else if 0x0340 ≤ off && off < 0x0380 then some (.ctxData ((off - 0x0340) / 4))
  else if 0x0440 ≤ off && off < 0x04C0 then
    (match off % 16 with
      | 0 => some (.barCfg ((off - 0x0440) / 16))
      | 4 => some (.barCfg2 ((off - 0x0440) / 16))
      | 8 => some (.barStatus ((off - 0x0440) / 16))
      | _ => none)
  else if 0x0500 ≤ off && off < 0x0600 then some (.synLock ((off - 0x0500) / 4))
  else if off = 0x8000 then some .movDirect
  else if off = 0x8004 then some .movEvtPend
  else if 0x9000 ≤ off && off < 0xD000 then (movRegAt (off % 256)).map (WinReg.mov ((off - 0x9000) / 256))
  else (regList.find? (fun r => r.1 == off)).map Prod.snd

/-- The registers that hub 0 alone holds (Table 20-3). -/
def WinReg.hub0 : WinReg → Bool
  | .adminBaseLo | .adminBaseHi | .adminAttach | .dupCtrl | .pwrMode | .pwrCap | .pwrPower => true
  | .quenchCfg | .quenchStatus | .quenchCtrl | .pinAlert | .shdnCfg | .mfSel0 | .mfSel1 | .mfOut | .mfIn => true
  | .storeStatus | .storeJseq | .storeWear | .barCfg _ | .barCfg2 _ | .barStatus _ => true
  | .bistBudget | .bistCtrl | .bistStatus | .bistRun => true
  | _ => false

end Sys2Proof.Machine
end

