-- ==== Sys2Proof/Machine/Telemetry.lean ====
section
/-!
DEFINITION. Telemetry: the snapshots each hub latches, and TELEM_READ (R651 to R653).
-/
namespace Sys2Proof.Machine

/-- Two bytes, and four bytes, of a number that fits or saturates. -/
def le2 (n : Nat) : List Byte := leBytes 2 (min n 65535)
def le4 (n : Nat) : List Byte := leBytes 4 (min n 0xFFFFFFFF)

/-- A page of 128 bytes from its items. -/
def page128 (l : List Byte) : List Byte := (l ++ List.replicate 128 0).take 128

/-- The banks of a hub. -/
def hubBanks (h : Hub) : List TierUnit := (List.finRange 16).map (fun b => .shade h b)

/-- Page 0 of a hub (Table 19-6). Corrected errors and check retries of the period are free values: reads of which no
command tells count in them. -/
def State.page0 (s : State) (h : Hub) (x : TelemSample) : List Byte × State :=
  let p := s.pwr.hubs[h]
  let (v, s) := s.fresh 352
  let pace := if p.windows = 0 then leBytes 36 (v.toNat / 2 ^ 64)
    else (List.range 6).flatMap (fun i => le2 (p.lowSilicon.getD i 0) ++ le2 (p.lowDelivered.getD i 0)
      ++ le2 (p.sumDelivered.getD i 0 / p.windows))
  let used := ((hubBanks h).map s.homeUse).sum / 65536
  let room := ((hubBanks h).map (fun u => if (s.unitState u).takes then s.unitRoom u false - s.homeUse u else 0)).sum / 65536
  let left (k : Nat) : Byte := BitVec.ofNat 8 (s.sparesLeft { hub := h.val, kind := k, index := 0, sub := 0 })
  (page128 (leBytes 8 s.tick ++ pace ++ [x.hottest] ++ (List.range 16).map (fun i => x.sensors.getD i 0) ++ leBytes 3 0
    ++ (List.range 4).flatMap (fun i => let y := x.supplies.getD i (0, 0); le2 y.1.toNat ++ le2 y.2.toNat)
    ++ le2 x.meanPower.toNat ++ le2 x.poolReceived.toNat ++ le2 x.poolLent.toNat ++ [BitVec.ofNat 8 (min 255 p.periodSlips), 0]
    ++ le4 used ++ le4 room ++ le4 s.evt.hubs[h].written ++ leBytes 8 v.toNat
    ++ [left 1, left 2, left 3, left 4, left 6]), s)

/-- The unit code of a calibration (R647). -/
def calCode (kind hub n : Nat) : BitVec 16 := BitVec.ofNat 16 (kind * 4096 + hub * 256 + n)

/-- A unit's calibration, confirmed where nothing is listed. -/
def State.calOf (s : State) (code : BitVec 16) : CalState :=
  ((s.pwr.cal.find? (fun x => x.1 == code)).map Prod.snd).getD .confirmed

/-- A calibration's number (Table 19-7). -/
def CalState.code : CalState → Nat
  | .confirmed => 0 | .provisional => 1 | .drift => 2

/-- Page 1 of a stack (Table 19-7). Corrected errors and the bytes moved in the period are free values. -/
def State.page1 (s : State) (k : Stack) (temp : BitVec 8) : List Byte × State :=
  let (v, s) := s.fresh 96
  let u : TierUnit := .umbra k
  let st := s.units.stack[k]
  let pend := (s.hs.list.map (fun h => ((s.pendHomes h.key).filter (fun x => x.2.unit == u)).length)).sum
  let all := s.homeUse u / 2097152
  let retired := s.reserveUsed k
  let erasure := (s.rel.repair.erasure.filter (fun e => e.1 == k.val)).foldl (fun a e => a ||| 2 ^ e.2.1) 0
  (page128 (leBytes 8 s.tick ++ [BitVec.ofNat 8 st.code, BitVec.ofNat 8 (s.calOf (calCode 1 (k.val / 2) k.val)).code,
      if st == .reduced then 56 else 64, temp]
    ++ le4 (all - pend) ++ le4 (31744 - s.guestFrames k - all) ++ le4 pend ++ le2 (832 - retired) ++ le2 retired
    ++ leBytes 4 v.toNat ++ le4 (tabGet 0 s.rel.repair.locations k.val) ++ leBytes 8 erasure ++ leBytes 8 (v.toNat / 2 ^ 32)), s)

/-- The pre-FEC error estimate of a lane (R652); with no bits received it is a free value. -/
def laneEstimate (errors bits : Nat) (free : BitVec 32) : BitVec 32 :=
  if bits = 0 then free else BitVec.ofNat 32 (code32 (div32 (.fin false errors 0) (.fin false bits 0)))

/-- A link's estimates follow its lanes (R652). -/
def State.estimate (s : State) (l : LinkNo) (x : TelemSample) : State :=
  (List.range 5).foldl (fun (s : State) p =>
    let e := x.laneErrors.getD (l.val % 8 * 5 + p) (0, 0)
    let (v, s) := s.fresh 32
    let k := s.lnk.links[l]
    s.setLink l { k with ber := tabPut 0 k.ber p (laneEstimate e.1 e.2 v) }) s

/-- Page 2 of a link (Table 19-8). -/
def State.page2 (s : State) (l : LinkNo) : List Byte :=
  let k := s.lnk.links[l]
  let a := k.counts
  let b := k.countsAt
  let prov := ((List.range 5).filter (fun p => s.calOf (calCode 2 (l.val / 8) (l.val * 5 + p)) == .provisional)).foldl
    (fun a p => a + 2 ^ p) 0
  page128 (leBytes 8 s.tick ++ (List.range 5).flatMap (fun p => leBytes 4 (tabGet 0 k.ber p).toNat)
    ++ le4 (a.corrected - b.corrected) ++ le4 (a.uncorrectable - b.uncorrectable) ++ le4 (a.resent - b.resent)
    ++ le4 (a.refused - b.refused) ++ le4 ((a.dataSent - b.dataSent) / 4096) ++ le4 ((a.dataReceived - b.dataReceived) / 4096)
    ++ [BitVec.ofNat 8 prov, BitVec.ofNat 8 k.state.code])

/-- Page 3 of a context (Table 19-9). -/
def State.page3 (s : State) (c : Ctx) : List Byte :=
  let ledger (l : Ledger) : List Byte := leBytes 8 l.quota ++ leBytes 8 l.charge ++ leBytes 8 l.peak
  let n : StepCounts := c.counts
  let stepBytes := if c.step.isSome then
      le4 n.completed ++ le4 n.late ++ leBytes 8 n.lateSum ++ le4 n.lateWorst ++ le4 n.ties
    else leBytes 24 0
  page128 (leBytes 8 s.tick ++ ledger c.shade ++ ledger c.umbra ++ ledger c.penumbra ++ le4 c.spills ++ stepBytes)

/-- TELEMETRY_SNAPSHOT: at each millisecond a hub latches its pages, its stacks', its links' and those of the contexts
whose ledgers it holds, and the next period begins (R135, R651, R652, R676). -/
def execTelemetrySnapshot (hub : Hub) (sample : TelemSample) (s : State) : Out :=
  if s.tick % msTicks ≠ 0 then .next s
  else
    let links := (List.finRange 32).filter (fun l => linkHub l == hub)
    let s := links.foldl (fun (s : State) l => s.estimate l sample) s
    let (p0, s) := s.page0 hub sample
    let (a, s) := s.page1 (Fin.ofNat 8 (2 * hub.val)) (sample.stackTemps.getD 0 0)
    let (b, s) := s.page1 (Fin.ofNat 8 (2 * hub.val + 1)) (sample.stackTemps.getD 1 0)
    let snaps : List Snapshot :=
      [{ page := 0, index := 0, bytes := p0 }, { page := 1, index := 2 * hub.val, bytes := a },
        { page := 1, index := 2 * hub.val + 1, bytes := b }]
        ++ links.map (fun l => { page := 2, index := l.val, bytes := s.page2 l })
        ++ (s.ctxs.filter (fun c : Ctx => hubOf c.id == hub)).map (fun c => { page := 3, index := c.id, bytes := s.page3 c })
    let s := { s with evt := { s.evt with snaps := Vector.set s.evt.snaps hub.val snaps } }
    let s := links.foldl (fun (s : State) l => s.setLink l { s.lnk.links[l] with countsAt := s.lnk.links[l].counts }) s
    let s := s.setRecorder hub { s.evt.hubs[hub] with written := 0 }
    .next (s.setPower hub { s.pwr.hubs[hub] with lowSilicon := [], lowDelivered := [], sumDelivered := [], windows := 0
                                                 periodSlips := 0 })

/-- The highest charges and the spills of a context start again as its page is read (R653). -/
def Ctx.peaksRead (c : Ctx) : Ctx :=
  let f (l : Ledger) : Ledger := { l with peak := l.charge }
  { c with shade := f c.shade, umbra := f c.umbra, penumbra := f c.penumbra, spills := 0 }

/-- What R313 checks of TELEM_READ. -/
def telemReadSpec (s : State) (d : Desc) : DescSpec :=
  let page := d.f 67 64
  let i := d.f 95 80
  let good := match page with
    | 0 => i = 0
    | 1 => i < 8
    | 2 => i < 32
    | 3 => (s.ctx? i).isSome
    | _ => false
  { job := false, admin := true, needX := true, used := [(67, 64), (73, 72), (95, 80)], range := good }

/-- TELEM_READ; a page that has no snapshot yet reads as a free value (R651, R653, Table 19-3). -/
def execTelemRead (d : Desc) (s : State) : Out :=
  let page := d.f 67 64
  let i := d.f 95 80
  let good := match page with
    | 0 => i = 0
    | 1 => i < 8
    | 2 => i < 32
    | 3 => (s.ctx? i).isSome
    | _ => false
  .next (s.withDesc d (telemReadSpec s d) (fun t s =>
    let h : Hub := if page = 0 then hubOf (d.f 73 72) else if page = 1 then hubOf (i / 2) else if page = 2 then hubOf (i / 8)
      else hubOf i
    let (v, s) := s.fresh 1024
    let bytes := match s.evt.snaps[h].find? (fun y : Snapshot => y.page == page && y.index == i) with
      | some y => y.bytes
      | none => leBytes 128 v.toNat
    let s := match page, s.ctx? i with
      | 3, some c => s.setCtx c.peaksRead
      | _, _ => s
    s.complete t { status := 0, result := BitVec.ofNat 64 (leValue (bytes.take 8)), xbytes := bytes }))

end Sys2Proof.Machine
end

