-- ==== Sys2Proof/Machine/Regs.lean ====
section
/-!
DEFINITION. Reads and writes of set-up registers, the I3C path, the mailbox, HUB_ADMIN_ATTACH and the JTAG chain
(chapters 20 and 21, R14, R337, R488, R603, R604).
-/
namespace Sys2Proof.Machine

/-! ### Values (R14, R654) -/

/-- Bytes 4n to 4n + 3 of a record. -/
def leWord (l : List Byte) (n : Nat) : Nat := leValue ((l.drop (4 * n)).take 4)

/-- A flag as a bit of a register. -/
def flagAt (b : Bool) (n : Nat) : Nat := if b then 2 ^ n else 0

/-- LNK_STATE's code of a link state (Table 20-9). -/
def linkStateCode : LState → Nat
  | .off => 0 | .training => 1 | .hello => 2 | .up => 3 | .reduced => 4 | .retrain => 5 | .l1 => 6 | .downVersion => 7
  | .failed => 8 | .quenched => 9

/-- PWR_DOMAIN's code of a domain state (Table 17-11). -/
def domainCode : DState → Nat
  | .off => 0 | .ramping => 1 | .retain => 2 | .on => 3

/-- SYN_BAR_STATUS.STATE (Table 13-10). -/
def barStateCode : BarState → Nat
  | .disabled => 0 | .waiting => 1 | .arrived => 2 | .fault => 3

/-- MOV_STATUS.STATE (Table 10-5). -/
def chanStateCode : ChanState → Nat
  | .idle => 0 | .running => 1 | .halted => 2 | .waiting => 3

/-- A register of a mover channel as it reads (Tables 10-3 to 10-5). -/
def Channel.reg (c : Channel) : MovReg → Nat
  | .shadow w => (tabGet 0 c.shadow w).toNat
  | .active w => (tabGet 0 c.active w).toNat
  | .status => chanStateCode c.state * 2 ^ 28 + flagAt c.shadowValid 27 + c.last.toNat * 2 ^ 24 + c.cfgErr.toNat * 2 ^ 20
      + flagAt c.lateWrite 19 + flagAt c.poisonSeen 18
  | .progressLo => c.progress.toNat % 2 ^ 32
  | .progressHi => c.progress.toNat / 2 ^ 32
  | .errLo => c.err.toNat % 2 ^ 32
  | .errHi => c.err.toNat / 2 ^ 32
  | .errInfo => c.errInfo.toNat
  | .cmpCount => c.cmpCount.toNat
  | .cmpFirstLo => c.cmpFirst.toNat % 2 ^ 32
  | .cmpFirstHi => c.cmpFirst.toNat / 2 ^ 32
  | .checkFail => c.checkFail.toNat
  | .cmd => 0
  | .prio => c.prio.toNat

/-- HUB_STATUS (Table 20-7). -/
def State.hubStatusWord (s : State) (h : Hub) : Nat :=
  let x := s.rel.hubs[h]
  let r := s.regs.hubs[h]
  flagAt x.degraded 31 + (7 - x.coresRetired.length) * 2 ^ 28 + flagAt (h == 0 && s.rg.attaching.isSome) 27
    + flagAt r.badAccess 26 + flagAt r.notHere 25 + r.crcFails

/-- HUB_START (Table 18-11). -/
def State.hubStartWord (s : State) : Nat :=
  let t := s.start
  flagAt (t.level == .ring) 31 + flagAt t.umbra 30 + flagAt t.links 29 + flagAt t.warm 28 + flagAt t.storeCold 27
    + flagAt (s.fw.inUse == some 1) 26 + flagAt s.fw.inUse.isNone 25 + t.umbraMs.toNat * 2 ^ 12 + t.linksMs.toNat

/-- PWR_STATUS (Table 17-10). -/
def HubPower.statusWord (p : HubPower) : Nat :=
  p.status.toNat * 2 ^ 30 + flagAt p.capping 29 + flagAt p.overCap 28 + flagAt p.thermal 27 + flagAt p.tbclkOk 26
    + flagAt p.aligned 25 + sat16 p.slips

/-- PIN_QUENCH_STATUS (Table 18-12). -/
def Quench.statusWord (q : Quench) : Nat :=
  q.state.toNat * 2 ^ 30 + q.cause.toNat * 2 ^ 27 + flagAt q.wiringFault 26 + flagAt q.aHigh 25 + flagAt q.bHigh 24
    + flagAt q.clearReady 23 + flagAt q.clearRefused 22 + sat16 q.events

/-- EVR_STORE_STATUS (Table 20-10). -/
def Store.statusWord (x : Store) : Nat :=
  flagAt x.ready 31 + flagAt x.empty 30 + flagAt x.fault 29 + flagAt (x.ready && Config.spiQuad) 28 + min x.erased 1023

/-- BIST_STATUS (Table 16-6). -/
def Bist.statusWord (b : Bist) : Nat :=
  b.state.toNat * 2 ^ 30 + flagAt b.refused 29 + b.slices % 2 ^ 13 * 2 ^ 16 + min b.failed 255 * 2 ^ 8

/-- SYN_LOCK as it reads (Table 13-11): HOLDER of an ABANDONED lock names the holder that was lost. -/
def lockWord : LockState → Nat
  | .free => 2 ^ 31
  | .held b => b.toNat * 2 ^ 16
  | .abandoned b => 2 ^ 31 + 2 ^ 30 + b.toNat * 2 ^ 16

/-- What an MF pin is driven to by its function; none where it is released or its level is set from outside (Table 18-7,
R625, R626). -/
def State.mfDriven (s : State) (n : Nat) : Option Bool :=
  let p := s.start.pins
  let out := p.mfOut.getLsbD n
  if s.start.quench.state == 2 || s.start.shut == .offReady || p.mfReleasing.any (fun r => r.1 == n) then none
  else match bitsOf p.mfSel.toNat (4 * n + 3) (4 * n) with
    | 1 => some out
    | 2 => if out then none else some false
    | 3 => if s.pwr.hubs.toList.any HubPower.thermal then some false else none
    | 4 => if s.pwr.hubs.toList.any (fun x : HubPower => x.status == 2) then some false else none
    | 5 => some p.paceOut
    | 6 => some (s.start.umbra && s.start.links)
    | _ => none

/-- PIN_MF_IN (Table 18-14); `ext` gives the levels set from outside. -/
def State.mfInWord (s : State) (ext : BitVec 12) : Nat :=
  let level (n : Nat) : Bool := (s.mfDriven n).getD (ext.getLsbD n)
  ((List.range 12).map (fun n => flagAt (level n) n + flagAt (s.start.pins.mfReleasing.any (fun r => r.1 == n)) (16 + n))).sum

/-- A register of a hub as it reads, apart from what its read does (R14, Table 20-3). -/
def State.regWord (s : State) (h : Hub) : WinReg → Nat
  | .hubId => 0x05120100 + h.val
  | .hubFw => 0x13010000 + (s.fw.hubPatch.getD h.val 0).toNat
  | .pkgIdLo => Config.packageId.toNat % 2 ^ 32
  | .pkgIdHi => Config.packageId.toNat / 2 ^ 32
  | .epoch => if s.evt.store.ready then s.lnk.epoch.toNat else 0
  | .scratch => s.regs.hubs[h].scratch.toNat
  | .tie0 => flagAt Config.spiQuad 17 + flagAt Config.watchPresent 16 + (Config.hportModules h).toNat
  | .tie1 => Config.i3cStaticBase.toNat
  | .tieAdminLo => adminTieOff.toNat % 2 ^ 32
  | .tieAdminHi => adminTieOff.toNat / 2 ^ 32
  | .tieBist => Config.bistRunInit.toNat
  | .adminBaseLo => s.rg.adminReg.toNat % 2 ^ 32
  | .adminBaseHi => s.rg.adminReg.toNat / 2 ^ 32
  | .adminAttach => 0
  | .hubCtrl => flagAt s.regs.hubs[h].mboxEn 1 + flagAt s.regs.hubs[h].watchEn 0
  | .hubStatus => s.hubStatusWord h
  | .regErr => s.regs.hubs[h].regErr.toNat
  | .hubStart => s.hubStartWord
  | .dupCtrl => s.regs.dupRate.toNat
  | .scrubCtrl => s.rel.hubs[h].scrub.toNat
  | .pwrMode => s.pwr.mgr.mode.toNat
  | .pwrCap => s.pwr.mgr.cap.toNat
  | .pwrPower => sat16 s.pwr.mgr.power * 2 ^ 16 + sat16 s.pwr.mgr.lentTotal
  | .pwrStatus => s.pwr.hubs[h].statusWord
  | .pwrPace n => (s.pwr.hubs[h].silicon.getD n 0).toNat * 2 ^ 16 + (s.pwr.hubs[h].delivered.getD n 0).toNat
  | .tickLo => s.tick % 2 ^ 32
  | .tickHi => s.pwr.hubs[h].tickHi.toNat
  | .pwrIdle => s.pwr.hubs[h].idle.toNat
  | .pwrIdleStack => s.pwr.hubs[h].idleStack.toNat
  | .pwrTemp => s.pwr.hubs[h].trip.toNat * 2 ^ 16 + s.pwr.hubs[h].hottest.toNat * 2 ^ 8 + s.pwr.hubs[h].throttle.toNat
  | .pwrDomain => (s.pwr.hubs[h].domains.zipIdx.map (fun d : Domain × Nat => domainCode d.1.state * 4 ^ d.2)).sum
  | .quenchCfg => s.start.quench.discMs.toNat
  | .quenchStatus => s.start.quench.statusWord
  | .quenchCtrl => 0
  | .pinAlert => flagAt s.start.pins.ibiEn 24 + s.start.pins.alertMask.toNat * 2 ^ 16 + s.start.pins.alertCause.toNat
  | .shdnCfg => s.start.pins.shdnCfg.toNat
  | .mfSel0 => s.start.pins.mfSel.toNat % 2 ^ 32
  | .mfSel1 => s.start.pins.mfSel.toNat / 2 ^ 32
  | .mfOut => s.start.pins.mfOut.toNat
  | .mfIn => s.mfInWord (Config.freeValue 12 s.freeCount)
  | .evrCtrl => flagAt s.evt.hubs[h].repeatEn 1 + flagAt s.evt.hubs[h].en 0
  | .evrStatus => sat16 s.evt.hubs[h].dropped * 2 ^ 16 + flagAt (h == 0 && s.evt.auth.lockedAt.isSome) 2
      + flagAt s.evt.hubs[h].authFail 1 + flagAt s.evt.store.token.isSome 0
  | .evrNewest => s.evt.hubs[h].newest.toNat
  | .evrReadSlot => s.evt.hubs[h].readSlot.toNat
  | .evrData n => leWord s.evt.hubs[h].latched n
  | .ctxSel => s.evt.hubs[h].ctxSel.toNat
  | .ctxData n => leWord (((s.regs.lastCounts.find? (fun x : Nat × List Byte => x.1 == s.evt.hubs[h].ctxSel.toNat)).map
      Prod.snd).getD []) n
  | .storeStatus => s.evt.store.statusWord
  | .storeJseq => if s.evt.store.ready then s.evt.store.jseq.toNat else 0
  | .storeWear => if s.evt.store.ready then (s.evt.store.erases.map Prod.snd).foldl max 0 else 0
  | .synCtrl => s.syn.hubs[h].ctrl.toNat
  | .hctrBaseLo => s.syn.hubs[h].baseLo.toNat
  | .hctrBaseHi => s.syn.hubs[h].baseHi.toNat
  | .ctrSel => s.syn.hubs[h].sel.toNat
  | .ctrCfg => (s.ctrCfg h (s.syn.hubs[h].sel.toNat % 256)).toNat
  | .ctrVal => (s.hostCtr h (s.syn.hubs[h].sel.toNat % 256)).toNat
  | .barCfg b => s.syn.bars[Fin.ofNat 8 b].cfg.toNat
  | .barCfg2 b => s.syn.bars[Fin.ofNat 8 b].cfg2.toNat
  | .barStatus b => let x := s.syn.bars[Fin.ofNat 8 b]
      barStateCode x.state * 2 ^ 30 + x.cause.toNat * 2 ^ 28 + x.gen % 2 ^ 28
  | .synLock l => lockWord (s.lock h l)
  | .lnkCtrl => s.lnk.cap.toNat * 2 ^ 16 + s.regs.hubs[h].startEn.toNat
  | .laneBer => s.regs.hubs[h].laneBer.toNat
  | .lnkIdle => s.regs.hubs[h].lnkIdle.toNat
  | .lnkState => ((List.range 8).map (fun i => linkStateCode s.lnk.links[Fin.ofNat 32 (8 * h.val + i)].state * 16 ^ i)).sum
  | .bistBudget => s.rel.bist.budgetMs
  | .bistCtrl => flagAt s.rel.bist.umbraEn 1 + flagAt s.rel.bist.en 0
  | .bistStatus => s.rel.bist.statusWord
  | .bistRun => if s.evt.store.ready then s.rel.bist.run.toNat else Config.bistRunInit.toNat
  | .fieldCtrl => s.rel.hubs[h].field.toNat
  | .movDirect => let m := s.mov.hubs[h]
      m.directGranted.toNat * 2 ^ 8 + flagAt m.directDenied 4 + m.directReq.toNat
  | .movEvtPend => s.mov.hubs[h].evtHalt.toNat * 2 ^ 8 + s.mov.hubs[h].evtDone.toNat
  | .mov c r => (s.chan h c).reg r

/-- The identity a path's accesses carry to the locks: kind 1 for I3C and 2 for the host port, with the hub (Table
20-1). -/
def pathIdentity (p : RegPath) (h : Hub) : BitVec 8 :=
  match p with
  | .i3c => BitVec.ofNat 8 (64 + h.val)
  | .mailbox => BitVec.ofNat 8 (128 + h.val)

/-- What the read of a register does: SYN_LOCK is acquired where it is free or abandoned, PWR_TICK_LO latches the high
half, and a level set from outside is a free value (R486, R666, Tables 13-11, 17-10 and 18-14). -/
def State.regTouch (s : State) (p : RegPath) (h : Hub) : WinReg → State
  | .synLock l =>
    (match s.lock h l with
      | .held _ => s
      | _ => s.setLock h l (.held (pathIdentity p h)))
  | .tickLo => s.setPower h { s.pwr.hubs[h] with tickHi := BitVec.ofNat 32 (s.tick / 2 ^ 32) }
  | .mfIn => { s with freeCount := s.freeCount + 1 }
  | _ => s

/-! ### Writes -/

/-- A write of a mover channel's register: of the shadow set only in direct mode, and not over a valid set (R14, R361,
R362, R381). -/
def State.movRegWrite (s : State) (h : Hub) (c : Nat) (r : MovReg) (v : BitVec 32) : State :=
  let x := s.chan h c
  match r with
  | .shadow w =>
    if !s.isDirect h c then s
    else if x.shadowValid then s.setChan h c { x with lateWrite := true }
    else
      let v := if w = 16 then v &&& 0xFFFFFE00#32 else if w = 6 ∨ w = 14 then v &&& 0x0007FFFF#32 else v
      s.setChan h c { x with shadow := tabPut 0 x.shadow w v }
  | .status => s.setChan h c { x with lateWrite := x.lateWrite && !v.getLsbD 19, poisonSeen := x.poisonSeen && !v.getLsbD 18 }
  | .cmd => s.movWrite h c (bitsOf v.toNat 2 0) .host
  | .prio => s.movPrio h c v true
  | _ => s

/-- HUB_SCRUB_CTRL as it stores a value (Table 15-5). -/
def scrubStored (v : BitVec 32) : BitVec 32 :=
  let h := bitsOf v.toNat 23 16
  let sh := bitsOf v.toNat 11 0
  BitVec.ofNat 32 (flagAt (v.getLsbD 31) 31 + (if h = 0 then 1 else h) * 2 ^ 16 + max sh 10)

/-- BIST_FIELD_CTRL as it stores a value (Table 16-6). -/
def fieldStored (v : BitVec 32) : BitVec 32 :=
  let d := bitsOf v.toNat 23 16
  BitVec.ofNat 32 (bitsOf v.toNat 31 24 * 2 ^ 24 + (if d = 0 ∨ 50 < d then 20 else d) * 2 ^ 16 + bitsOf v.toNat 3 0)

/-- PIN_QUENCH_CFG.DISC_MS as it stores a value (Table 18-12). -/
def discStored (v : BitVec 32) : BitVec 6 :=
  let d := bitsOf v.toNat 5 0
  BitVec.ofNat 6 (if d = 0 then 1 else min d 50)

/-- LNK_LANE_BER as it stores a value: 1 × 10^−5 where it is not a finite positive FP32 number (R676). -/
def berStored (v : BitVec 32) : BitVec 32 :=
  if v.getLsbD 31 || v.extractLsb' 0 31 == 0 || v.extractLsb' 23 8 == 0xFF then 0x3727C5AC#32 else v

/-- PIN_ALERT is written: CAUSE bits written 1 clear, MASK and IBI_EN are set, and an interrupt is raised where that
asserts ALERT_N (R603, R632). -/
def State.alertWrite (s : State) (v : BitVec 32) : State :=
  let p := s.start.pins
  let s' := s.setPins { p with ibiEn := v.getLsbD 24, alertMask := v.extractLsb' 16 8
                               alertCause := p.alertCause &&& ~~~(v.extractLsb' 0 8) }
  s'.interrupt s.alertN

/-- SYN_LOCK is written: RELEASE, then ABANDON (R487, R488). -/
def State.lockWrite (s : State) (p : RegPath) (h : Hub) (l : Nat) (v : BitVec 32) : State :=
  let s := if v.getLsbD 0 then s.lockRelease h l (pathIdentity p h) else s
  if v.getLsbD 1 then s.lockAbandon h l else s

/-! ### HUB_ADMIN_ATTACH (R337, R605, R671) -/

/-- Ring 0 at a base, deaf until its driver is ready: its completions not consumed are discarded unless they already were,
and its SQ_HEAD and CQ_TAIL are in the control block (R337, Table 9-2). -/
def State.reattach (s : State) (base : Nat) (again : Bool) : State :=
  match s.ring? 0 with
  | none => s
  | some r =>
    let r' : Ring := { r with ctrlAddr := base + 0x2000, sqAddr := base + 0x3000, cqAddr := base + 0x7000, deaf := true,
                              held := if again then r.held else [], lostQueued := r.lostQueued && again
                              cqHead := if again then r.cqHead else r.cqTail }
    let s := if again then s else s.setWindow 0 (s.rg.windows[(0 : Hub)].filter (fun w => w.ring ≠ 0))
    let s := (s.setRing r').hostWrite (base + 0x2040) (leBytes 8 r.sqHead.toNat)
    let s := s.hostWrite (base + 0x2048) (leBytes 8 r.cqTail.toNat)
    { s with rg := { s.rg with attaching := some r.cqTail } }

/-- An accepted write of HUB_ADMIN_ATTACH: ATTACH 1 and KEY 0xA7C4 (R671). The base of HUB_ADMIN_BASE takes effect, ring 0 is
attached again, and locks held through any hub's host port are ABANDONED (R488, R605). -/
def State.adminAttach (s : State) (v : BitVec 32) : State :=
  if v.getLsbD 0 && v.extractLsb' 16 16 == 0xA7C4#16 then
    let s := { s with rg := { s.rg with adminUsed := s.rg.adminReg } }
    let s := s.reattach s.rg.adminUsed.toNat s.rg.attaching.isSome
    s.abandonAll (fun b => b.toNat / 64 == 2)
  else s

/-! ### One register -/

/-- A write of a register of a hub by a path (R14, R17, R664). -/
def State.regStore (s : State) (p : RegPath) (h : Hub) (v : BitVec 32) : WinReg → State
  | .hubId | .hubFw | .pkgIdLo | .pkgIdHi | .epoch | .tie0 | .tie1 | .tieAdminLo | .tieAdminHi | .tieBist => s
  | .regErr | .hubStart | .pwrPower | .pwrPace _ | .tickLo | .tickHi | .pwrDomain | .mfIn | .evrNewest => s
  | .evrData _ | .ctxData _ | .storeJseq | .storeWear | .barStatus _ | .lnkState | .bistRun => s
  | .scratch => s.setRegs h { s.regs.hubs[h] with scratch := v }
  | .adminBaseLo => { s with rg := { s.rg with adminReg := s.rg.adminReg.extractLsb' 32 25 ++ (v &&& 0xFFFFF000#32) } }
  | .adminBaseHi => { s with rg := { s.rg with adminReg := v.extractLsb' 0 25 ++ s.rg.adminReg.extractLsb' 0 32 } }
  | .adminAttach => s.adminAttach v
  | .hubCtrl => s.setRegs h { s.regs.hubs[h] with mboxEn := v.getLsbD 1, watchEn := v.getLsbD 0 && Config.watchPresent }
  | .hubStatus => let r := s.regs.hubs[h]
      s.setRegs h { r with badAccess := r.badAccess && !v.getLsbD 26, notHere := r.notHere && !v.getLsbD 25 }
  | .dupCtrl => { s with regs := { s.regs with dupRate := BitVec.ofNat 4 (max 4 (min 12 (bitsOf v.toNat 3 0))) } }
  | .scrubCtrl => s.setHealth h { s.rel.hubs[h] with scrub := scrubStored v }
  | .pwrMode => s.pwrModeWrite v
  | .pwrCap => s.pwrCapWrite v
  | .pwrStatus => s.setPower h { s.pwr.hubs[h] with overCap := s.pwr.hubs[h].overCap && !v.getLsbD 28 }
  | .pwrIdle => s.setPower h { s.pwr.hubs[h] with idle := v }
  | .pwrIdleStack => s.setPower h { s.pwr.hubs[h] with idleStack := v &&& 0x0000FFFF#32 }
  | .pwrTemp => let t := min 120 (bitsOf v.toNat 23 16)
      s.setPower h { s.pwr.hubs[h] with trip := BitVec.ofNat 8 t, throttle := BitVec.ofNat 8 (min t (bitsOf v.toNat 7 0)) }
  | .quenchCfg => s.setQuench { s.start.quench with discMs := discStored v }
  | .quenchStatus => s.setQuench { s.start.quench with clearRefused := s.start.quench.clearRefused && !v.getLsbD 22 }
  | .quenchCtrl => if v.getLsbD 0 then s.quenchClear else s
  | .pinAlert => s.alertWrite v
  | .shdnCfg => s.setPins { s.start.pins with shdnCfg := v }
  | .mfSel0 => s.mfSelWrite false v
  | .mfSel1 => s.mfSelWrite true v
  | .mfOut => s.setPins { s.start.pins with mfOut := v.extractLsb' 0 12 }
  | .evrCtrl => s.setRecorder h { s.evt.hubs[h] with repeatEn := v.getLsbD 1, en := v.getLsbD 0 }
  | .evrStatus => s.setRecorder h { s.evt.hubs[h] with authFail := s.evt.hubs[h].authFail && !v.getLsbD 1 }
  | .evrReadSlot => s.evrReadSlotWrite h v
  | .ctxSel => s.setRecorder h { s.evt.hubs[h] with ctxSel := v.extractLsb' 0 12 }
  | .storeStatus => { s with evt := { s.evt with store := { s.evt.store with fault := s.evt.store.fault && !v.getLsbD 29 } } }
  | .synCtrl => s.setSync h { s.syn.hubs[h] with ctrl := v &&& 0x00FFFF0F#32 }
  | .hctrBaseLo => s.setSync h { s.syn.hubs[h] with baseLo := v &&& 0xFFFFF000#32 }
  | .hctrBaseHi => s.setSync h { s.syn.hubs[h] with baseHi := v &&& 0x01FFFFFF#32 }
  | .ctrSel => s.setSync h { s.syn.hubs[h] with sel := v &&& 0x000000FF#32 }
  | .ctrCfg => s.ctrCfgWrite h v
  | .ctrVal => s.ctrValWrite h v
  | .barCfg b => s.barCfgWrite (Fin.ofNat 8 b) false v
  | .barCfg2 b => s.barCfgWrite (Fin.ofNat 8 b) true v
  | .synLock l => s.lockWrite p h l v
  | .lnkCtrl => s.setRegs h { s.regs.hubs[h] with startEn := v.extractLsb' 0 8 }
  | .laneBer => s.setRegs h { s.regs.hubs[h] with laneBer := berStored v }
  | .lnkIdle => s.setRegs h { s.regs.hubs[h] with lnkIdle := v.extractLsb' 0 16 }
  | .bistBudget => s.setBist { s.rel.bist with budgetMs := min 60000 (bitsOf v.toNat 15 0) }
  | .bistCtrl =>
      let s := s.setBist { s.rel.bist with umbraEn := v.getLsbD 1, en := v.getLsbD 0 }
      if v.getLsbD 8 then s.bistStart else s
  | .bistStatus => s.setBist { s.rel.bist with refused := s.rel.bist.refused && !v.getLsbD 29 }
  | .fieldCtrl => s.setHealth h { s.rel.hubs[h] with field := fieldStored v }
  | .movDirect => s.directReq h v
  | .movEvtPend => let m := s.mov.hubs[h]
      s.setMovers h { m with evtHalt := m.evtHalt &&& ~~~(v.extractLsb' 8 8), evtDone := m.evtDone &&& ~~~(v.extractLsb' 0 8) }
  | .mov c r => s.movRegWrite h c r v

/-! ### Accesses by offset (R655, R667, R673) -/

/-- Whether a path reaches a hub's window: in every level from CORE on, from RING and with MBOX_EN 1 for the mailbox, until
OFF_READY is released, and not on a lost hub (R659, R667, Table 20-1). -/
def State.pathOpen (s : State) (p : RegPath) (h : Hub) : Bool :=
  !s.rel.hubs[h].lost && s.start.shut != .offReady
    && (match p with
      | .i3c => s.start.level == .core || s.start.level == .ring
      | .mailbox => s.start.level == .ring && s.regs.hubs[h].mboxEn)

/-- The register an offset names on a hub: some where the hub holds it. -/
def regHere (h : Hub) (off : Nat) : Option WinReg :=
  match regAt off with
  | some r => if r.hub0 && h ≠ 0 then none else some r
  | none => none

/-- HUB_REG_ERR latches an access while both flags are 0 (R655, R673, Table 20-7). -/
def State.regLatch (s : State) (p : RegPath) (h : Hub) (cause off : Nat) : State :=
  let r := s.regs.hubs[h]
  let path := match p with
    | .i3c => 1
    | .mailbox => 2
  if r.badAccess || r.notHere then s
  else s.setRegs h { r with regErr := BitVec.ofNat 32 (path * 2 ^ 30 + cause * 2 ^ 28 + off % 2 ^ 16) }

/-- An access to an offset the hub does not hold: NOT_HERE for a register of hub 0, BAD_ACCESS otherwise (R655). -/
def State.regMiss (s : State) (p : RegPath) (h : Hub) (off : Nat) : State :=
  let here := (regAt off).isSome
  let s := s.regLatch p h (if here then 2 else 1) off
  let r := s.regs.hubs[h]
  s.setRegs h (if here then { r with notHere := true } else { r with badAccess := true })

/-- One register read by a path: its value, 0 where the hub does not hold the offset (R655). -/
def State.regRead (s : State) (p : RegPath) (h : Hub) (off : Nat) : BitVec 32 × State :=
  match regHere h off with
  | some r => (BitVec.ofNat 32 (s.regWord h r), s.regTouch p h r)
  | none => (0, s.regMiss p h off)

/-- One register written by a path; discarded where the hub does not hold the offset (R655). -/
def State.regWrite (s : State) (p : RegPath) (h : Hub) (off : Nat) (v : BitVec 32) : State :=
  match regHere h off with
  | some r => s.regStore p h v r
  | none => s.regMiss p h off

/-- Consecutive registers read in ascending offset (R663). -/
def State.regReads (p : RegPath) (h : Hub) : Nat → Nat → State → List Byte × State
  | 0, _, s => ([], s)
  | n + 1, off, s =>
    let (v, s) := s.regRead p h off
    let (l, s) := State.regReads p h n (off + 4) s
    (leBytes 4 v.toNat ++ l, s)

/-- Consecutive registers written in ascending offset (R663). -/
def State.regWrites (p : RegPath) (h : Hub) : List (BitVec 32) → Nat → State → State
  | [], _, s => s
  | v :: l, off, s => State.regWrites p h l (off + 4) (s.regWrite p h off v)

/-- Bytes as little-endian register values. -/
def wordsOf (l : List Byte) : List (BitVec 32) := (List.range (l.length / 4)).map (fun i => BitVec.ofNat 32 (leWord l i))

/-- REGISTER_WRITE: one register written by a path that reaches the hub; a misaligned offset is discarded (R657, R660). -/
def execRegisterWrite (hub : Hub) (path : RegPath) (offset : BitVec 16) (value : BitVec 32) (s : State) : Out :=
  if !s.pathOpen path hub then .next s
  else if offset.toNat % 4 = 0 then .next (s.regWrite path hub offset.toNat value)
  else match path with
    | .i3c => .next (s.regLatch path hub 3 offset.toNat)
    | .mailbox => .next s

/-! ### I3C (R657) -/

/-- I3C_PRIVATE_WRITE: an offset and the values of the registers from it on, or the offset alone; a misaligned one is
discarded whole. -/
def execI3cPrivateWrite (hub : Hub) (bytes : List Byte) (s : State) : Out :=
  if !s.pathOpen .i3c hub || bytes.length < 2 then .next s
  else
    let off := leValue (bytes.take 2)
    let data := bytes.drop 2
    if off % 4 ≠ 0 ∨ data.length % 4 ≠ 0 then
      let s := s.regLatch .i3c hub 3 off
      .next (s.setRegs hub { s.regs.hubs[hub] with i3cOffset := none })
    else
      let s := s.setRegs hub { s.regs.hubs[hub] with i3cOffset := some (BitVec.ofNat 16 off) }
      .next (State.regWrites .i3c hub (wordsOf (data.take 32)) off s)

/-- I3C_PRIVATE_READ: the registers from the offset of the last private write on; zero bytes after a discarded one. -/
def execI3cPrivateRead (hub : Hub) (count : Fin 33) (s : State) : Out :=
  if !s.pathOpen .i3c hub then .next s
  else
    let (out, s) := match s.regs.hubs[hub].i3cOffset with
      | some o => State.regReads .i3c hub ((count.val + 3) / 4) o.toNat s
      | none => (List.replicate count.val 0, s)
    .next (s.setRegs hub { s.regs.hubs[hub] with i3cOut := out.take count.val })

/-- I3C_BUS_RESET: locks the hub's I3C path holds are ABANDONED (R488). -/
def execI3cBusReset (hub : Hub) (s : State) : Out := .next (s.abandonAll (fun b => b == pathIdentity .i3c hub))

/-! ### The mailbox (R659 to R662) -/

/-- The host address of a hub's mailbox (R659). -/
def State.mailboxAddr (s : State) (h : Hub) : Nat := s.rg.adminUsed.toNat + 0x8000 + 0x100 * h.val

/-- A response line: SEQ, STATUS, COUNT, OFFSET, the values read, and its CRC (Table 20-2). -/
def mailboxLine (seq status count off : Nat) (data : List Byte) : List Byte :=
  let b := leBytes 4 seq ++ leBytes 1 status ++ leBytes 1 count ++ leBytes 2 0 ++ leBytes 4 off ++ leBytes 4 0
    ++ (data ++ List.replicate (32 - data.length) 0) ++ List.replicate 12 0
  b ++ leBytes 4 (crc32c b).toNat

/-- Whether a request's OP, COUNT or reserved bytes are bad (R660 step 1). -/
def badRequest (line : List Byte) : Bool :=
  let op := leValue ((line.drop 4).take 1)
  let n := leValue ((line.drop 5).take 1)
  let zero (from_ to_ : Nat) : Bool := ((line.drop from_).take (to_ - from_)).all (fun b => b == 0)
  !((op = 1 ∨ op = 2) ∧ 1 ≤ n ∧ n ≤ 8) || !zero 6 8 || !zero 12 16 || !zero 48 60
    || !zero (if op = 2 then 16 + 4 * n else 16) 48

/-- A request acted on: the STATUS, the values read and the state after (R660). -/
def State.mailboxServe (s : State) (h : Hub) (line : List Byte) : Nat × List Byte × State :=
  let op := leValue ((line.drop 4).take 1)
  let n := leValue ((line.drop 5).take 1)
  let off := leValue ((line.drop 8).take 4)
  if badRequest line then (3, [], s)
  else if off % 4 ≠ 0 then (2, [], s)
  else match (List.range n).find? (fun i => (regHere h (off + 4 * i)).isNone) with
    | some i => (1, [], s.regMiss .mailbox h (off + 4 * i))
    | none =>
      if op = 1 then
        let (l, s) := State.regReads .mailbox h n off s
        (0, l, s)
      else (0, [], State.regWrites .mailbox h (wordsOf ((line.drop 16).take (4 * n))) off s)

/-- MAILBOX_POLL: a hub reads its request line; one whose CRC fails is counted, one already acted on is passed over, and
any other is acted on once and answered at the mailbox it came from (R659 to R662, R672). -/
def execMailboxPoll (hub : Hub) (s : State) : Out :=
  if !s.pathOpen .mailbox hub then .next s
  else
    let base := s.mailboxAddr hub
    let line := s.hostRead base 64
    let r := s.regs.hubs[hub]
    let seq := leValue (line.take 4)
    let crc := leValue (line.drop 60)
    if (crc32c (line.take 60)).toNat ≠ crc then .next (s.setRegs hub { r with crcFails := sat16 (r.crcFails + 1) })
    else if seq = r.mbSeq.toNat ∧ crc = r.mbCrc.toNat then .next s
    else
      let s := s.setRegs hub { r with mbSeq := BitVec.ofNat 32 seq, mbCrc := BitVec.ofNat 32 crc }
      let (status, data, s) := s.mailboxServe hub line
      .next (s.hostWrite (base + 64)
        (mailboxLine seq status (leValue ((line.drop 5).take 1)) (leValue ((line.drop 8).take 4)) data))

/-! ### HUB_ADMIN_ATTACH and its end -/

/-- HUB_ADMIN_ATTACH: a write of the register reaches hub 0 (R337, R671). -/
def execHubAdminAttach (value : BitVec 32) (s : State) : Out :=
  .next (if s.pathOpen .i3c 0 then s.adminAttach value else s)

/-- Whether the driver has prepared ring 0 (R337 step 3): SQ_TAIL equal to SQ_HEAD, CQ_HEAD equal to the CQ_TAIL written,
and the CQ filled but for the entries written since (R319). -/
def State.adminReady (s : State) (r : Ring) (from_ : BitVec 32) : Bool :=
  let n := (r.cqTail - from_).toNat
  let idx := (List.range (ringSize r.cqOrder - n)).map (fun i => (r.cqTail.toNat + i) % ringSize r.cqOrder)
  s.readTail r.ctrlAddr == r.sqHead && s.readHead r.ctrlAddr == from_
    && idx.all (fun i => (s.hostRead (r.cqAddr + 16 * i) 16).all (fun b => b == 0xFF))

/-- ADMIN_ATTACH_DONE: hub 0 honours ring 0's doorbell again, and ATTACH_BUSY clears (R337, R671). -/
def execAdminAttachDone (s : State) : Out :=
  match s.rg.attaching, s.ring? 0 with
  | some from_, some r =>
    if s.hubServes 0 && s.adminReady r from_ then
      let s := s.setRing { r with deaf := false }
      .next (({ s with rg := { s.rg with attaching := none } }).readControl 0)
    else .next s
  | _, _ => .next s

/-! ### JTAG (R604, R692, R693, Table 21-7) -/

/-- The balls EXTEST or CLAMP drives, by the cells of hub 0's boundary register: only while RST_N is low (R693). -/
def State.drivenBalls (s : State) : Option (List Bool) :=
  let t := s.regs.taps[(0 : Hub)]
  if !s.start.pins.rstN && s.start.pins.pgood && (t.ir == 3 || t.ir == 5) then some t.boundary else none

/-- The levels hub 0's boundary cells sample: of the balls whose level the model holds, and free values of the others. -/
def State.ballLevels (s : State) (ext : BitVec 37) : List Bool :=
  let p := s.start.pins
  let q := s.start.quench
  let out (b : Bool) (i : Nat) : Bool := if s.drivenBalls.isSome then ext.getLsbD i else b
  [p.pgood, p.rstN, ext.getLsbD 2, out (!s.alertN) 3, out p.offReady 4, !p.shdnReqLow, q.aHigh, q.bHigh]
    ++ (List.range 29).map (fun i => ext.getLsbD (8 + i))

/-- The data register a TAP selects, as it captures (R692, Table 21-7): IDCODE, the boundary, or the bypass bit. -/
def Tap.captures (t : Tap) (levels : List Bool) : List Bool :=
  if t.ir = 1 then (List.range 32).map (fun i => (0x10512E57#32).getLsbD i)
  else if t.ir = 2 ∨ t.ir = 3 then levels
  else [false]

/-- A TAP after its data register has been shifted: SAMPLE/PRELOAD and EXTEST update the boundary. -/
def Tap.updated (t : Tap) (dr : List Bool) : Tap := if t.ir = 2 ∨ t.ir = 3 then { t with boundary := dr } else t

/-- JTAG_TAP: while PGOOD is high, the chain JTAG_TDI, H0, H1, H2, H3, JTAG_TDO is shifted, the register nearest TDO
leaving first and each register from its bit or cell 0 on; JTAG_TRST_N resets every TAP (R604, R692, R693). -/
def execJtagTap (op : JtagOp) (s : State) : Out :=
  if !s.start.pins.pgood then .next s
  else match op with
    | .trst => .next { s with regs := { s.regs with taps := s.regs.taps.map (fun t : Tap => ({ t with ir := 1 } : Tap)) } }
    | .ir codes =>
      let taps := Vector.ofFn (fun h : Hub => ({ s.regs.taps[h] with ir := codes.extractLsb' (24 - 8 * h.val) 8 } : Tap))
      .next { s with regs := { s.regs with taps := taps } }
    | .dr tdi =>
      let (ext, s) := s.fresh 40
      let t (h : Hub) : Tap := s.regs.taps[h]
      let cap (h : Hub) : List Bool :=
        (t h).captures (if h.val = 0 then s.ballLevels (ext.extractLsb' 0 37) else [ext.getLsbD (36 + h.val)])
      let chain := cap 3 ++ cap 2 ++ cap 1 ++ cap 0
      let all := chain ++ tdi
      let dr := all.drop tdi.length
      let from_ (h : Hub) : Nat := ((List.finRange 4).filter (fun k => h < k)).foldl (fun n k => n + (cap k).length) 0
      let taps := Vector.ofFn (fun h : Hub => (t h).updated ((dr.drop (from_ h)).take (cap h).length))
      .next { s with regs := { s.regs with taps := taps, tdo := all.take tdi.length } }

end Sys2Proof.Machine
end

