-- ==== Sys2Proof/Machine/Dispatch.lean ====
section
/-!
DEFINITION. The meaning of each command: one arm per constructor, one call per arm.
-/
namespace Sys2Proof.Machine

/-- What a command does to everything but the queue. -/
def exec (i : Instr) (s : State) : Host.Outcome State Fault Refusal :=
  match i with
  | .nop d => Sys2Proof.Machine.execNop d s
  | .register d => Sys2Proof.Machine.execRegister d s
  | .free d => Sys2Proof.Machine.execFree d s
  | .freeSet d => Sys2Proof.Machine.execFreeSet d s
  | .handleFreed k => Sys2Proof.Machine.execHandleFreed k s
  | .offload d => Sys2Proof.Machine.execOffload d s
  | .readyBlockRead k => Sys2Proof.Machine.execReadyBlockRead k s
  | .fillComplete k result => Sys2Proof.Machine.execFillComplete k result s
  | .offloadFwd d => Sys2Proof.Machine.execOffloadFwd d s
  | .restore d => Sys2Proof.Machine.execRestore d s
  | .migrate d => Sys2Proof.Machine.execMigrate d s
  | .stripeCommit k stripe c => Sys2Proof.Machine.execStripeCommit k stripe c s
  | .oldLocationRelease k stripe => Sys2Proof.Machine.execOldLocationRelease k stripe s
  | .migrationStopped hub core => Sys2Proof.Machine.execMigrationStopped hub core s
  | .update d => Sys2Proof.Machine.execUpdate d s
  | .queryHandle d => Sys2Proof.Machine.execQueryHandle d s
  | .loadPlan d => Sys2Proof.Machine.execLoadPlan d s
  | .stepBegin d => Sys2Proof.Machine.execStepBegin d s
  | .mark d => Sys2Proof.Machine.execMark d s
  | .stepEnd d => Sys2Proof.Machine.execStepEnd d s
  | .stepEndComplete ctx => Sys2Proof.Machine.execStepEndComplete ctx s
  | .batchIssue ctx batch => Sys2Proof.Machine.execBatchIssue ctx batch s
  | .batchComplete ctx batch => Sys2Proof.Machine.execBatchComplete ctx batch s
  | .controllerEvaluate ctx => Sys2Proof.Machine.execControllerEvaluate ctx s
  | .streamArm d => Sys2Proof.Machine.execStreamArm d s
  | .streamFlush d => Sys2Proof.Machine.execStreamFlush d s
  | .streamFetchStart ctx stream => Sys2Proof.Machine.execStreamFetchStart ctx stream s
  | .streamFetchDone ctx stream slot result => Sys2Proof.Machine.execStreamFetchDone ctx stream slot result s
  | .streamDeliver ctx stream => Sys2Proof.Machine.execStreamDeliver ctx stream s
  | .streamDeliveryDone ctx stream slot result => Sys2Proof.Machine.execStreamDeliveryDone ctx stream slot result s
  | .slotRelease ctx stream slot => Sys2Proof.Machine.execSlotRelease ctx stream slot s
  | .allReduce d => Sys2Proof.Machine.execAllReduce d s
  | .reduceScatter d => Sys2Proof.Machine.execReduceScatter d s
  | .allGather d => Sys2Proof.Machine.execAllGather d s
  | .permute d => Sys2Proof.Machine.execPermute d s
  | .reduceUpdate d => Sys2Proof.Machine.execReduceUpdate d s
  | .updateSeal d => Sys2Proof.Machine.execUpdateSeal d s
  | .sealDecide group => Sys2Proof.Machine.execSealDecide group s
  | .sealTimeout group => Sys2Proof.Machine.execSealTimeout group s
  | .collData l m => Sys2Proof.Machine.execCollData l m s
  | .collForm l m r => Sys2Proof.Machine.execCollForm l m r s
  | .collSeal l m r => Sys2Proof.Machine.execCollSeal l m r s
  | .collAbort l m => Sys2Proof.Machine.execCollAbort l m s
  | .formationTimeout group => Sys2Proof.Machine.execFormationTimeout group s
  | .groupBroken group => Sys2Proof.Machine.execGroupBroken group s
  | .checkpoint d => Sys2Proof.Machine.execCheckpoint d s
  | .snapshotSend d => Sys2Proof.Machine.execSnapshotSend d s
  | .ckptRestore d => Sys2Proof.Machine.execCkptRestore d s
  | .ckptDrop d => Sys2Proof.Machine.execCkptDrop d s
  | .ckptList d => Sys2Proof.Machine.execCkptList d s
  | .snapshotRead d => Sys2Proof.Machine.execSnapshotRead d s
  | .vaultCreate l tag => Sys2Proof.Machine.execVaultCreate l tag s
  | .vaultSeal l tag => Sys2Proof.Machine.execVaultSeal l tag s
  | .vaultDrop l tag => Sys2Proof.Machine.execVaultDrop l tag s
  | .vaultList l tag => Sys2Proof.Machine.execVaultList l tag s
  | .vaultStatus l tag => Sys2Proof.Machine.execVaultStatus l tag s
  | .writingImageExpiry slot => Sys2Proof.Machine.execWritingImageExpiry slot s
  | .ownImagePoll hub => Sys2Proof.Machine.execOwnImagePoll hub s
  | .contextCreate d => Sys2Proof.Machine.execContextCreate d s
  | .contextDestroy d => Sys2Proof.Machine.execContextDestroy d s
  | .ringCreate d => Sys2Proof.Machine.execRingCreate d s
  | .ringDestroy d => Sys2Proof.Machine.execRingDestroy d s
  | .getRingState d => Sys2Proof.Machine.execGetRingState d s
  | .ringAttach d => Sys2Proof.Machine.execRingAttach d s
  | .ringResume d => Sys2Proof.Machine.execRingResume d s
  | .setQuota d => Sys2Proof.Machine.execSetQuota d s
  | .setExport d => Sys2Proof.Machine.execSetExport d s
  | .setSeed d => Sys2Proof.Machine.execSetSeed d s
  | .groupCreate d => Sys2Proof.Machine.execGroupCreate d s
  | .groupDestroy d => Sys2Proof.Machine.execGroupDestroy d s
  | .groupQuery d => Sys2Proof.Machine.execGroupQuery d s
  | .ckptBind d => Sys2Proof.Machine.execCkptBind d s
  | .vaultQuery d => Sys2Proof.Machine.execVaultQuery d s
  | .vaultRelease d => Sys2Proof.Machine.execVaultRelease d s
  | .bistGrant d => Sys2Proof.Machine.execBistGrant d s
  | .bistResults d => Sys2Proof.Machine.execBistResults d s
  | .bistFailView d => Sys2Proof.Machine.execBistFailView d s
  | .bistFieldNow d => Sys2Proof.Machine.execBistFieldNow d s
  | .evrRead d => Sys2Proof.Machine.execEvrRead d s
  | .evrCperRead d => Sys2Proof.Machine.execEvrCperRead d s
  | .evrNonce d => Sys2Proof.Machine.execEvrNonce d s
  | .evrClear d => Sys2Proof.Machine.execEvrClear d s
  | .evrProvision d => Sys2Proof.Machine.execEvrProvision d s
  | .telemRead d => Sys2Proof.Machine.execTelemRead d s
  | .shutdown d => Sys2Proof.Machine.execShutdown d s
  | .imageLoad d => Sys2Proof.Machine.execImageLoad d s
  | .slotQuery d => Sys2Proof.Machine.execSlotQuery d s
  | .slotActivate d => Sys2Proof.Machine.execSlotActivate d s
  | .slotConfirm d => Sys2Proof.Machine.execSlotConfirm d s
  | .linkQuery d => Sys2Proof.Machine.execLinkQuery d s
  | .linkSetCap d => Sys2Proof.Machine.execLinkSetCap d s
  | .linkDisable d => Sys2Proof.Machine.execLinkDisable d s
  | .linkEnable d => Sys2Proof.Machine.execLinkEnable d s
  | .linkRetrain d => Sys2Proof.Machine.execLinkRetrain d s
  | .summaryPoll hub => Sys2Proof.Machine.execSummaryPoll hub s
  | .watch hub line => Sys2Proof.Machine.execWatch hub line s
  | .swapData hub tag => Sys2Proof.Machine.execSwapData hub tag s
  | .descriptorFetch ring => Sys2Proof.Machine.execDescriptorFetch ring s
  | .seqGap ring => Sys2Proof.Machine.execSeqGap ring s
  | .cqHeadReread ring => Sys2Proof.Machine.execCqHeadReread ring s
  | .hostFlitReceive hub f => Sys2Proof.Machine.execHostFlitReceive hub f s
  | .hostPortResend hub => Sys2Proof.Machine.execHostPortResend hub s
  | .rdData hub tag error poison => Sys2Proof.Machine.execRdData hub tag error poison s
  | .wrErr hub tag => Sys2Proof.Machine.execWrErr hub tag s
  | .fenceAck hub number => Sys2Proof.Machine.execFenceAck hub number s
  | .fenceTimeout hub number => Sys2Proof.Machine.execFenceTimeout hub number s
  | .hostPortTimeout hub tag => Sys2Proof.Machine.execHostPortTimeout hub tag s
  | .hostModuleLeftOut hub module => Sys2Proof.Machine.execHostModuleLeftOut hub module s
  | .unitReduced u => Sys2Proof.Machine.execUnitReduced u s
  | .unitFreeze u => Sys2Proof.Machine.execUnitFreeze u s
  | .drainStart u => Sys2Proof.Machine.execDrainStart u s
  | .unitEmptied u => Sys2Proof.Machine.execUnitEmptied u s
  | .unitOut u => Sys2Proof.Machine.execUnitOut u s
  | .unitReturn u epochMatches testPassed => Sys2Proof.Machine.execUnitReturn u epochMatches testPassed s
  | .penumbraResend link tag => Sys2Proof.Machine.execPenumbraResend link tag s
  | .penumbraOut link => Sys2Proof.Machine.execPenumbraOut link s
  | .laneJob hub lane => Sys2Proof.Machine.execLaneJob hub lane s
  | .courseCompress hub lane verifierFails => Sys2Proof.Machine.execCourseCompress hub lane verifierFails s
  | .blockExpand hub lane firstTryOk secondTryOk => Sys2Proof.Machine.execBlockExpand hub lane firstTryOk secondTryOk s
  | .laneRetired hub lane => Sys2Proof.Machine.execLaneRetired hub lane s
  | .glintRequest g r => Sys2Proof.Machine.execGlintRequest g r s
  | .glintMemData g memErr => Sys2Proof.Machine.execGlintMemData g memErr s
  | .glintReset g => Sys2Proof.Machine.execGlintReset g s
  | .waveStart hub => Sys2Proof.Machine.execWaveStart hub s
  | .tileEnd hub e => Sys2Proof.Machine.execTileEnd hub e s
  | .duplicateCompare run tile => Sys2Proof.Machine.execDuplicateCompare run tile s
  | .engineRetired hub e => Sys2Proof.Machine.execEngineRetired hub e s
  | .chainSplice hub e => Sys2Proof.Machine.execChainSplice hub e s
  | .recipeStall hub e => Sys2Proof.Machine.execRecipeStall hub e s
  | .waitReevaluate hub e => Sys2Proof.Machine.execWaitReevaluate hub e s
  | .opConfig hub e op => Sys2Proof.Machine.execOpConfig hub e op s
  | .opLoop hub e op => Sys2Proof.Machine.execOpLoop hub e op s
  | .opWait hub e op => Sys2Proof.Machine.execOpWait hub e op s
  | .opSignal hub e op => Sys2Proof.Machine.execOpSignal hub e op s
  | .opLoad hub e op => Sys2Proof.Machine.execOpLoad hub e op s
  | .opStore hub e op => Sys2Proof.Machine.execOpStore hub e op s
  | .opLdls hub e op => Sys2Proof.Machine.execOpLdls hub e op s
  | .opStls hub e op => Sys2Proof.Machine.execOpStls hub e op s
  | .opLdrows hub e op => Sys2Proof.Machine.execOpLdrows hub e op s
  | .opStacc hub e op => Sys2Proof.Machine.execOpStacc hub e op s
  | .opAdd hub e op => Sys2Proof.Machine.execOpAdd hub e op s
  | .opSub hub e op => Sys2Proof.Machine.execOpSub hub e op s
  | .opMul hub e op => Sys2Proof.Machine.execOpMul hub e op s
  | .opFma hub e op => Sys2Proof.Machine.execOpFma hub e op s
  | .opMax hub e op => Sys2Proof.Machine.execOpMax hub e op s
  | .opMin hub e op => Sys2Proof.Machine.execOpMin hub e op s
  | .opAdds hub e op => Sys2Proof.Machine.execOpAdds hub e op s
  | .opMuls hub e op => Sys2Proof.Machine.execOpMuls hub e op s
  | .opRelu hub e op => Sys2Proof.Machine.execOpRelu hub e op s
  | .opLrelu hub e op => Sys2Proof.Machine.execOpLrelu hub e op s
  | .opGelu hub e op => Sys2Proof.Machine.execOpGelu hub e op s
  | .opSigmoid hub e op => Sys2Proof.Machine.execOpSigmoid hub e op s
  | .opTanh hub e op => Sys2Proof.Machine.execOpTanh hub e op s
  | .opSilu hub e op => Sys2Proof.Machine.execOpSilu hub e op s
  | .opLnorm hub e op => Sys2Proof.Machine.execOpLnorm hub e op s
  | .opRmsnorm hub e op => Sys2Proof.Machine.execOpRmsnorm hub e op s
  | .opRsum hub e op => Sys2Proof.Machine.execOpRsum hub e op s
  | .opRsumsq hub e op => Sys2Proof.Machine.execOpRsumsq hub e op s
  | .opAcczero hub e op => Sys2Proof.Machine.execOpAcczero hub e op s
  | .opAccrd hub e op => Sys2Proof.Machine.execOpAccrd hub e op s
  | .opPool hub e op => Sys2Proof.Machine.execOpPool hub e op s
  | .opCat hub e op => Sys2Proof.Machine.execOpCat hub e op s
  | .opTransp hub e op => Sys2Proof.Machine.execOpTransp hub e op s
  | .opMm hub e op => Sys2Proof.Machine.execOpMm hub e op s
  | .opMmout hub e op => Sys2Proof.Machine.execOpMmout hub e op s
  | .opMaskgen hub e op => Sys2Proof.Machine.execOpMaskgen hub e op s
  | .opMaskapply hub e op => Sys2Proof.Machine.execOpMaskapply hub e op s
  | .opDropout hub e op => Sys2Proof.Machine.execOpDropout hub e op s
  | .opRelumask hub e op => Sys2Proof.Machine.execOpRelumask hub e op s
  | .opQuant hub e op => Sys2Proof.Machine.execOpQuant hub e op s
  | .opDequant hub e op => Sys2Proof.Machine.execOpDequant hub e op s
  | .opCvt hub e op => Sys2Proof.Machine.execOpCvt hub e op s
  | .opDigest hub e op => Sys2Proof.Machine.execOpDigest hub e op s
  | .movLoad hub ch bits by_ => Sys2Proof.Machine.execMovLoad hub ch bits by_ s
  | .movAbort hub ch bits by_ => Sys2Proof.Machine.execMovAbort hub ch bits by_ s
  | .movResume hub ch bits by_ => Sys2Proof.Machine.execMovResume hub ch bits by_ s
  | .movPrioWrite hub ch value by_ => Sys2Proof.Machine.execMovPrioWrite hub ch value by_ s
  | .burstGrant port checkFails => Sys2Proof.Machine.execBurstGrant port checkFails s
  | .transferComplete hub ch confirmFails => Sys2Proof.Machine.execTransferComplete hub ch confirmFails s
  | .busError hub ch cause write => Sys2Proof.Machine.execBusError hub ch cause write s
  | .channelRetired hub ch => Sys2Proof.Machine.execChannelRetired hub ch s
  | .movDirectReq hub value => Sys2Proof.Machine.execMovDirectReq hub value s
  | .directGrant hub => Sys2Proof.Machine.execDirectGrant hub s
  | .linkFrameReceive l f => Sys2Proof.Machine.execLinkFrameReceive l f s
  | .linkResend l => Sys2Proof.Machine.execLinkResend l s
  | .linkRetrainDone l ok => Sys2Proof.Machine.execLinkRetrainDone l ok s
  | .laneBad l lane lostLock => Sys2Proof.Machine.execLaneBad l lane lostLock s
  | .laneCtrl l arg => Sys2Proof.Machine.execLaneCtrl l arg s
  | .spareLaneTrained l => Sys2Proof.Machine.execSpareLaneTrained l s
  | .linkTrained l lanes => Sys2Proof.Machine.execLinkTrained l lanes s
  | .trainingRetry l => Sys2Proof.Machine.execTrainingRetry l s
  | .hello l data => Sys2Proof.Machine.execHello l data s
  | .grant l arg => Sys2Proof.Machine.execGrant l arg s
  | .pnRd l m => Sys2Proof.Machine.execPnRd l m s
  | .pnWr l m => Sys2Proof.Machine.execPnWr l m s
  | .pnRdData l m => Sys2Proof.Machine.execPnRdData l m s
  | .pnWrAck l m => Sys2Proof.Machine.execPnWrAck l m s
  | .remoteSignal l addr arg marks => Sys2Proof.Machine.execRemoteSignal l addr arg marks s
  | .signalResend number => Sys2Proof.Machine.execSignalResend number s
  | .signalTimeout number => Sys2Proof.Machine.execSignalTimeout number s
  | .barrier m => Sys2Proof.Machine.execBarrier m s
  | .linkL1Entry l => Sys2Proof.Machine.execLinkL1Entry l s
  | .linkL1Wake l => Sys2Proof.Machine.execLinkL1Wake l s
  | .eventPulse hub line => Sys2Proof.Machine.execEventPulse hub line s
  | .mirrorWrite hub ctr => Sys2Proof.Machine.execMirrorWrite hub ctr s
  | .postPoll hub => Sys2Proof.Machine.execPostPoll hub s
  | .wakeIn hub => Sys2Proof.Machine.execWakeIn hub s
  | .longWait domain => Sys2Proof.Machine.execLongWait domain s
  | .barrierArrive hub slot => Sys2Proof.Machine.execBarrierArrive hub slot s
  | .beaconComplete slot => Sys2Proof.Machine.execBeaconComplete slot s
  | .beaconHoldEnd hub slot => Sys2Proof.Machine.execBeaconHoldEnd hub slot s
  | .barrierComplete slot => Sys2Proof.Machine.execBarrierComplete slot s
  | .barrierTimeout slot => Sys2Proof.Machine.execBarrierTimeout slot s
  | .synBarCfgWrite slot second value => Sys2Proof.Machine.execSynBarCfgWrite slot second value s
  | .synCtrCfgWrite hub value => Sys2Proof.Machine.execSynCtrCfgWrite hub value s
  | .synCtrValWrite hub value => Sys2Proof.Machine.execSynCtrValWrite hub value s
  | .lockAcquire hub lock requester => Sys2Proof.Machine.execLockAcquire hub lock requester s
  | .lockRelease hub lock requester => Sys2Proof.Machine.execLockRelease hub lock requester s
  | .lockAbandon hub lock => Sys2Proof.Machine.execLockAbandon hub lock s
  | .scrubPass hub u holds f => Sys2Proof.Machine.execScrubPass hub u holds f s
  | .targetedTest u cls => Sys2Proof.Machine.execTargetedTest u cls s
  | .testDecision u passed => Sys2Proof.Machine.execTestDecision u passed s
  | .rowRetire hub bank row => Sys2Proof.Machine.execRowRetire hub bank row s
  | .sliceReplace hub bank slice => Sys2Proof.Machine.execSliceReplace hub bank slice s
  | .pageRetire k frame => Sys2Proof.Machine.execPageRetire k frame s
  | .shutdownTest hub => Sys2Proof.Machine.execShutdownTest hub s
  | .sliceStart hub row u => Sys2Proof.Machine.execSliceStart hub row u s
  | .sliceEnd hub row u r fs => Sys2Proof.Machine.execSliceEnd hub row u r fs s
  | .sliceTimeout hub row u => Sys2Proof.Machine.execSliceTimeout hub row u s
  | .bistStart => Sys2Proof.Machine.execBistStart s
  | .fieldTestDue u => Sys2Proof.Machine.execFieldTestDue u s
  | .fieldTestStart u => Sys2Proof.Machine.execFieldTestStart u s
  | .deferTimeout u => Sys2Proof.Machine.execDeferTimeout u s
  | .fieldTestEnd u passed => Sys2Proof.Machine.execFieldTestEnd u passed s
  | .paceWindowEnd samples => Sys2Proof.Machine.execPaceWindowEnd samples s
  | .pwrModeWrite value => Sys2Proof.Machine.execPwrModeWrite value s
  | .pwrCapWrite value => Sys2Proof.Machine.execPwrCapWrite value s
  | .budgetWithdraw hub domain => Sys2Proof.Machine.execBudgetWithdraw hub domain s
  | .retainEntry hub domain => Sys2Proof.Machine.execRetainEntry hub domain s
  | .wakeRequest hub domain => Sys2Proof.Machine.execWakeRequest hub domain s
  | .rampDone hub stackRail => Sys2Proof.Machine.execRampDone hub stackRail s
  | .domainOn hub domain => Sys2Proof.Machine.execDomainOn hub domain s
  | .calibrationRecheck u drift => Sys2Proof.Machine.execCalibrationRecheck u drift s
  | .driftCheck u drift => Sys2Proof.Machine.execDriftCheck u drift s
  | .tbclkLoss => Sys2Proof.Machine.execTbclkLoss s
  | .pllLockTimeout hub => Sys2Proof.Machine.execPllLockTimeout hub s
  | .align positions latched => Sys2Proof.Machine.execAlign positions latched s
  | .start pgood rstN => Sys2Proof.Machine.execStart pgood rstN s
  | .ringLevel => Sys2Proof.Machine.execRingLevel s
  | .umbraReady out => Sys2Proof.Machine.execUmbraReady out s
  | .linksReady => Sys2Proof.Machine.execLinksReady s
  | .patchBankSwitch hub core => Sys2Proof.Machine.execPatchBankSwitch hub core s
  | .rstNAssert => Sys2Proof.Machine.execRstNAssert s
  | .pgoodFall => Sys2Proof.Machine.execPgoodFall s
  | .shdnReq => Sys2Proof.Machine.execShdnReq s
  | .graceExpiry => Sys2Proof.Machine.execGraceExpiry s
  | .drainExpiry => Sys2Proof.Machine.execDrainExpiry s
  | .offReady => Sys2Proof.Machine.execOffReady s
  | .quenchChannel channelB high => Sys2Proof.Machine.execQuenchChannel channelB high s
  | .discrepancyExpiry => Sys2Proof.Machine.execDiscrepancyExpiry s
  | .quench cause => Sys2Proof.Machine.execQuench cause s
  | .quenchClear => Sys2Proof.Machine.execQuenchClear s
  | .mfSelectWrite second value => Sys2Proof.Machine.execMfSelectWrite second value s
  | .mfReleaseEnd pin => Sys2Proof.Machine.execMfReleaseEnd pin s
  | .eventRecord hub => Sys2Proof.Machine.execEventRecord hub s
  | .journalWrite => Sys2Proof.Machine.execJournalWrite s
  | .journalCompact => Sys2Proof.Machine.execJournalCompact s
  | .journalReadAtStart readable => Sys2Proof.Machine.execJournalReadAtStart readable s
  | .storeFault => Sys2Proof.Machine.execStoreFault s
  | .telemetrySnapshot hub sample => Sys2Proof.Machine.execTelemetrySnapshot hub sample s
  | .evrReadSlotWrite hub value => Sys2Proof.Machine.execEvrReadSlotWrite hub value s
  | .hubAdminAttach value => Sys2Proof.Machine.execHubAdminAttach value s
  | .adminAttachDone => Sys2Proof.Machine.execAdminAttachDone s
  | .mailboxPoll hub => Sys2Proof.Machine.execMailboxPoll hub s
  | .i3cPrivateWrite hub bytes => Sys2Proof.Machine.execI3cPrivateWrite hub bytes s
  | .i3cPrivateRead hub count => Sys2Proof.Machine.execI3cPrivateRead hub count s
  | .registerWrite hub path offset value => Sys2Proof.Machine.execRegisterWrite hub path offset value s
  | .recalibrationDone k => Sys2Proof.Machine.execRecalibrationDone k s
  | .hostPortRetrained hub module => Sys2Proof.Machine.execHostPortRetrained hub module s
  | .clearReady => Sys2Proof.Machine.execClearReady s
  | .nonceLockoutEnd => Sys2Proof.Machine.execNonceLockoutEnd s
  | .retentionMonitor k => Sys2Proof.Machine.execRetentionMonitor k s
  | .i3cBusReset hub => Sys2Proof.Machine.execI3cBusReset hub s
  | .jtagTap op => Sys2Proof.Machine.execJtagTap op s

end Sys2Proof.Machine
end

