-- ==== Sys2Proof/Machine/Step.lean ====
section
/-!
DEFINITION. One step: the command at the front of the queue is taken and acts on the state with the queue's rest; on
an empty queue TBCLK counts one tick (assumption 3).
-/
namespace Sys2Proof.Machine

/-- The block with nothing to do: the tick count rises, except while a quench from the loss of TBCLK holds it
(R577, R578, assumption 3). -/
def State.idle (s : State) : State :=
  if s.start.quench.state == 2 && s.start.quench.cause == 3 then s else { s with tick := s.tick + 1 }

/-- One step. -/
def step (s : State) : Host.Outcome State Fault Refusal :=
  match s.pending with
  | [] => .next s.idle
  | c :: rest => exec c { s with pending := rest }

/-- A state with the command a word spells at the front of its queue; unchanged where the word spells none. -/
def State.withFetchWord (s : State) (nbits w : Nat) : State :=
  match decodeTableWord nbits w with
  | some c => { s with pending := c :: s.pending }
  | none => s

end Sys2Proof.Machine
end

