-- ==== Sys2Proof/Safety.lean ====
section
/-!
DEFINITION. What the statements call a well-kept machine.
-/
namespace Sys2Proof

/-- Host memory and its poison marks stand in canonical form. -/
def hostWf (s : Machine.State) : Bool := Machine.tabWf 0 s.host.mem && Machine.tabWf false s.host.poison

end Sys2Proof
end

