-- ==== Sys2Proof/Certificates/Slice0/Obligations.lean ====
section
/-!
DEFINITION. The statements for the provers. Each command has a claim of its own, `Claims.<command>`, which says what
state the command leaves when it acts; `Obligations.<Name>` states the claims of the commands its docstring names
together. Hypotheses stand beside the claims under `Claims.Pre`, so that the tests can show a state that meets them. A
claim names the whole next state, or every part of it that may differ, so what it does not name is unchanged.
-/
namespace Sys2Proof.Claims
open Sys2Proof.Machine

/-! ### What the claims share -/

/-- A descriptor's command is acted on: its ring is in use and its hub serves it (R606, R536), ORDER and R33 let it start
(R327), steps 1 to 6 of R313 pass, and no quench stalls it where it moves data (R621). -/
def accepts (s : State) (d : Desc) (x : DescSpec) : Bool :=
  match s.ring? d.ring.toNat with
  | none => false
  | some r => s.serves d.ring.toNat && r.mayStart d && !s.writeWaits r d && (descCheck r.sqOrder d x).isNone
      && !(x.moves && s.stalled)

/-- The command completes with SUCCESS and a RESULT, having changed the state to `u`. -/
def endsOk (i : Instr) (s u : State) (d : Desc) (result : BitVec 64) : Prop :=
  exec i s = .next (u.complete d.ticket { status := 0, result := result })

/-- The host memory is as it was at every address outside a list of ranges. -/
def hostKept (s t : State) (written : List (Nat × Nat)) : Prop :=
  ∀ a, (∀ r ∈ written, a < r.1 ∨ r.1 + r.2 ≤ a) → tabGet 0 t.host.mem a = tabGet 0 s.host.mem a

/-! ### NOP, contexts, quotas and rings (chapter 09) -/

abbrev Pre.nop (s : State) (d : Desc) : Prop := accepts s d nopSpec = true
/-- NOP completes and does nothing else. -/
def nop : Prop := ∀ s d, Pre.nop s d → endsOk (.nop d) s s d 0

abbrev Pre.contextCreate (s : State) (d : Desc) : Prop :=
  accepts s d contextCreateSpec = true ∧ s.ctx? (d.f 91 80) = none
    ∧ (s.mov.hubs.toList.any (fun m : Movers => m.directGranted != 0)) = false ∧ (s.rel.bist.state == 2) = false
/-- CONTEXT_CREATE adds a context with quotas 0 and seed 0 (R136, R285). -/
def contextCreate : Prop := ∀ s d, Pre.contextCreate s d → ∃ c : Ctx,
  endsOk (.contextCreate d) s { s with ctxs := s.ctxs ++ [c] } d 0
    ∧ c.id = d.f 91 80 ∧ c.shade.quota = 0 ∧ c.umbra.quota = 0 ∧ c.penumbra.quota = 0
    ∧ c.shade.charge = 0 ∧ c.umbra.charge = 0 ∧ c.penumbra.charge = 0
    ∧ c.seedLo = 0 ∧ c.seedHi = 0 ∧ c.active = none ∧ c.step = none

abbrev Pre.contextDestroy (s : State) (d : Desc) (c : Ctx) : Prop :=
  accepts s d contextDestroySpec = true ∧ s.ctx? (d.f 91 80) = some c
    ∧ (s.rg.list.any (fun r : Ring => r.ctx == c.id && r.id != 0)) = false
/-- CONTEXT_DESTROY ends the context's groups, streams and step, frees its handles, sets its counters to 0, and removes the
context; the last step is the only one where the context has none of them (Table 9-17). -/
def contextDestroy : Prop := ∀ s d c, Pre.contextDestroy s d c →
  (∃ u : State, endsOk (.contextDestroy d) s u d 0 ∧ u.ctx? c.id = none)
  ∧ ((s.groups.any (fun g : Group => g.ctx == c.id)) = false → c.streams = [] → c.step = none →
      (s.hs.list.any (fun h : Handle => h.key.ctx == c.id)) = false →
      (∀ h : Hub, (s.syn.hubs[h].cfg.any (fun e => bitOf e.2.toNat 31 && bitsOf e.2.toNat 11 0 == c.id)) = false) →
      endsOk (.contextDestroy d) s { s with ctxs := s.ctxs.filter (fun x : Ctx => x.id ≠ c.id), regs :=
        { s.regs with lastCounts := s.regs.lastCounts.filter (fun x : Nat × List Byte => x.1 ≠ c.id) } } d 0)

abbrev Pre.setQuota (s : State) (d : Desc) (c : Ctx) : Prop :=
  accepts s d (setQuotaSpec d) = true ∧ s.ctx? (d.f 91 80) = some c
    ∧ (d.f 191 128 ≤ (c.ledger (d.f 67 64)).quota
        ∨ s.quotaSum (d.f 67 64) - (c.ledger (d.f 67 64)).quota + d.f 191 128 ≤ s.capacity (d.f 67 64))
/-- SET_QUOTA sets one tier's quota of one context, and answers the old one (R136). -/
def setQuota : Prop := ∀ s d c, Pre.setQuota s d c →
  endsOk (.setQuota d) s
    (s.setCtx (c.setLedger (d.f 67 64) { c.ledger (d.f 67 64) with quota := d.f 191 128 })) d
    (BitVec.ofNat 64 (c.ledger (d.f 67 64)).quota)

abbrev Pre.setExport (s : State) (d : Desc) (pkg : BitVec 64) (p : Peer) : Prop :=
  accepts s d (setExportSpec d) = true ∧ s.bundlePeer (Fin.ofNat 32 (d.f 69 64)) = some pkg ∧ s.peer? pkg = some p
    ∧ (d.f 191 128 ≤ p.grantGiven ∨ s.quotaSum 3 + d.f 191 128 ≤ s.capacity 3 + p.grantGiven)
/-- SET_EXPORT sets what a peer is granted, tells the peer of a change, and answers the old grant (R137, R402). -/
def setExport : Prop := ∀ s d pkg p, Pre.setExport s d pkg p →
  let u := s.setPeer { p with grantGiven := d.f 191 128 }
  endsOk (.setExport d) s (if d.f 191 128 = p.grantGiven then u else u.sendGrant pkg (s.exportFrozen p)) d
    (BitVec.ofNat 64 p.grantGiven)

abbrev Pre.setSeed (s : State) (d : Desc) (c : Ctx) : Prop :=
  accepts s d setSeedSpec = true ∧ s.ctx? (d.f 91 80) = some c
/-- SET_SEED sets a context's seed (R285). -/
def setSeed : Prop := ∀ s d c, Pre.setSeed s d c →
  endsOk (.setSeed d) s
    (s.setCtx { c with seedLo := BitVec.ofNat 64 (d.f 191 128), seedHi := BitVec.ofNat 64 (d.f 255 192) }) d 0

/-- The ring RING_CREATE makes (R301, R302, R304): every counter at 0. -/
def freshRing (d : Desc) : Ring :=
  { id := ringArg d, ctx := d.f 91 80, state := .active, sqOrder := d.f 95 92, cqOrder := d.f 99 96, limit := d.f 112 100,
    ctrlAddr := d.f 191 128, sqAddr := d.f 255 192, cqAddr := d.f 319 256, sqHead := 0, sqTail := 0, lastSseq := 0,
    cqTail := 0, cqHead := 0, held := [], lost := 0, lostQueued := false, inflight := [], suspect := none, deaf := false,
    destroying := none }

abbrev Pre.ringCreate (s : State) (d : Desc) : Prop :=
  accepts s d (ringCreateSpec d) = true ∧ ringArg d ≠ 0 ∧ s.ring? (ringArg d) = none
    ∧ (s.ctx? (d.f 91 80)).isSome = true ∧ s.spansBad (ringArg d) (spansArg d) = false
/-- RING_CREATE adds a ring (R301, R302, R304). -/
def ringCreate : Prop := ∀ s d, Pre.ringCreate s d →
  endsOk (.ringCreate d) s { s with rg := { s.rg with list := s.rg.list ++ [freshRing d] } } d 0

abbrev Pre.ringDestroy (s : State) (d : Desc) (r : Ring) : Prop :=
  accepts s d ringDestroySpec = true ∧ ringArg d ≠ 0 ∧ s.ring? (ringArg d) = some r ∧ r.destroying = none
/-- RING_DESTROY removes an idle ring with what it held, and answers how many completions it held; a ring with commands in
flight stops fetching until they have ended (Table 9-17). -/
def ringDestroy : Prop := ∀ s d r, Pre.ringDestroy s d r →
  if r.inflight = [] then
    let u := { s with rg := { s.rg with list := s.rg.list.filter (fun x : Ring => x.id ≠ r.id) } }
    let u := u.setWindow (hubOf r.id) (s.rg.windows[hubOf r.id].filter (fun w => w.ring ≠ r.id))
    ∃ a, s.ring? 0 = some a ∧
      exec (.ringDestroy d) s = .next ((u.setRing (a.ended d.sseq)).answer d.ticket
        { status := 0, result := BitVec.ofNat 64 r.held.length })
  else exec (.ringDestroy d) s = .next (s.setRing { r with destroying := some d.ticket })

abbrev Pre.getRingState (s : State) (d : Desc) : Prop := accepts s d (getRingStateSpec d) = true
/-- GET_RING_STATE answers one record per ring from the first named, 256 for COUNT 0 (Table 9-17). -/
def getRingState : Prop := ∀ s d, Pre.getRingState s d →
  let n := if d.f 127 120 = 0 then 256 else d.f 127 120
  exec (.getRingState d) s = .next (s.complete d.ticket
    { status := 0, result := BitVec.ofNat 64 n
      xbytes := (List.range n).flatMap (fun i => s.ringRecord (ringArg d + i)) })

abbrev Pre.ringAttach (s : State) (d : Desc) (r : Ring) : Prop :=
  accepts s d (ringAttachSpec d) = true ∧ r.id ≠ 0 ∧ s.ring? (ringArg d) = some r
    ∧ s.spansBad r.id (spansArg d) = false
    ∧ (BitVec.ofNat 32 (d.f 351 320) - s.replayFirst r).toNat ≤ (r.cqTail - s.replayFirst r).toNat
    ∧ s.readHead (d.f 191 128) = BitVec.ofNat 32 (d.f 351 320) ∧ s.readTail (d.f 191 128) = r.sqHead
/-- RING_ATTACH makes the ring ACTIVE with the geometry named, its SQ_HEAD kept and its CQ_HEAD at REPLAY_FROM; the other
job rings keep theirs (R336). -/
def ringAttach : Prop := ∀ s d r, Pre.ringAttach s d r → ∃ (t : State) (x : Ring),
  exec (.ringAttach d) s = .next t ∧ t.ring? r.id = some x
    ∧ x.state = .active ∧ x.ctx = r.ctx ∧ x.sqOrder = d.f 95 92 ∧ x.cqOrder = d.f 99 96 ∧ x.limit = d.f 112 100
    ∧ x.ctrlAddr = d.f 191 128 ∧ x.sqAddr = d.f 255 192 ∧ x.cqAddr = d.f 319 256
    ∧ x.sqHead = r.sqHead ∧ x.cqHead = BitVec.ofNat 32 (d.f 351 320) ∧ x.inflight = r.inflight
    ∧ (∀ id, id ≠ 0 → id ≠ r.id → t.ring? id = s.ring? id)
    ∧ t = { s with host := t.host, rg := t.rg }

abbrev Pre.ringResume (s : State) (d : Desc) (r : Ring) : Prop :=
  accepts s d ringResumeSpec = true ∧ r.id ≠ 0 ∧ s.ring? (ringArg d) = some r ∧ r.state = .stopped
/-- RING_RESUME makes a STOPPED ring ACTIVE and reads its control block (Table 9-17). -/
def ringResume : Prop := ∀ s d r, Pre.ringResume s d r →
  endsOk (.ringResume d) s ((s.setRing { r with state := .active, suspect := none }).readControl r.id) d 0

/-! ### Doorbells, fetching and the host port (chapter 09) -/

/-- The words of a summary line that are not zero. -/
def lineWords (s : State) (line : Nat) : List Nat :=
  ((List.range 8).filter (fun w => s.hostNum (s.lineAddr line + 8 * w) 8 != 0)).map (fun w => 8 * line + w)

/-- One SWAP0 for each of these words, tagged in order (R308). -/
def swapReqs (s : State) (h : Hub) (words : List Nat) : List PortReq :=
  (words.zipIdx).map (fun x => { tag := s.rg.ports[h].nextTag + BitVec.ofNat 16 x.2, addr := s.lineAddr 0 + 8 * x.1, len := 8
                                 since := s.tick, use := .summary x.1 })

/-- What a poll of these lines leaves: each word that is not zero is asked for by SWAP0, and nothing else changes. -/
def polled (s t : State) (h : Hub) (lines : List Nat) : Prop :=
  let ws := lines.flatMap (lineWords s)
  t.rg.ports[h].swaps = s.rg.ports[h].swaps ++ swapReqs s h ws
    ∧ t.rg.ports[h].nextTag = s.rg.ports[h].nextTag + BitVec.ofNat 16 ws.length
    ∧ t.rg.ports[h].reads = s.rg.ports[h].reads ∧ t.rg.ports[h].fences = s.rg.ports[h].fences
    ∧ (∀ g : Hub, g ≠ h → t.rg.ports[g] = s.rg.ports[g])
    ∧ t = { s with rg := { s.rg with ports := t.rg.ports } }

abbrev Pre.summaryPoll (s : State) (hub : Hub) : Prop := s.hubServes hub = true
/-- SUMMARY_POLL asks for every word of its 32 lines that is not zero (R307, R308). -/
def summaryPoll : Prop := ∀ s hub, Pre.summaryPoll s hub → ∃ t,
  exec (.summaryPoll hub) s = .next t ∧ polled s t hub ((List.range 32).map (fun i => 32 * hub.val + i))

abbrev Pre.watch (s : State) (hub : Hub) (line : BitVec 7) : Prop :=
  s.hubServes hub = true ∧ s.regs.hubs[hub].watchEn = true ∧ line.toNat / 32 = hub.val
/-- WATCH does the same for the one line it names (R307). -/
def watch : Prop := ∀ s hub line, Pre.watch s hub line → ∃ t,
  exec (.watch hub line) s = .next t ∧ polled s t hub [line.toNat]

abbrev Pre.swapData (s : State) (hub : Hub) (tag : BitVec 16) (q : PortReq) (word : Nat) : Prop :=
  s.rg.ports[hub].swaps.find? (fun q : PortReq => q.tag == tag) = some q ∧ q.use = .summary word
/-- SWAP_DATA: the word's bytes are zero, the request is over, and the doorbell of each bit that was set is rung: bit b
stands for the ring R305 gives. -/
def swapData : Prop := ∀ s hub tag q word, Pre.swapData s hub tag q word →
  let p := s.rg.ports[hub]
  let u := (s.setPort hub { p with swaps := p.swaps.filter (fun x : PortReq => x.tag ≠ tag) }).hostWrite q.addr
    (List.replicate 8 0)
  let bits := ((List.range 64).filter (bitOf (s.hostNum q.addr 8))).map (fun i => 64 * word + i)
  exec (.swapData hub tag) s
    = .next (bits.foldl (fun (s : State) b => s.rang hub (4 * (b % 16384) + b / 16384)) u)

abbrev Pre.descriptorFetch (s : State) (ring : BitVec 16) (r : Ring) : Prop :=
  s.ring? ring.toNat = some r ∧ s.serves r.id = true ∧ s.stalled = false ∧ s.shutting = false ∧ r.fetches = true
    ∧ r.inflight.length < r.limit ∧ r.sqTail = r.sqHead + 1
    ∧ (s.slotOf r r.sqHead).extractLsb' 0 32 = r.sqHead ∧ (s.slotOf r r.sqHead).getLsbD 55 = false
    ∧ opcodeListed (bitsOf (s.slotOf r r.sqHead).toNat 63 56) = true
/-- DESCRIPTOR_FETCH of one plain slot: SQ_HEAD passes it and is written, and the descriptor is in flight (R309 to R312). -/
def descriptorFetch : Prop := ∀ s ring r, Pre.descriptorFetch s ring r →
  exec (.descriptorFetch ring) s = .next ((s.setRing { r with
      sqHead := r.sqHead + 1, lastSseq := r.sqHead
      inflight := r.inflight ++ [{ sseq := r.sqHead, slot := s.slotOf r r.sqHead, payload := 0 }] }).hostWrite
    (r.ctrlAddr + 64) (leBytes 8 (r.sqHead + 1).toNat))

abbrev Pre.fetchOpcode (s : State) (ring : BitVec 16) (r : Ring) : Prop :=
  s.ring? ring.toNat = some r ∧ s.serves r.id = true ∧ s.stalled = false ∧ s.shutting = false ∧ r.fetches = true
    ∧ r.inflight.length < r.limit ∧ r.sqTail = r.sqHead + 1
    ∧ (s.slotOf r r.sqHead).extractLsb' 0 32 = r.sqHead ∧ (s.slotOf r r.sqHead).getLsbD 55 = false
    ∧ opcodeListed (bitsOf (s.slotOf r r.sqHead).toNat 63 56) = false
/-- A slot whose OPCODE is not listed is taken in the same way, and its command ends with BAD_OPCODE, which neither reads
XRES nor is suppressed (R313 step 1). -/
def fetchOpcode : Prop := ∀ s ring r, Pre.fetchOpcode s ring r → ∃ u : State,
  exec (.descriptorFetch ring) s = .next (u.complete
      { ring := r.id, sseq := r.sqHead, quiet := false, xres := false, resultAddr := 0 } { status := 0x01 })
    ∧ u = (s.setRing { r with sqHead := r.sqHead + 1, lastSseq := r.sqHead
                              inflight := r.inflight ++ [{ sseq := r.sqHead, slot := s.slotOf r r.sqHead, payload := 0 }] }).hostWrite
        (r.ctrlAddr + 64) (leBytes 8 (r.sqHead + 1).toNat)

abbrev Pre.seqGap (s : State) (ring : BitVec 16) (r : Ring) (named : BitVec 32) : Prop :=
  s.ring? ring.toNat = some r ∧ s.serves r.id = true ∧ r.state = .active
    ∧ (((r.sqTail - r.sqHead).toNat ≤ ringSize r.sqOrder ∧ ∃ t, r.suspect = some (named, t) ∧ t + twoUs ≤ s.tick
          ∧ (s.slotOf r named).extractLsb' 0 32 ≠ named)
      ∨ (ringSize r.sqOrder < (r.sqTail - r.sqHead).toNat ∧ named = r.sqTail))
/-- SEQ_GAP stops the ring, records it and posts an entry of kind RING with status SEQ_GAP (R310, R311). The number beside
the one named is a free value (assumption 2). -/
def seqGap : Prop := ∀ s ring r named, Pre.seqGap s ring r named →
  let u := (s.setRing { r with state := .stopped, suspect := none }).event (hubOf r.id)
    (ev 0x00A0 2 (r.id + named.toNat * 2 ^ 32))
  exec (.seqGap ring) s = .next (({ u with freeCount := u.freeCount + 1 }).post r.id false 0 0x07 0 false 4
    (Config.freeValue 32 u.freeCount ++ named))

abbrev Pre.cqHeadReread (s : State) (ring : BitVec 16) (r : Ring) : Prop :=
  s.ring? ring.toNat = some r ∧ s.serves r.id = true ∧ (r.tight = true ∨ r.held ≠ [])
/-- CQ_HEAD_REREAD takes the CQ_HEAD in host memory: written completions below it leave the replay window, and held ones
are written while there is room (R329, R332). -/
def cqHeadReread : Prop := ∀ s ring r, Pre.cqHeadReread s ring r →
  let head := s.readHead r.ctrlAddr
  let w := s.rg.windows[hubOf r.id].filter (fun w : Written => w.ring != r.id || seqIn w.cseq head r.cqTail)
  exec (.cqHeadReread ring) s
    = .next (((s.setWindow (hubOf r.id) w).setRing { r with cqHead := head }).writeHeld r.held.length r.id)

abbrev Pre.hostFlitReceive (s : State) (hub : Hub) (f : HostFlit) : Prop :=
  s.rg.ports[hub].retraining = false ∧ f.fcrcOk = true ∧ f.dcrcOk = true ∧ f.seq = s.rg.ports[hub].rxExpect
/-- HOST_FLIT_RECEIVE of a whole flit in order: it is acknowledged, its ACK and credits act, and its NAK is noted
(R344, R345). -/
def hostFlitReceive : Prop := ∀ s hub f, Pre.hostFlitReceive s hub f →
  let p := s.rg.ports[hub]
  exec (.hostFlitReceive hub f) s = .next (s.setPort hub (({ p with
    unacked := p.unacked.filter (fun x => decide (2 ^ 15 ≤ (f.ack - x.seq).toNat))
    rxExpect := p.rxExpect + 1, ackOut := f.seq, nakOut := false, nakSeen := p.nakSeen || f.nak
    msgCredits := p.msgCredits + f.creditMsgs, dataCredits := p.dataCredits + f.creditData } : HostPort).pump))

/-- A flit that fails FCRC or a DCRC is discarded and NAKed (R344). -/
def hostFlitBad : Prop := ∀ s hub f, s.rg.ports[hub].retraining = false → (f.fcrcOk = false ∨ f.dcrcOk = false) →
  exec (.hostFlitReceive hub f) s = .next (s.setPort hub { s.rg.ports[hub] with nakOut := true })

abbrev Pre.hostPortResend (s : State) (hub : Hub) : Prop :=
  s.rg.ports[hub].nakSeen = true ∧ s.rg.ports[hub].retraining = false
/-- HOST_PORT_RESEND sends again what is unacknowledged; a flit sent again 8 times makes the port retrain, and the locks
its host holds are ABANDONED (R344, R488). -/
def hostPortResend : Prop := ∀ s hub, Pre.hostPortResend s hub →
  let p := s.rg.ports[hub]
  exec (.hostPortResend hub) s = .next (
    if p.unacked.any (fun f : HFlit => 8 ≤ f.resends) then
      (s.setPort hub { p with retraining := true, nakSeen := false }).abandonWhere hub
        (fun b => b == BitVec.ofNat 8 (128 + hub.val))
    else s.setPort hub { p with nakSeen := false, unacked := p.unacked.map (fun f : HFlit =>
      ({ f with resends := f.resends + 1 } : HFlit)) })

abbrev Pre.hostPortRetrained (s : State) (hub : Hub) (module : Option (Fin 16)) : Prop :=
  match module with
  | some m => s.rg.ports[hub].modules.getLsbD m.val = false
  | none => s.rg.ports[hub].retraining = true
/-- HOST_PORT_RETRAINED: the port goes on, or a module rejoins and that is recorded (R338, R344). -/
def hostPortRetrained : Prop := ∀ s hub module, Pre.hostPortRetrained s hub module →
  let p := s.rg.ports[hub]
  exec (.hostPortRetrained hub module) s = .next (match module with
    | some m => (s.setPort hub { p with modules := p.modules ||| (1#16 <<< m.val) }).event hub
        (evU 0x0055 1 12 m.val m.val)
    | none => s.setPort hub ({ p with retraining := false, unacked := p.unacked.map (fun f : HFlit =>
        ({ f with resends := 0 } : HFlit)) } : HostPort).pump)

abbrev Pre.hostModuleLeftOut (s : State) (hub : Hub) (module : Fin 16) : Prop :=
  s.rg.ports[hub].modules.getLsbD module.val = true
/-- HOST_MODULE_LEFT_OUT: the port goes on without the module, which is recorded (R338). -/
def hostModuleLeftOut : Prop := ∀ s hub module, Pre.hostModuleLeftOut s hub module →
  let p := s.rg.ports[hub]
  exec (.hostModuleLeftOut hub module) s = .next ((s.setPort hub { p with modules := p.modules &&& ~~~(1#16 <<< module.val) }).event hub
    (evU 0x0055 1 12 module.val (module.val + 16)))

abbrev Pre.rdData (s : State) (hub : Hub) (tag : BitVec 16) (q : PortReq) (k : HKey) (b : Nat) : Prop :=
  s.rg.ports[hub].reads.find? (fun q : PortReq => q.tag == tag) = some q ∧ q.use = .readyBlock k b
/-- RD_DATA: the block arrives and joins the fill that asked for it, or the read failed, which is recorded and ends the
fill with TIER_FAULT (R157, R316, R343). -/
def rdData : Prop := ∀ s hub tag error poison q k b, Pre.rdData s hub tag q k b →
  let p := s.rg.ports[hub]
  let u := s.setPort hub { p with reads := p.reads.filter (fun x : PortReq => x.tag ≠ tag) }
  exec (.rdData hub tag error poison) s = .next (
    if error then
      let v := u.event hub (ev 0x0033 2 q.addr)
      match v.handle? k with
      | some x => v.failFill x 0x22
      | none => v
    else u.blockIn k b (poison != 0))

abbrev Pre.wrErr (s : State) (hub : Hub) (tag : BitVec 16) (w : PortWrite) : Prop :=
  s.rg.ports[hub].writes.find? (fun w : PortWrite => w.tag == tag) = some w
/-- WR_ERR of a channel's write halts the channel with BUS cause 1, LATE once its pulse was raised (R376). -/
def wrErr : Prop := ∀ s hub tag w, Pre.wrErr s hub tag w →
  let p := s.rg.ports[hub]
  exec (.wrErr hub tag) s
    = .next ((s.setPort hub { p with writes := p.writes.filter (fun x : PortWrite => x.tag ≠ tag) }).haltChan hub w.ch 1 true w.late)

abbrev Pre.fenceAck (s : State) (hub : Hub) (number : BitVec 32) (w : FenceWait) : Prop :=
  s.rg.ports[hub].fences.any (fun f : PortFence => f.number == number) = true ∧ s.rg.fenceWaits = [w]
    ∧ w.fences = [(hub, number)] ∧ w.kind = 0
/-- FENCE_ACK of the last fence a completion waits for: the completion is formed (R31, R32). -/
def fenceAck : Prop := ∀ s hub number w, Pre.fenceAck s hub number w →
  let p := s.rg.ports[hub]
  let u := s.setPort hub { p with fences := p.fences.filter (fun f : PortFence => f.number ≠ number) }
  exec (.fenceAck hub number) s = .next (({ u with rg := { u.rg with fenceWaits := [] } }).complete w.ticket
    { status := w.status, flags := w.flags, result := w.result, xbytes := w.xbytes })

abbrev Pre.fenceTimeout (s : State) (hub : Hub) (number : BitVec 32) (f : PortFence) : Prop :=
  s.rg.ports[hub].fences.find? (fun f : PortFence => f.number == number) = some f ∧ f.since + 10 * msTicks ≤ s.tick
/-- FENCE_TIMEOUT: what waits for the fence ends with TIER_FAULT, channels that wait for it halt with BUS cause 6, the
failure is recorded, and the port retrains (R346). The address in the record is a free value (assumption 2). -/
def fenceTimeout : Prop := ∀ s hub number f, Pre.fenceTimeout s hub number f →
  let p := s.rg.ports[hub]
  let u := (s.setPort hub { p with fences := p.fences.filter (fun f : PortFence => f.number ≠ number) }).failWaits
    (fun w : FenceWait => (hub, number) ∈ w.fences)
  let u := (u.fenceChans hub number).foldl (fun (s : State) c => s.haltChan hub c 6 true false) u
  exec (.fenceTimeout hub number) s = .next (((({ u with freeCount := u.freeCount + 1 }).event hub
    (ev 0x0033 2 (Config.freeValue 57 u.freeCount).toNat))).retrainPort hub)

abbrev Pre.hostPortTimeout (s : State) (hub : Hub) (tag : BitVec 16) (q : PortReq) : Prop :=
  (s.rg.ports[hub].reads ++ s.rg.ports[hub].swaps).find? (fun q : PortReq => q.tag == tag) = some q
    ∧ q.since + 10 * msTicks ≤ s.tick
/-- HOST_PORT_TIMEOUT: the request is over and recorded as failed; a fill that asked for it ends with TIER_FAULT (R157). -/
def hostPortTimeout : Prop := ∀ s hub tag q, Pre.hostPortTimeout s hub tag q →
  let p := s.rg.ports[hub]
  let u := (s.setPort hub { p with reads := p.reads.filter (fun x : PortReq => x.tag ≠ tag)
                                   swaps := p.swaps.filter (fun x : PortReq => x.tag ≠ tag) }).event hub (ev 0x0033 2 q.addr)
  exec (.hostPortTimeout hub tag) s = .next (match q.use with
    | .readyBlock k _ => match u.handle? k with
      | some x => u.failFill x 0x22
      | none => u
    | _ => u)


/-! ### Handles (chapters 02 and 09) -/

abbrev Pre.register (s : State) (d : Desc) (c : Ctx) (g : Reg) (f : Fate) (tie : Bool) : Prop :=
  accepts s d (registerSpec d) = true ∧ s.ctx? (s.descCtx d) = some c ∧ resolveReg c d = .ok (g, f, tie)
    ∧ shapeOk g.shape.format g.shape.size g.shape.rows g.shape.rowLen = true
    ∧ s.handle? { ctx := s.descCtx d, obj := d.f 103 64 } = none ∧ fatePermitted g f = true
    ∧ s.rangeUsed (s.descCtx d) + roundUp g.shape.size 4096 ≤ 2 ^ 48
    ∧ (s.hs.list.filter (fun h => h.key.entry == HKey.entry { ctx := s.descCtx d, obj := d.f 103 64 })).length < 262144
/-- REGISTER adds the entry of the object named, with the next generation and no home: REGISTERED, or DISCARDED where its
fate is DROP. A tie of the policy table is counted (R41, R46, R106). -/
def register : Prop := ∀ s d c g f tie, Pre.register s d c g f tie → ∃ h : Handle,
  let k : HKey := { ctx := s.descCtx d, obj := d.f 103 64 }
  let u := if tie then s.setCtx { c with counts := { c.counts with ties := c.counts.ties + 1 } } else s
  endsOk (.register d) s { u with hs := { list := s.hs.list ++ [h]
                                          gens := s.hs.gens.filter (fun x => decide (x.1 ≠ k)) ++ [(k, h.gen)] } } d
      (BitVec.ofNat 64 h.word)
    ∧ h.key = k ∧ h.gen = nextGen (s.genOf k) ∧ h.shape = g.shape ∧ h.fate = f ∧ h.place = g.place
    ∧ h.state = (if f == .drop then .discarded else .registered) ∧ h.keepAddr = (if f == .keep then g.keep else 0)
    ∧ h.homes = [] ∧ h.readers = 0 ∧ h.updates = 0 ∧ h.chargeShade = 0 ∧ h.chargeUmbra = 0 ∧ h.chargePenumbra = 0

abbrev Pre.free (s : State) (d : Desc) (h : Handle) : Prop :=
  accepts s d freeSpec = true ∧ s.named (s.descCtx d) (d.f 127 64) = .ok h
/-- FREE puts the handle in FREEING without a fill or migration; a handle that had neither is all that changes, but for a
pending value of it, which fails (R57, R60). -/
def free : Prop := ∀ s d h, Pre.free s d h → ∃ (u : State) (x : Handle),
  endsOk (.free d) s u d 0 ∧ u.handle? h.key = some x ∧ x.state = .freeing ∧ x.fill = none ∧ x.mig = none
    ∧ (h.fill = none → h.mig = none → u = (s.freePending h.key).setHandle { h with state := .freeing, fill := none, mig := none })

abbrev Pre.freeSet (s : State) (d : Desc) : Prop := accepts s d freeSetSpec = true
/-- FREE_SET frees each live handle of one set of the context as FREE does, and answers how many (R48). -/
def freeSet : Prop := ∀ s d, Pre.freeSet s d →
  let hs := s.hs.list.filter (fun h => h.key.ctx == s.descCtx d && h.shape.set == d.f 67 64 && h.state != .freeing)
  endsOk (.freeSet d) s (hs.foldl State.freeHandle s) d (BitVec.ofNat 64 hs.length)

abbrev Pre.handleFreed (s : State) (k : HKey) (h : Handle) : Prop :=
  s.handle? k = some h ∧ h.state = .freeing ∧ h.readers = 0 ∧ s.pins k = 0
/-- HANDLE_FREED: the entry is FREE, no longer listed, and its charges are returned (R57). -/
def handleFreed : Prop := ∀ s k h, Pre.handleFreed s k h →
  exec (.handleFreed k) s = .next ((s.returnCharges h).dropHandle k)

/-- The handle an OFFLOAD in MODE 0 or 1 fills: inline data is its content from the start. -/
def inlineHandle (d : Desc) (h : Handle) : Handle :=
  if d.f 193 192 = 1 then { h with content := natTab h.shape.size d.payload.toNat } else h

/-- The fill an OFFLOAD in MODE 0 or 1 begins: from the KEEP range, from the address named, or from the descriptor. -/
def offloadFill (s : State) (d : Desc) (h : Handle) : Fill :=
  let f := fillOf d d.ticket (s.descCtx d)
    (if h.fate == Fate.keep then h.keepAddr else if d.f 193 192 = 1 then 0 else d.f 191 128)
  if d.f 193 192 = 1 then { f with readyBlocks := 0, blocksIn := 1 } else f

abbrev Pre.offload (s : State) (d : Desc) (h : Handle) (u : State) : Prop :=
  accepts s d (offloadSpec d) = true ∧ d.f 193 192 ≤ 1 ∧ s.named (s.descCtx d) (d.f 127 64) = .ok h
    ∧ (d.f 193 192 = 1 → h.fate ≠ .keep ∧ h.shape.size ≤ 192 ∧ strayBits d.payload.toNat [(8 * h.shape.size - 1, 0)] = false)
    ∧ h.fate ≠ .recompute ∧ (h.fate = .keep → d.f 191 128 = 0)
    ∧ h.state = .registered ∧ s.foreignReady d = false ∧ s.placeWaits h = false
    ∧ s.beginFill (inlineHandle d h) (offloadFill s d h) = .ok u
/-- OFFLOAD in MODE 0 or 1: the handle's fill begins, and takes its whole source at once where it waits for no counter
(R82, R316). -/
def offload : Prop := ∀ s d h u, Pre.offload s d h u → exec (.offload d) s = .next (u.takeSource h.key)

abbrev Pre.beginFill (s : State) (h x : Handle) (f : Fill) (p : Placing) (c : Ctx) : Prop :=
  s.handle? h.key = some x ∧ h.fate = .stash ∧ s.ctx? h.key.ctx = some c
    ∧ (c.ledger h.place.tier).charge + chargeFor h.place.tier h.shape.size ≤ (c.ledger h.place.tier).quota
    ∧ s.placeAll h.place h.key.obj h.shape.size (List.range (stripeCount h.shape.size)) = some p
/-- A fill that its ledger takes and that finds places for every stripe begins: the charge is taken, and the handle is
FILLING with a home for each stripe (R53, R129, R140). -/
def beginFill : Prop := ∀ s h x f p c, Pre.beginFill s h x f p c → ∃ (u : State) (y : Handle) (k : Ctx),
  s.beginFill h f = .ok u ∧ u.handle? h.key = some y ∧ y.state = .filling ∧ y.fill = some f
    ∧ y.homes.map Home.unit = p.chosen ∧ y.charged h.place.tier = chargeFor h.place.tier h.shape.size
    ∧ u.ctx? h.key.ctx = some k
    ∧ (k.ledger h.place.tier).charge = (c.ledger h.place.tier).charge + chargeFor h.place.tier h.shape.size
    ∧ (∀ j, j ≠ h.key → u.handle? j = s.handle? j)
    ∧ u = { s with hs := u.hs, ctxs := u.ctxs, units := u.units }

/-- QUOTA_EXCEEDED is what a fill that its ledger does not take ends with, and nothing is charged or placed (R140). -/
def fillOverQuota : Prop := ∀ s d h, accepts s d (offloadSpec d) = true → d.f 193 192 = 0 →
  s.named (s.descCtx d) (d.f 127 64) = .ok h → h.fate.stored = true → h.state = .registered → s.foreignReady d = false →
  s.placeWaits h = false → s.ledgerTakes h.key.ctx h.place.tier (chargeFor h.place.tier h.shape.size) = false →
  exec (.offload d) s = .next (s.complete d.ticket { status := 0x17 })

abbrev Pre.offloadFwd (s : State) (d : Desc) (hs : List (Option Handle)) (i0 : Handle) (r : PlanRecipe) (u : State) : Prop :=
  let outs := hs.drop 8
  let live := (outs.zipIdx).filterMap (fun x => x.1.map (fun h => (x.2, h)))
  let layers := (List.range 8).map (fun i =>
    if inMode r.ops i = 4 then s.currentLayer (s.descCtx d) (inStream r.ops i) else none)
  let b : Bound := { recipe := r, inputs := hs.take 8, layers := layers, outputs := outs }
  accepts s d (offloadFwdSpec d) = true
    ∧ s.namedAll (s.descCtx d) ((List.range 12).map (fun i => d.p (8 * i) 8)) = .ok hs
    ∧ (hs.take 8).headD none = some i0 ∧ i0.fate ≠ .recompute ∧ i0.state = .registered
    ∧ (outs.any (fun x => (x.map Handle.fate) == some Fate.recompute)) = false
    ∧ (outs.all (fun x => match x with | some o => o.state == HState.registered | none => true)) = true
    ∧ (((hs.take 8).drop 1).all (fun x => match x with
        | some h => (inputState h).isNone && h.state != HState.filling && !s.permuting h.key
        | none => true)) = true
    ∧ s.recipe? (s.descCtx d) (d.f 137 128) = some r ∧ b.layersIn = true ∧ s.binds b false = true
    ∧ s.foreignReady d = false ∧ s.placeWaits i0 = false ∧ (live.any (fun o => s.placeWaits o.2)) = false
    ∧ s.forward d d.ticket b i0 live = .ok u
/-- OFFLOAD_FWD: its fills begin and its run is accepted, all together (R76, R251, R700); it answers when the run is over. -/
def offloadFwd : Prop := ∀ s d hs i0 r u, Pre.offloadFwd s d hs i0 r u → exec (.offloadFwd d) s = .next u

abbrev Pre.restore (s : State) (d : Desc) (h : Handle) : Prop :=
  accepts s d (restoreSpec d) = true ∧ s.named (s.descCtx d) (d.f 127 64) = .ok h
    ∧ restoreCheck h (d.f 167 128) (d.f 231 192) (d.f 319 256) (d.f 320 320 == 1) = none
    ∧ s.tiersUp h = true ∧ s.permuting h.key = false ∧ h.fate ≠ .recompute
/-- The restore a RESTORE descriptor asks for (Table 9-8). -/
def restoreOf (s : State) (d : Desc) : WaitingRestore :=
  { ticket := d.ticket, ringCtx := s.descCtx d, offset := d.f 167 128, length := d.f 231 192, dest := d.f 319 256
    glint := d.f 320 320 == 1, release := d.f 321 321 == 1, prio := d.prio.toNat, batch := none }
/-- RESTORE of a stored handle: it waits for a fill, has its blocks expanded by lanes where its home is compressed, and is
otherwise delivered, and ends, at once (R59, R85, R197). -/
def restore : Prop := ∀ s d h, Pre.restore s d h →
  let w := restoreOf s d
  exec (.restore d) s = .next (
    if h.state == .filling then s.setHandle { h with waiting := h.waiting ++ [w] }
    else if s.expandsOnLanes h w then s.laneRestore h w
    else s.deliverRestore h w 0)

abbrev Pre.restoreKeep (s : State) (d : Desc) (h : Handle) (r : Ring) : Prop :=
  Pre.restore s d h ∧ h.fate = .keep ∧ h.state = .resident ∧ d.f 320 320 = 0 ∧ d.f 321 321 = 0
    ∧ s.hostPoisonBlocks h.keepAddr h.shape.size = [] ∧ s.ring? d.ring.toNat = some r
    ∧ d.f 167 128 < 2097152 ∧ d.f 167 128 + (restoreOf s d).len h.shape.size ≤ 2097152 ∧ hubOf d.ring.toNat = 0
/-- A raw RESTORE of bytes of a KEEP handle's first stripe copies them from its host range, and completes with their digest
(R54, R85, R88). -/
def restoreKeep : Prop := ∀ s d h r, Pre.restoreKeep s d h r →
  let len := (restoreOf s d).len h.shape.size
  let data := s.hostSlice h.keepAddr h.shape.size
  exec (.restore d) s = .next ((s.hostDeliver (d.f 319 256) len (tabSlice data (d.f 167 128) len) (d.f 167 128 % 4096) []).complete
    d.ticket { status := 0, flags := h.marks.bits, result := digestRange data (d.f 167 128) len
               xbytes := restoreBytes none 0 0 0 0 0 })

abbrev Pre.migrate (s : State) (d : Desc) (h : Handle) (u : State) : Prop :=
  let goal := Fate.ofCode (d.f 130 128)
  let pl : Placement := { tier := d.f 323 320, hubMask := d.f 339 336, stackMask := d.f 351 344, peer := d.f 359 352 }
  accepts s d (migrateSpec d) = true ∧ s.named (s.descCtx d) (d.f 127 64) = .ok h ∧ h.state = .resident
    ∧ h.fate ≠ .recompute ∧ goal ≠ .recompute ∧ pl.tier ≠ 0 ∧ (pl.tier = 2 → pl.hubMask ≠ 0)
    ∧ (pl.tier = 3 → pl.stackMask ≠ 0 ∧ s.start.umbra = true) ∧ (pl.tier = 4 → s.start.links = true)
    ∧ changeAllowed h goal = true ∧ s.hasPending h.key = false ∧ s.permuting h.key = false
    ∧ s.targetStatus pl = none ∧ s.startMigrate h goal pl d.prio.toNat (some d.ticket) = .ok u
/-- MIGRATE of a RESIDENT handle starts its migration; it answers when the last old location is released (R56, R64). -/
def migrate : Prop := ∀ s d h u, Pre.migrate s d h u → exec (.migrate d) s = .next u

abbrev Pre.startMigrate (s : State) (h : Handle) (goal : Fate) (pl : Placement) : Prop :=
  h.fate ≠ .recompute
    ∧ (s.ledgerTakes h.key.ctx pl.tier (chargeFor pl.tier h.shape.size) = true
        ∨ (h.homes.all (fun x => x.unit.tier == pl.tier)) = true ∨ h.charged pl.tier ≠ 0)
/-- A migration that has passed its checks charges the target tier, unless the handle is charged there already, and marks
every stripe that is not at its target; stripes then begin their copies (R64, R66, R141, R146). -/
def startMigrate : Prop := ∀ s h goal pl prio t, Pre.startMigrate s h goal pl →
  let free := h.homes.all (fun x => x.unit.tier == pl.tier) || decide (h.charged pl.tier ≠ 0)
  let n := chargeFor pl.tier h.shape.size
  let u := if free then s else s.charge h.key.ctx pl.tier n
  let x := if free then h else h.setCharged pl.tier n
  let todo := (List.range (stripeCount h.shape.size)).filter (fun k => !u.atTarget x pl goal k)
  let m : Mig := { order := u.nextMigOrder, fate := goal, place := pl, prio := prio, ticket := t, drain := false
                   byController := t.isNone, todo := todo, copies := [], committed := 0, old := [], ending := none }
  s.startMigrate h goal pl prio t = .ok ((u.setHandle { x with state := .migrating, mig := some m }).pumpMigs)

abbrev Pre.migrateRecompute (s : State) (d : Desc) (h : Handle) : Prop :=
  accepts s d (migrateSpec d) = true ∧ s.named (s.descCtx d) (d.f 127 64) = .ok h ∧ h.state = .resident
    ∧ Fate.ofCode (d.f 130 128) = .recompute ∧ h.fate ≠ .recompute ∧ changeAllowed h .recompute = true
    ∧ s.inputsLive h = true
/-- MIGRATE to RECOMPUTE releases the home at once: the handle is LATENT and its charges are returned (Table 2-7). -/
def migrateRecompute : Prop := ∀ s d h, Pre.migrateRecompute s d h →
  exec (.migrate d) s = .next (((s.returnCharges h).setHandle { h with
      state := .latent, fate := .recompute, homes := [], content := [], chargeShade := 0, chargeUmbra := 0
      chargePenumbra := 0 }).complete d.ticket
    { status := 0, flags := h.marks.bits, xbytes := h.resultBytes [h.marks.digest] 0 0 })

abbrev Pre.readyBlockRead (s : State) (k : HKey) (h : Handle) (f : Fill) : Prop :=
  s.handle? k = some h ∧ h.fill = some f ∧ h.state = .filling ∧ f.readyBlocks ≠ 0
    ∧ f.nextBlock < blockCount h.shape.size
    ∧ reached (s.hostCtr f.readyHub f.readyCtr) (f.readyBase + BitVec.ofNat 32 (f.nextBlock / f.readyBlocks + 1)) = true
/-- READY_BLOCK_READ asks the host port for the next block of the source (R316). -/
def readyBlockRead : Prop := ∀ s k h f, Pre.readyBlockRead s k h f →
  exec (.readyBlockRead k) s = .next ((s.setHandle { h with fill := some { f with nextBlock := f.nextBlock + 1 } }).sendRead
    (h.stripeHub (f.nextBlock / 512)) (f.source + f.nextBlock * 4096) (min 4096 (h.shape.size - f.nextBlock * 4096))
    (.readyBlock k f.nextBlock))

abbrev Pre.fillComplete (s : State) (k : HKey) (h : Handle) (f : Fill) : Prop :=
  s.stalled = false ∧ s.handle? k = some h ∧ h.fill = some f ∧ h.state = .filling ∧ f.op = none ∧ f.run = none
    ∧ s.anyOnLanes k = false ∧ h.sourceIn f = true ∧ h.recipe = none ∧ h.fate ≠ .recompute
/-- FILL_COMPLETE of a fill whose every block is in: the handle takes its digest and flags and its fill ends. -/
def fillComplete : Prop := ∀ s k h f, Pre.fillComplete s k h f →
  let x := h.received h.content h.marks.poison Flags3.none true
  exec (.fillComplete k .ok) s
    = .next (s.endFill { x with marks := { x.marks with tiles := [], tilesKnown := false } } f)

abbrev Pre.endFill (s : State) (h x : Handle) : Prop :=
  s.handle? h.key = some x ∧ h.fate ≠ .narrow ∧ h.waiting = [] ∧ (h.fate = .recompute → h.marks.poison = [])
/-- A fill that ends well leaves the handle RESIDENT, or LATENT where it is RECOMPUTE, and completes: SUCCESS, or POISONED
where a block is poisoned (Table 2-7, R198). -/
def endFill : Prop := ∀ s h x f, Pre.endFill s h x → ∃ y : Handle,
  y = { h with state := if h.fate == .recompute then .latent else .resident, fill := none } ∧
  s.endFill h f = ((s.setHandle y).complete f.ticket (y.fillDone [y.marks.digest]
    (if y.marks.poison.isEmpty then 0 else 0x20) 0 0)).runWaiting h.key

/-- FILL_COMPLETE of a fill that failed ends it with that status: every handle of the command is REGISTERED again and
uncharged (R59, Table 2-7). -/
def fillFailed : Prop := ∀ s k h f r, s.stalled = false → s.handle? k = some h → h.fill = some f → h.state = .filling →
  r ≠ HopEnd.ok → f.run = none → f.op = none → h.waiting = [] →
  exec (.fillComplete k r) s = .next (((((s.dropLaneWork h.key).returnCharges h).setHandle { h with
      state := .registered, homes := [], content := [], frames := [], fill := none, waiting := [], chargeShade := 0
      chargeUmbra := 0, chargePenumbra := 0, marks := Marks.none, report := NarrowReport.none, recipe := none }).complete
    f.ticket { status := HopEnd.code r }))

abbrev Pre.stripeCommit (s : State) (k : HKey) (stripe : Nat) (h : Handle) (m : Mig) (x : Copy) (rest : List Copy) : Prop :=
  s.stalled = false ∧ s.handle? k = some h ∧ h.mig = some m ∧ m.copies = x :: rest ∧ x.stripe = stripe
    ∧ (s.eng.runs.any (fun r : Run => r.kind == RunKind.materialize && r.target == some k)) = false
    ∧ s.onLanes k stripe = false ∧ m.fate ≠ .narrow ∧ h.fate ≠ .recompute ∧ stripe < h.homes.length
/-- STRIPE_COMMIT of a confirmed stripe: its home is the new location, the old one waits for its readers, and the
migration goes on (R62, R64 steps 5 and 6). -/
def stripeCommit : Prop := ∀ s k stripe h m x rest, Pre.stripeCommit s k stripe h m x rest → ∃ old,
  h.homes[stripe]? = some old ∧
  exec (.stripeCommit k stripe .good) s = .next ((s.setHandle { h with
    homes := h.homes.modify stripe (fun _ => { x.target with form := .plain })
    mig := some { m with copies := m.copies.filter (fun c : Copy => c.stripe ≠ stripe), committed := m.committed + 1
                         old := m.old ++ [(stripe, old)] } }).pumpMigs)

/-- STRIPE_COMMIT of a stripe whose second confirmation failed stops the migration there with CHECK_FAILED (R65). -/
def stripeFailed : Prop := ∀ s k stripe h m x rest, Pre.stripeCommit s k stripe h m x rest →
  exec (.stripeCommit k stripe .failedTwice) s
    = .next (((s.event h.key.entry (ev 0x0071 1 h.word)).stopMig h m 0x21).pumpMigs)

abbrev Pre.oldLocationRelease (s : State) (k : HKey) (stripe : Nat) (h : Handle) (m : Mig) : Prop :=
  s.handle? k = some h ∧ h.mig = some m ∧ (m.old.any (fun x => x.1 == stripe)) = true
/-- OLD_LOCATION_RELEASE lets the old location go; a migration that has been stopped ends with its last one (R64 steps 6
and 7, R65). -/
def oldLocationRelease : Prop := ∀ s k stripe h m, Pre.oldLocationRelease s k stripe h m →
  let m' := { m with old := m.old.filter (fun x => x.1 ≠ stripe) }
  let u := s.setHandle { h with mig := some m' }
  exec (.oldLocationRelease k stripe) s = .next ((if m.ending.isSome && m'.old.isEmpty then
    u.finishMig { h with mig := some m' } m' else u).pumpMigs)

abbrev Pre.migrationStopped (s : State) (hub : Hub) (core : StopCore) (k : HKey) (h : Handle) (m : Mig) : Prop :=
  s.hs.list = [h] ∧ h.key = k ∧ h.mig = some m ∧ h.state = .migrating
    ∧ (core = .c3 → (m.copies.any (fun c : Copy => h.copyHub c.stripe == hub)) = true) ∧ (core = .c1 → k.entry = hub)
/-- MIGRATION_STOPPED stops the migration its core served, which ends with SUCCESS once its old locations are released
(R66). -/
def migrationStopped : Prop := ∀ s hub core k h m, Pre.migrationStopped s hub core k h m →
  exec (.migrationStopped hub core) s
    = .next (((s.event h.key.entry (ev 0x0071 1 h.word)).stopMig h m 0).pumpMigs)

abbrev Pre.update (s : State) (d : Desc) (h : Handle) : Prop :=
  accepts s d (updateSpec d) = true ∧ s.named (s.descCtx d) (d.f 127 64) = .ok h ∧ h.perms.mutable = true
    ∧ h.state = .resident ∧ (d.ext = true → strayBits d.payload.toNat
        [(8 * (if d.f 231 192 = 0 then h.shape.size - d.f 167 128 else d.f 231 192) - 1, 0)] = false
        ∧ (if d.f 231 192 = 0 then h.shape.size - d.f 167 128 else d.f 231 192) ≤ 192)
    ∧ ((d.f 320 320 == 1) = (h.fate == Fate.keep))
    ∧ d.f 167 128 < h.shape.size
    ∧ d.f 167 128 + (if d.f 231 192 = 0 then h.shape.size - d.f 167 128 else d.f 231 192) ≤ h.shape.size
    ∧ h.mig = none ∧ h.readers = 0 ∧ s.tiersUp h = true ∧ s.hasPending h.key = false ∧ s.permuting h.key = false
    ∧ (h.fate ≠ .keep → (h.homes.all (fun x => (s.unitState x.unit).takes)) = true
        ∧ stripeCount h.shape.size = h.homes.length)
/-- UPDATE writes the named range of the home, or of a KEEP handle counts alone, and answers the count (R61, R318). -/
def update : Prop := ∀ s d h, Pre.update s d h →
  let len := if d.f 231 192 = 0 then h.shape.size - d.f 167 128 else d.f 231 192
  exec (.update d) s = .next (
    if h.fate = .keep then (s.setHandle { h with updates := h.updates + 1 }).complete d.ticket
      { status := 0, result := BitVec.ofNat 64 (h.updates + 1).toNat }
    else ((s.writeUpdate h d (d.f 167 128) len).1.setHandle (s.writeUpdate h d (d.f 167 128) len).2).complete d.ticket
      { status := 0, result := BitVec.ofNat 64 (h.updates + 1).toNat })

abbrev Pre.queryHandle (s : State) (d : Desc) (h : Handle) : Prop :=
  accepts s d (queryHandleSpec d) = true ∧ s.queried (s.descCtx d) (d.f 127 64) = .ok (some h)
/-- QUERY_HANDLE answers the entry, or its narrow report, and writes the tile digests asked for (R43, Table 9-11). -/
def queryHandle : Prop := ∀ s d h, Pre.queryHandle s d h →
  let tiles := (List.range (d.f 319 288)).flatMap (fun i =>
    leBytes 8 ((h.marks.tiles[d.f 287 256 + i]?).map BitVec.toNat |>.getD 0))
  let u := if d.f 255 192 = 0 then s else s.hostWrite (d.f 255 192) tiles
  exec (.queryHandle d) s = .next (u.complete d.ticket
    { status := 0, result := BitVec.ofNat 64 h.word
      xbytes := if d.f 129 128 = 0 then u.entryBytes h else h.reportBytes })


/-! ### Plans, steps and batches (chapter 03) -/

abbrev Pre.loadPlan (s : State) (d : Desc) (c : Ctx) (img : Image9) : Prop :=
  accepts s d (loadPlanSpec d) = true ∧ s.ctx? (s.descCtx d) = some c ∧ c.staged = none
    ∧ s.readImage (d.f 127 64) (d.f 159 128) = some img ∧ imageCheck img (s.descCtx d) = none
    ∧ s.ledgerTakes (s.descCtx d) 2 (c.planCharge (planOf img)) = true
/-- LOAD_PLAN of an image that passes every check: the plan is the context's active plan, or staged while a step runs, and
the ring is its plan ring; it answers PLAN_ID (R92 to R94, R104). -/
def loadPlan : Prop := ∀ s d c img, Pre.loadPlan s d c img → ∃ (u : State) (x : Ctx),
  endsOk (.loadPlan d) s u d (planOf img).planId ∧ u.ctx? (s.descCtx d) = some x ∧ x.planRing = d.ring.toNat
    ∧ (if c.step.isSome then
        x.staged = some (planOf img) ∧ x.active = c.active ∧ x.rules = c.rules ∧ x.streams = c.streams
          ∧ x.shade.charge = c.shade.charge + c.planCharge (planOf img)
       else x.active = some (planOf img) ∧ x.staged = none ∧ x.rules = (planOf img).rules
          ∧ x.streams.map Stream.spec = (planOf img).streams)

/-- An image that fails a check is refused with that check's status and the INDEX it names, and nothing changes (R93). -/
def planRefused : Prop := ∀ s d c img e i, accepts s d (loadPlanSpec d) = true → s.ctx? (s.descCtx d) = some c →
  c.staged = none → s.readImage (d.f 127 64) (d.f 159 128) = some img → imageCheck img (s.descCtx d) = some (e, i) →
  exec (.loadPlan d) s = .next (s.complete d.ticket { status := e, result := BitVec.ofNat 64 i })

abbrev Pre.stepBegin (s : State) (d : Desc) (c : Ctx) : Prop :=
  accepts s d stepBeginSpec = true ∧ s.ctx? (s.descCtx d) = some c ∧ c.step = none
    ∧ (match c.active.bind Plan.markCounter with
        | some (h, m) => s.ownsCtr h m (s.descCtx d) = true
        | none => True)
/-- STEP_BEGIN: the step runs from the present tick with no batch issued, the mark is 0, exhaustion ends, gates that wait
for its number open, and the counters that realign at STEP_BEGIN do so (R94, R163, R223, R484). -/
def stepBegin : Prop := ∀ s d c, Pre.stepBegin s d c →
  let n := BitVec.ofNat 32 (d.f 95 64)
  let bs := match c.active with
    | some p => p.batches.map (fun _ => BatchRun.fresh p.basePrio)
    | none => []
  let u := s.setCtx { c with step := some { number := n, start := s.tick, batches := bs, calm := 0, ending := none }
                             exhausted := [], mark := 0, lastStep := some n, streams := c.streams.map (Stream.openGate n) }
  endsOk (.stepBegin d) s (u.realignWhere (fun w => bitOf w 31 && bitsOf w 11 0 == s.descCtx d && bitsOf w 28 27 == 1)) d
    (BitVec.ofNat 64 s.tick)

abbrev Pre.mark (s : State) (d : Desc) (c : Ctx) (r : StepRun) : Prop :=
  accepts s d markSpec = true ∧ s.stepOf (s.descCtx d) = some (c, r) ∧ c.mark < BitVec.ofNat 32 (d.f 95 64)
/-- MARK raises the mark of a running step (R94). -/
def mark : Prop := ∀ s d c r, Pre.mark s d c r →
  endsOk (.mark d) s (s.setCtx { c with mark := BitVec.ofNat 32 (d.f 95 64) }) d 0

abbrev Pre.stepEnd (s : State) (d : Desc) (c : Ctx) (r : StepRun) : Prop :=
  accepts s d stepEndSpec = true ∧ s.stepOf (s.descCtx d) = some (c, r) ∧ r.ending = none
/-- STEP_END: the step ends, with its unissued batches counted as cancelled; it answers once those issued are complete
(R94). -/
def stepEnd : Prop := ∀ s d c r, Pre.stepEnd s d c r →
  exec (.stepEnd d) s = .next (s.setCtx { c with step := some { r with
    ending := some (d.ticket, (r.batches.filter (fun b : BatchRun => !b.issued)).length) } })

abbrev Pre.stepEndComplete (s : State) (ctx : Nat) (c : Ctx) (r : StepRun) (t : Ticket) (n : Nat) : Prop :=
  s.stepOf ctx = some (c, r) ∧ r.ending = some (t, n)
    ∧ (r.batches.any (fun b : BatchRun => b.issued && !b.done)) = false
/-- STEP_END_COMPLETE: no step runs, its counts are returned and cleared, and a staged plan becomes active (R94, R104,
R124). -/
def stepEndComplete : Prop := ∀ s ctx c r t n, Pre.stepEndComplete s ctx c r t n →
  let len := s.tick - r.start
  let u := (s.setCtx { c with step := none, counts := StepCounts.zero }).complete t
    { status := 0, result := BitVec.ofNat 64 (n % 65536 + len % 2 ^ 32 * 2 ^ 32), xbytes := c.counts.bytes len }
  let u := { u with regs := { u.regs with
    lastCounts := u.regs.lastCounts.filter (fun x : Nat × List Byte => x.1 ≠ ctx) ++ [(ctx, c.counts.bytes len)] } }
  exec (.stepEndComplete ctx) s = .next (match c.staged with
    | some p => u.activate ctx p
    | none => u)

abbrev Pre.batchIssue (s : State) (ctx b : Nat) (c : Ctx) (r : StepRun) (a : Plan) (p : PlanBatch) (x : BatchRun) : Prop :=
  s.stalled = false ∧ s.shutting = false ∧ s.stepOf ctx = some (c, r) ∧ c.active = some a ∧ a.batches[b]? = some p
    ∧ r.batches[b]? = some x
    ∧ x.issued = false ∧ r.ending = none ∧ ((r.batches.take b).all (fun y : BatchRun => y.issued)) = true
    ∧ p.afterMark ≤ c.mark.toNat ∧ p.deadline - (if x.widened then p.openMax else p.openTicks) ≤ s.tick - r.start
    ∧ (r.batches.filter (fun b : BatchRun => b.issued && !b.done)).length < (if x.widened then p.lookMax else p.look)
    ∧ (p.restores.all (fun q => match s.handle? { ctx := ctx, obj := q.obj } with
        | some h => s.tiersUp h && !s.permuting h.key
        | none => true)) = true
/-- BATCH_ISSUE where the four conditions of R108 hold: the batch is issued, and its restores start in record order, each of
its object's current generation (R108, R109). -/
def batchIssue : Prop := ∀ s ctx b c r a p x, Pre.batchIssue s ctx b c r a p x →
  let u := s.setCtx { c with step := some { r with
    batches := r.batches.modify b (fun (y : BatchRun) => { y with issued := true }) } }
  exec (.batchIssue ctx b) s
    = .next ((p.restores.zipIdx).foldl (fun (s : State) q => s.batchRestore ctx c.planRing b x.prio q.2 q.1) u)

abbrev Pre.batchComplete (s : State) (ctx b : Nat) (c : Ctx) (r : StepRun) (a : Plan) (p : PlanBatch) (x : BatchRun) : Prop :=
  s.stepOf ctx = some (c, r) ∧ c.active = some a ∧ a.batches[b]? = some p ∧ r.batches[b]? = some x
    ∧ x.issued = true ∧ x.done = false ∧ p.restores.length ≤ x.ended.length
    ∧ ((List.range p.restores.length).all (fun i => x.statusOf i == 0)) = true
/-- BATCH_COMPLETE of a batch whose every restore succeeded: it is counted, late by the ticks past its deadline, its
completion of kind 1 is posted on the plan ring, and a late one is recorded (R111, R123 to R125). -/
def batchComplete : Prop := ∀ s ctx b c r a p x, Pre.batchComplete s ctx b c r a p x →
  let late : Int := ((s.tick - r.start : Nat) : Int) - (p.deadline : Int)
  let k := c.counts
  let u := s.setCtx { c with
    step := some { r with batches := r.batches.modify b (fun (y : BatchRun) => { y with done := true }) }
    counts := { k with completed := k.completed + 1, late := k.late + (if 0 < late then 1 else 0)
                       lateSum := k.lateSum + late.toNat, lateWorst := max k.lateWorst late.toNat } }
  let u := u.post c.planRing true (r.number.toNat % 65536) 0 0 false 1
    (BitVec.ofNat 64 (ofSigned 32 late * 2 ^ 32 + b * 2 ^ 20 + x.stage % 8 * 2 ^ 17 + x.actions.toNat * 2 ^ 12))
  exec (.batchComplete ctx b) s = .next (if 0 < late then
    u.event (hubOf c.planRing) (ev 0x0020 1 (ctx + b * 4096 + late.toNat % 2 ^ 32 * 2 ^ 32)) else u)

abbrev Pre.controllerEvaluate (s : State) (ctx : Nat) (c : Ctx) (r : StepRun) (p : Plan) : Prop :=
  s.stepOf ctx = some (c, r) ∧ c.active = some p ∧ p.controllerEn = true
/-- The watched batches of a step, projected (R113, R114). -/
def watchedOf (s : State) (c : Ctx) (r : StepRun) (p : Plan) : List Proj :=
  let u := { s with freeCount := s.freeCount + 1 }
  (u.projectAll c p r s.freeCount (s.tick - r.start)).filter (fun e => match p.batches[e.batch]?, r.batches[e.batch]? with
    | some b, some x => decide (b.deadline - b.openMax ≤ s.tick - r.start) && (x.issued || r.ending.isNone)
    | _, _ => false)
/-- CONTROLLER_EVALUATE notes each watched batch's longest stage; with none watched it calms nothing; a batch short of the
guard is acted on, the one of least margin; four evaluations in a row with twice the guard everywhere relax the step (R113
to R115). A projection that no rate is stated for is a free value (assumption 15). -/
def controllerEvaluate : Prop := ∀ s ctx c r p, Pre.controllerEvaluate s ctx c r p →
  let u := { s with freeCount := s.freeCount + 1 }
  let now := s.tick - r.start
  exec (.controllerEvaluate ctx) s = .next (match watchedOf s c r p with
    | [] => u.setCalm c.id 0
    | e :: es =>
      let u := u.mapBatches c.id (fun i x => match (e :: es).find? (fun q => q.batch == i) with
        | some q => { x with stage := q.stage }
        | none => x)
      let w := es.foldl (fun (a : Proj) q => if q.margin < a.margin then q else a) e
      if w.margin < (p.guardTicks : Int) then
        (u.setCalm c.id 0).controllerAct c p r now ({ s with freeCount := s.freeCount + 1 }.projectAll c p r s.freeCount now) w
      else if (e :: es).all (fun q => decide (2 * (p.guardTicks : Int) ≤ q.margin)) then
        if r.calm + 1 = 4 then (u.relax c.id p.basePrio).setCalm c.id 0 else u.setCalm c.id (r.calm + 1)
      else u.setCalm c.id 0)

/-- The controller's first action raises by one the priority of every unfinished batch up to the one in need, where its
stage is shared (R115, R116). -/
def controllerPriority : Prop := ∀ (s : State) (c : Ctx) (r : StepRun) (p : Plan) (now : Nat) (ps : List Proj) (w : Proj), s.stepOf c.id = some (c, r) → w.stage ≠ 6 → w.low = true →
  ((r.batches[w.batch]?).map BatchRun.prio).getD 0 < p.prioMax → ∃ (x : Ctx) (q : StepRun),
  (s.controllerAct c p r now ps w).stepOf c.id = some (x, q)
    ∧ x.counts = { c.counts with priority := c.counts.priority + 1 }
    ∧ q.batches = (r.batches.zipIdx).map (fun e =>
        if e.2 ≤ w.batch ∧ e.1.done = false ∧ e.1.prio < p.prioMax then
          { e.1 with prio := e.1.prio + 1, actions := e.1.actions ||| 1 }
        else e.1)

/-! ### Weight streams (chapter 04) -/

abbrev Pre.streamArm (s : State) (d : Desc) (x : Stream) : Prop :=
  let step := ((s.ctx? (s.descCtx d)).bind Ctx.lastStep).map (fun n => n.toNat % 65536)
  let e := armOf d d.ticket x.nextSerial (!bitOf (d.p 55 1) 1 || step == some (d.p 56 2))
  accepts s d (streamArmSpec d) = true ∧ s.stream? (s.descCtx d) (d.f 69 64) = some x
    ∧ (x.queue.filter (fun y : ArmEntry => !y.flushed)).length < 16 ∧ e.ok x.spec = true
    ∧ (match e.signal with
        | some (h, c) => s.ownsCtr h c (s.descCtx d) = true
        | none => True)
/-- STREAM_ARM queues its entry behind the others of its stream; its gate is open unless it waits for a step not yet begun
(R160, R161, R163). -/
def streamArm : Prop := ∀ s d x, Pre.streamArm s d x →
  let step := ((s.ctx? (s.descCtx d)).bind Ctx.lastStep).map (fun n => n.toNat % 65536)
  let e := armOf d d.ticket x.nextSerial (!bitOf (d.p 55 1) 1 || step == some (d.p 56 2))
  exec (.streamArm d) s
    = .next (s.setStream (s.descCtx d) { x with queue := x.queue ++ [e], nextSerial := x.nextSerial + 1 })

abbrev Pre.streamFlush (s : State) (d : Desc) (x : Stream) : Prop :=
  accepts s d streamFlushSpec = true ∧ s.stream? (s.descCtx d) (d.f 69 64) = some x
/-- STREAM_FLUSH ends every queued entry with ABORTED, empties the slots not yet delivered, and answers how many entries
(R160, R167). -/
def streamFlush : Prop := ∀ s d x, Pre.streamFlush s d x →
  let live := x.queue.filter (fun e : ArmEntry => !e.flushed)
  let u := s.setStream (s.descCtx d) { x with queue := x.queue.filterMap ArmEntry.flush, slots := x.slots.map StreamSlot.flush }
  endsOk (.streamFlush d) s (live.foldl (fun (s : State) (e : ArmEntry) => s.complete e.ticket { status := 0x25 }) u) d
    (BitVec.ofNat 64 live.length)

abbrev Pre.streamFetchStart (s : State) (ctx stream : Nat) (x : Stream) (e : ArmEntry) (i : Nat) (h : Handle) (off : Nat) : Prop :=
  s.stalled = false ∧ s.stream? ctx stream = some x ∧ x.nextFetch = some e
    ∧ x.slots.findIdx? (fun y : StreamSlot => y.state == SlotState.empty) = some i
    ∧ s.layerSource ctx x e = some (.ok (h, off)) ∧ s.permuting h.key = false
/-- STREAM_FETCH_START: an EMPTY slot takes the next layer, FETCHING it, and its source has one more reader (R162, R165). -/
def streamFetchStart : Prop := ∀ s ctx stream x e i h off, Pre.streamFetchStart s ctx stream x e i h off →
  ∃ y : StreamSlot, exec (.streamFetchStart ctx stream) s = .next ((s.setStream ctx
      ((x.onEntry e.serial (fun e => { e with fetched := e.fetched + 1 })).onSlot i (fun _ => y))).setHandle
        { h with readers := h.readers + 1 })
    ∧ y.state = .fetching ∧ y.entry = e.serial ∧ y.layer = e.fetched ∧ y.source = some h.key ∧ y.offset = off
    ∧ y.data = s.objectRange h off e.length ∧ y.releaseMark = e.releaseMark + e.fetched * e.releaseStride

abbrev Pre.streamFetchDone (s : State) (ctx stream slot : Nat) (x : Stream) (y : StreamSlot) (k : HKey) (e : ArmEntry) : Prop :=
  s.stalled = false ∧ s.stream? ctx stream = some x ∧ x.slots[slot]? = some y ∧ y.state = .fetching
    ∧ y.source = some k ∧ y.flushed = false ∧ x.entry? y.entry = some e
/-- STREAM_FETCH_DONE: the slot is READY, and DELIVERING at once where DEST is 0; a failed fetch empties it and ends the
layer (R166, Table 4-8). -/
def streamFetchDone : Prop := ∀ s ctx stream slot x y k e result, Pre.streamFetchDone s ctx stream slot x y k e →
  let u := s.dropReader k
  let z := x.onSlot slot (fun y => { y with state := .ready })
  exec (.streamFetchDone ctx stream slot result) s = .next (
    if result = .ok then u.setStream ctx (if e.dest = 0 then z.begin slot y else z)
    else (u.setStream ctx (x.onSlot slot (fun _ => StreamSlot.none))).layerEnded ctx stream y.entry y.layer
      (HopEnd.code result) false)

abbrev Pre.streamDeliver (s : State) (ctx stream : Nat) (x : Stream) (c : Ctx) (e : ArmEntry) (n i : Nat) (y : StreamSlot) : Prop :=
  s.stalled = false ∧ s.stream? ctx stream = some x ∧ s.ctx? ctx = some c ∧ x.nextDelivery = some (e, n)
    ∧ x.slots.findIdx? (fun y : StreamSlot => y.entry == e.serial && y.layer == n && y.state == SlotState.ready) = some i
    ∧ x.slots[i]? = some y ∧ e.gateOpen = true ∧ e.deliverMark + n * e.markStride ≤ c.mark.toNat
/-- STREAM_DELIVER writes the layer to its destination and its slot is DELIVERING, once the four conditions of R163 hold. -/
def streamDeliver : Prop := ∀ s ctx stream x c e n i y, Pre.streamDeliver s ctx stream x c e n i y →
  let dest := ((e.dest : Int) + ((n % e.destSlots : Nat) : Int) * e.destStride).toNat
  exec (.streamDeliver ctx stream) s = .next ((s.setStream ctx (x.begin i y)).deliverBytes e.glint y.press y.format y.size
    y.offset e.length dest (tabPaste ([] : Tab Byte) y.offset e.length y.data) (y.poison.map (fun b => b + y.offset / 4096)))

abbrev Pre.streamDeliveryDone (s : State) (ctx stream slot : Nat) (x : Stream) (y : StreamSlot) (e : ArmEntry) : Prop :=
  s.stalled = false ∧ s.stream? ctx stream = some x ∧ x.slots[slot]? = some y ∧ y.state = .delivering
    ∧ x.entry? y.entry = some e ∧ e.dest = 0
/-- STREAM_DELIVERY_DONE: the slot is HELD, and the layer ends, POISONED where a block of it is (R163, R166). -/
def streamDeliveryDone : Prop := ∀ s ctx stream slot x y e result, Pre.streamDeliveryDone s ctx stream slot x y e →
  let st : BitVec 8 := if result ≠ .ok then HopEnd.code result else if y.poison.isEmpty then 0 else 0x20
  exec (.streamDeliveryDone ctx stream slot result) s = .next ((s.setStream ctx
    (x.onSlot slot (fun y => { y with state := .held }))).layerEnded ctx stream y.entry y.layer st (result == .ok))

abbrev Pre.slotRelease (s : State) (ctx stream slot : Nat) (x : Stream) (c : Ctx) (y : StreamSlot) : Prop :=
  s.stream? ctx stream = some x ∧ s.ctx? ctx = some c ∧ x.slots[slot]? = some y ∧ y.state = .held
    ∧ x.entry? y.entry = none ∧ y.releaseMark ≤ c.mark.toNat
    ∧ (s.eng.runs.any (fun r : Run => r.ctx == ctx
        && r.inputs.any (fun i : RunInput => i.mode == 4 && i.handle == y.source && y.source.isSome))) = false
/-- SLOT_RELEASE empties a HELD slot whose layer has ended, whose release mark is reached and that no run reads (R164). -/
def slotRelease : Prop := ∀ s ctx stream slot x c y, Pre.slotRelease s ctx stream slot x c y →
  exec (.slotRelease ctx stream slot) s = .next (s.setStream ctx (x.onSlot slot (fun _ => StreamSlot.none)))

/-! ### Units of the tiers (chapter 04) -/

abbrev Pre.unitReduced (s : State) (u : TierUnit) : Prop := s.unitState u = .inService
/-- UNIT_REDUCED: IN_SERVICE becomes REDUCED (R148). -/
def unitReduced : Prop := ∀ s u, Pre.unitReduced s u → exec (.unitReduced u) s = .next (s.setUnit u .reduced)

/-- A unit takes a state, and the change is recorded (R148, Table 19-2). -/
def setUnit : Prop := ∀ (s : State) (k : Stack) (st : UnitState), s.setUnit (.umbra k) st
    = ({ s with units := { s.units with stack := Vector.set s.units.stack k.val st } }).event (TierUnit.umbra k).hub
        (evU 0x0031 1 9 k.val (st.code + (s.units.stack[k]).code * 8))

abbrev Pre.unitFreeze (s : State) (u : TierUnit) : Prop := (s.unitState u).takes = true
/-- UNIT_FREEZE: the unit is FROZEN, or EMPTIED where it holds no home; the fault is recorded with a CPER record, fills and
migrations into it end with TIER_READ_ONLY, peers are told of a stack that holds their frames, and a tier left short is
reported (R73, R74, R144, R148, R402, R545). -/
def unitFreeze : Prop := ∀ s u, Pre.unitFreeze s u →
  let t := (s.setUnit u (if s.holdsHome u then .frozen else .emptied)).cper 3 10 u.name 0x0031 0 3 0 0 0 0
  let t := (t.failFillsIn u 0x23).stopMigsInto u 0x23
  let t := match u with
    | .umbra k => (t.lnk.peers.filter (fun p : Peer => p.frameStacks.any (fun f => f.2 == k.val))).foldl
        (fun (s : State) (p : Peer) => s.sendGrant p.pkg true) t
    | _ => t
  exec (.unitFreeze u) s = .next ((t.checkShrunk u.tier (s.capacity u.tier) u.hub).pumpMigs)

abbrev Pre.drainStart (s : State) (u : TierUnit) : Prop := s.unitState u = .frozen
/-- DRAIN_START: each RESIDENT handle with a home in the FROZEN unit begins to leave it, in the order of R152, uncharged and
at priority 7 (R67, R147, R151 to R154). -/
def drainStart : Prop := ∀ s u, Pre.drainStart s u →
  exec (.drainStart u) s
    = .next (((s.drainOrder u).foldl (fun (s : State) (k : HKey) => s.beginDrain u k) s).pumpMigs)

abbrev Pre.unitEmptied (s : State) (u : TierUnit) : Prop := s.unitState u = .frozen ∧ s.holdsHome u = false
/-- UNIT_EMPTIED: a FROZEN unit that holds no home is EMPTIED (R148). -/
def unitEmptied : Prop := ∀ s u, Pre.unitEmptied s u → exec (.unitEmptied u) s = .next (s.setUnit u .emptied)

abbrev Pre.unitReturn (s : State) (u : TierUnit) : Prop := s.unitState u = .emptied ∨ s.unitState u = .out
/-- UNIT_RETURN: with its epoch matching, and a passing test where it is EMPTIED, the unit is IN_SERVICE with its contents;
otherwise its epoch rises, its contents are lost, and a passing test puts it in service (R148, R512). -/
def unitReturn : Prop := ∀ s u epochMatches testPassed, Pre.unitReturn s u →
  let lost := match u with
    | .penumbra _ => s
    | .umbra k => (s.bumpEpoch u.name).loseGuests k
    | .shade _ _ => s.bumpEpoch u.name
  exec (.unitReturn u epochMatches testPassed) s = .next (
    if epochMatches then
      if s.unitState u = .emptied ∧ testPassed = false then s else (s.setUnit u .inService).reviveHandles
    else if testPassed then lost.setUnit u .inService else lost)

abbrev Pre.penumbraResend (s : State) (link : LinkNo) (tag : BitVec 16) (q : PnReq) (p : PeerHello) (l : LinkNo) : Prop :=
  s.lnk.reqs.find? (fun q : PnReq => q.tag == tag && q.link == link.val) = some q
    ∧ s.lnk.links[link].peer = some p ∧ nextLink (s.bundle p.pkg) link.val = some l ∧ q.since + msTicks ≤ s.tick
/-- PENUMBRA_RESEND: a request unanswered for 1 ms is sent again over the bundle's next link (R155, R395). -/
def penumbraResend : Prop := ∀ s link tag q p l, Pre.penumbraResend s link tag q p l →
  let x : PnReq := { q with link := l.val, since := s.tick }
  exec (.penumbraResend link tag) s = .next (({ s with lnk := { s.lnk with
    reqs := s.lnk.reqs.map (fun y : PnReq => if y.tag = tag ∧ y.link = link.val then x else y) } }).sendMsg l x.msg)


/-! ### Codec lanes and glints (chapter 05) -/

abbrev Pre.laneJob (s : State) (hub : Hub) (lane : Fin 18) (j : LaneJob) : Prop :=
  s.stalled = false ∧ s.start.level = .ring ∧ s.laneServes hub lane = true ∧ s.codec.lanes[hub][lane].job = none
    ∧ s.nextJob hub = some j
/-- LANE_JOB: a free lane takes the next waiting job of its hub (R201). -/
def laneJob : Prop := ∀ s hub lane j, Pre.laneJob s hub lane j →
  exec (.laneJob hub lane) s = .next (({ s with codec := { s.codec with
    jobs := s.codec.jobs.erase j, turn := Vector.set s.codec.turn hub.val j.request } }).setLane hub lane (some j))

abbrev Pre.courseCompress (s : State) (hub : Hub) (lane : Fin 18) (j : LaneJob) (x : Handle) : Prop :=
  s.stalled = false ∧ s.codec.lanes[hub][lane].job = some j ∧ j.compress = true ∧ s.stripeStaged j.key j.stripe = true
    ∧ s.handle? j.key = some x ∧ x.mig = none
/-- COURSE_COMPRESS frees the lane; a stripe whose verifier failed twice leaves the request as it is, is stored FULL where it
was to be narrowed, and sends the lane to a targeted test (R195, R196, R202, R227). -/
def courseCompress : Prop := ∀ s hub lane n j x, Pre.courseCompress s hub lane j x →
  let u := s.setLane hub lane none
  let narrow := x.fate == Fate.narrow
  let v := if narrow then { u with codec := { u.codec with unverified := u.codec.unverified ++ [(j.key, j.stripe)] } } else u
  exec (.courseCompress hub lane n) s = .next (if n < 2 then u else
    (v.event hub (evU 0x004A 2 3 lane.val narrow.toNat)).sendTest { hub := hub.val, kind := 3, index := lane.val, sub := 0 } 3)

abbrev Pre.blockExpand (s : State) (hub : Hub) (lane : Fin 18) (j : LaneJob) (q : LaneRequest) : Prop :=
  s.stalled = false ∧ s.codec.lanes[hub][lane].job = some j ∧ j.compress = false ∧ j.restoring = true
    ∧ s.codec.requests = [q] ∧ q.id = j.request
    ∧ ((s.setLane hub lane none).laneJobs.any (fun x => x.restoring && x.request == q.id)) = false
/-- BLOCK_EXPAND of a restore's last job: blocks that failed once are counted as retried and the bytes are delivered; a second
failure ends the restore with CHECK_FAILED (R197). -/
def blockExpand : Prop := ∀ s hub lane ok1 ok2 j q, Pre.blockExpand s hub lane j q →
  let x : LaneRequest := if ok1 then q else { q with retries := q.retries + 1 }
  let u := s.setLane hub lane none
  let u := { u with codec := { u.codec with requests := [x] } }
  exec (.blockExpand hub lane ok1 ok2) s
    = .next (if ok1 = false ∧ ok2 = false then u.endLaneRequest { x with retries := x.retries - 1 } true
        else u.endLaneRequest x false)

abbrev Pre.endLaneRequest (s : State) (q : LaneRequest) (h : Handle) : Prop := s.handle? q.key = some h
/-- A restore's lane work ends: its other jobs are gone, the handle has one reader fewer, and the restore is delivered or ends
with CHECK_FAILED (R57, R197). -/
def endLaneRequest : Prop := ∀ s q h failed, Pre.endLaneRequest s q h →
  let u := s.dropJobs (fun j => j.restoring && j.request == q.id)
  let u := { u with codec := { u.codec with requests := u.codec.requests.filter (fun x => x.id ≠ q.id) } }
  let x : Handle := { h with readers := h.readers - 1 }
  s.endLaneRequest q failed = if failed then
      (u.setHandle x).restoreEnded q.key q.restore [] { status := 0x21, flags := h.marks.bits
                                                        xbytes := restoreBytes none 0 0 0 0 (q.retries + 1) }
    else (u.setHandle x).deliverRestore x q.restore q.retries

abbrev Pre.laneRetired (s : State) (hub : Hub) (lane : Fin 18) : Prop := s.codec.lanes[hub][lane].retired = false
/-- LANE_RETIRED: the lane is retired, its job waits again before the others, and the retirement and the spare left are
recorded (R203, R534, R545). -/
def laneRetired : Prop := ∀ s hub lane, Pre.laneRetired s hub lane →
  let u : UnitName := { hub := hub.val, kind := 3, index := lane.val, sub := 0 }
  let t := { s with codec := { s.codec with
    lanes := Vector.set s.codec.lanes hub.val (Vector.set s.codec.lanes[hub] lane.val { retired := true, job := none })
    jobs := match s.codec.lanes[hub][lane].job with
      | some j => j :: s.codec.jobs
      | none => s.codec.jobs } }
  exec (.laneRetired hub lane) s = .next ((t.recordRetired u).substituted u (decide (0 < s.sparesLeft u)))

abbrev Pre.glintRequest (s : State) (g : Fin 256) : Prop := (s.glint g).queue.length < 8
/-- GLINT_REQUEST: the request waits behind those queued (R205). -/
def glintRequest : Prop := ∀ s g r, Pre.glintRequest s g →
  exec (.glintRequest g r) s = .next (s.setGlint g { s.glint g with
    queue := (s.glint g).queue ++ [{ base := r.base, offset := r.offset, len := r.len, tag := r.tag }] })

abbrev Pre.glintMemData (s : State) (g : Fin 256) (q : GlintReq) (rest : List GlintReq) : Prop := (s.glint g).queue = q :: rest
/-- GLINT_MEM_DATA answers the oldest request, leaves the rest in order, and pulses GLINT_ERR for statuses 2, 3 and 5
(R205 to R209). -/
def glintMemData : Prop := ∀ s g memErr q rest, Pre.glintMemData s g q rest → ∃ (t : State) (a : GlintReply),
  exec (.glintMemData g memErr) s = .next t ∧ (t.glint g).queue = rest
    ∧ (t.glint g).replies = (s.glint g).replies ++ [a] ∧ a.tag = q.tag
    ∧ (t.glint g).err = (if a.status = 2 ∨ a.status = 3 ∨ a.status = 5 then some a.status else none)
    ∧ (memErr = true → a.status = 5 ∧ a.poison = List.replicate q.len.toNat true)
    ∧ t = { s with codec := { s.codec with glints := t.codec.glints }, freeCount := t.freeCount }

/-- GLINT_RESET cancels every request and empties the cache (Table 5-13). -/
def glintReset : Prop := ∀ s g, exec (.glintReset g) s = .next (s.setGlint g { queue := [], cache := none, replies := [], err := none })

/-! ### Waves, tiles and engines (chapter 07) -/

abbrev Pre.waveStart (s : State) (hub : Hub) (r : Run) (w : TileWait) (p e : Nat) : Prop :=
  s.stalled = false ∧ s.rel.hubs[hub].lost = false ∧ s.waveOrder hub = [(r, w)] ∧ s.run? r.id = some r
    ∧ s.pickEngine hub ((s.chainPlaces hub).filter (fun x => (s.engine hub x.2).tile.isNone)) s.eng.lastFirst[hub] w = some (p, e)
/-- WAVE_START with one tile waiting gives it to the next engine in turn: the engine starts it with everything cleared but
its counters, the tile waits no more, and the next wave goes on from there (R233, R237, R238). -/
def waveStart : Prop := ∀ s hub r w p e, Pre.waveStart s hub r w p e →
  let u := (s.startTile hub e r w).setRun { r with todo := r.todo.filter (fun y => y ≠ w) }
  exec (.waveStart hub) s = .next { u with eng := { u.eng with
    lastFirst := Vector.set u.eng.lastFirst hub.val p, waves := Vector.set u.eng.waves hub.val (u.eng.waves[hub] + 1) } }

abbrev Pre.tileEnd (s : State) (hub : Hub) (e : EngNo) (t : TileRun) (r : Run) : Prop :=
  (s.engine hub e.val).tile = some t ∧ s.run? t.run = some r ∧ r.ops.length ≤ t.pc ∧ s.start.quench.state ≠ 2
/-- TILE_END: the engine is free and its counters are as they were at the tile's start (R267); a first run stands or is
checked, a rerun decides, a duplicate waits for its comparison; a run with nothing left ends (R80, R235, R262, R264). -/
def tileEnd : Prop := ∀ s hub e t r, Pre.tileEnd s hub e t r →
  let u := (s.setEngine hub e.val { s.engine hub e.val with tile := none }).syncLeft hub e.val r.number t.startCtrs
  let d : TileDigests := { engine := hub.val * 13 + e.val, check := t.check, data := t.outs, flags := t.outFlags
                           outs := (r.outputs.zip t.outs).map (fun x => if x.1.key.obj = 0 then 0 else r.tileDigest t.tile x.1 x.2) }
  let bad := t.poisoned || r.inputs.any (fun i : RunInput => 2 ≤ i.mode && i.mode ≤ 4 && !i.poison.isEmpty)
  exec (.tileEnd hub e) s = .next ((match t.role with
    | .first => u.firstRun hub r t d bad
    | .rerun => u.rerun hub r t d bad
    | .second | .third => u.setRun (r.addDup t.tile d bad)).endRun r.id)

abbrev Pre.duplicateCompare (s : State) (run tile : Nat) (r : Run) (x : Dup) (a b : TileDigests) : Prop :=
  s.run? run = some r ∧ r.dups.find? (fun x : Dup => x.tile == tile) = some x
    ∧ (r.todo.any (fun w : TileWait => w.tile == tile)) = false
    ∧ (s.eng.engines.any (fun e => match e.2.tile with
        | some t => t.run == run && t.tile == tile
        | none => false)) = false
    ∧ x.runs = [a, b]
/-- DUPLICATE_COMPARE of two runs: where every digest agrees the tile stands; where one differs that is counted and recorded,
and a third run decides (R264). -/
def duplicateCompare : Prop := ∀ s run tile r x a b, Pre.duplicateCompare s run tile r x a b →
  exec (.duplicateCompare run tile) s = .next (
    if a.outs = b.outs ∧ a.check = b.check then
      ((s.setRun (r.dropDup tile)).stand r.id tile a x.poisoned).endRun run
    else (s.setRun ({ r with disagreed := r.disagreed + (if r.repeats then 0 else 1) }.again tile (hubOf (a.engine / 13)) .third)).event
      (hubOf (a.engine / 13)) (evU 0x0049 2 2 (a.engine % 13) r.word0))

abbrev Pre.duplicateThird (s : State) (run tile : Nat) (r : Run) (x : Dup) (a b c : TileDigests) : Prop :=
  s.run? run = some r ∧ r.dups.find? (fun x : Dup => x.tile == tile) = some x
    ∧ (r.todo.any (fun w : TileWait => w.tile == tile)) = false
    ∧ (s.eng.engines.any (fun e => match e.2.tile with
        | some t => t.run == run && t.tile == tile
        | none => false)) = false
    ∧ x.runs = [a, b, c] ∧ a.agrees b = false
/-- Of three runs, the two that agree decide and the odd engine goes to a targeted test; three that differ leave the tile
poisoned (R264). -/
def duplicateThird : Prop := ∀ s run tile r x a b c, Pre.duplicateThird s run tile r x a b c →
  exec (.duplicateCompare run tile) s = .next ((
    if c.agrees a then ((s.setRun (r.dropDup tile)).stand r.id tile a x.poisoned).sendTest (engineUnit b.engine) 4
    else if c.agrees b then ((s.setRun (r.dropDup tile)).stand r.id tile b x.poisoned).sendTest (engineUnit a.engine) 4
    else (s.setRun (r.dropDup tile)).standPoisoned run tile a (hubOf (a.engine / 13))).endRun run)

abbrev Pre.engineRetired (s : State) (hub : Hub) (e : EngNo) : Prop := e.val ∉ s.rel.hubs[hub].enginesRetired
/-- ENGINE_RETIRED: the spare takes the engine's place and counters, its tile starts again elsewhere, no in-field test of it
is due any more, and the retirement is recorded (R21, R268, R270, R461). -/
def engineRetired : Prop := ∀ s hub e, Pre.engineRetired s hub e →
  let u : UnitName := { hub := hub.val, kind := 2, index := e.val, sub := 0 }
  let t := (s.engineSpareIn hub e.val).engineTake hub e.val
  let x := t.rel.hubs[hub]
  exec (.engineRetired hub e) s = .next (((t.setHealth hub { x with
      enginesRetired := x.enginesRetired ++ [e.val]
      due := x.due.filter (fun d => !(d.unit.kind == 2 && d.unit.index == e.val)) }).recordRetired u).substituted u
    (s.rel.hubs[hub].enginesRetired.isEmpty && decide (e.val ≠ 12)))

abbrev Pre.chainSplice (s : State) (hub : Hub) (e : EngNo) : Prop := s.rel.hubs[hub].splice = some e.val
/-- CHAIN_SPLICE: the chain no longer waits for the change (R171, R270). -/
def chainSplice : Prop := ∀ s hub e, Pre.chainSplice s hub e →
  exec (.chainSplice hub e) s = .next (s.setHealth hub { s.rel.hubs[hub] with splice := none })

abbrev Pre.recipeStall (s : State) (hub : Hub) (e : EngNo) (t : TileRun) (since : Nat) (r : Run) : Prop :=
  (s.engine hub e.val).tile = some t ∧ t.waiting = some since ∧ s.run? t.run = some r ∧ since + 100 * msTicks ≤ s.tick
/-- RECIPE_STALL: after 100 ms of a WAIT unmet the tile is given up, the counters are restored, and the request ends with
RECIPE_STALLED (R266, R267). -/
def recipeStall : Prop := ∀ s hub e t since r, Pre.recipeStall s hub e t since r →
  exec (.recipeStall hub e) s = .next (State.failRun 6 ((s.setEngine hub e.val { s.engine hub e.val with tile := none }).syncLeft
    hub e.val r.number t.startCtrs) r 0x27)

abbrev Pre.waitReevaluate (s : State) (hub : Hub) (e : EngNo) (t : TileRun) (r : Run) (w : BitVec 256) (since : Nat) : Prop :=
  (s.engine hub e.val).tile = some t ∧ s.run? t.run = some r ∧ r.ops[t.pc]? = some w ∧ t.waiting = some since
    ∧ s.waitMet hub e.val { tile := t, run := r, op := opFields w } = true
/-- WAIT_REEVALUATE: a stalled WAIT that is met lets its tile go on (R471). -/
def waitReevaluate : Prop := ∀ s hub e t r w since, Pre.waitReevaluate s hub e t r w since →
  exec (.waitReevaluate hub e) s = .next (s.setEngine hub e.val { s.engine hub e.val with tile := some t.advance })

/-! ### Recipe ops (Table 7-7) -/

/-- The engine's tile has come to this op record, of this code, and no quench lasts. -/
abbrev Pre.op (s : State) (hub : Hub) (e : EngNo) (w : BitVec 256) (code : Nat) (g : Engine) (c : OpCtx) : Prop :=
  s.opAt hub e w code = some (g, c)

/-- An op changes its engine as `f` says, and the tile goes on to the next op; everything else stays. -/
def opRuns (mk : Hub → EngNo → BitVec 256 → Instr) (code : Nat) (f : OpCtx → Engine → Engine) : Prop :=
  ∀ s hub e w g c, Pre.op s hub e w code g c →
    exec (mk hub e w) s = .next (s.setEngine hub e.val { f c g with tile := some c.tile.advance })

/-- The same for an op that also changes what its tile holds. -/
def opRunsTile (mk : Hub → EngNo → BitVec 256 → Instr) (code : Nat) (f : OpCtx → Engine → Engine × TileRun) : Prop :=
  ∀ s hub e w g c, Pre.op s hub e w code g c →
    exec (mk hub e w) s = .next (s.setEngine hub e.val { (f c g).1 with tile := some (f c g).2.advance })

/-- VD takes n results, element j made from element j of each source; the flags of the sources and of the results join
those of VD (R241, R245, R246). -/
def elems (srcs : Nat) (f : OpCtx → Nat → Nat → Nat → Nat → Rounded) (c : OpCtx) (g : Engine) : Engine :=
  let o := c.op
  let eb := elemBits o.fmt
  let a := readVec g o.va o.span eb (opN o)
  let b := readVec g o.vb o.span eb (opN o)
  let d := readVec g o.vc o.span eb (opN o)
  let rs := (a.zipIdx).map (fun p => f c p.2 p.1 (if 2 ≤ srcs then b.getD p.2 0 else 0) (if 3 ≤ srcs then d.getD p.2 0 else 0))
  writeVec g o.vd o.span eb (rs.map (fun r => r.bits)) (vecFlags g o.va o.span
    ||| (if 2 ≤ srcs then vecFlags g o.vb o.span else 0#3) ||| (if 3 ≤ srcs then vecFlags g o.vc o.span else 0#3) ||| flagsOf rs)

/-- A value of the op's format. -/
def val (c : OpCtx) (w : Nat) : Val := decodeFloat (fmtOf c.op.fmt) w
/-- IMM0 as an FP32 number. -/
def imm (c : OpCtx) : Val := decodeFloat fmtFP32 c.op.imm0
/-- A result rounded once to the op's format, by the draw of its element where ROUND is 1 (R245, R246). -/
def rnd (c : OpCtx) (j : Nat) (v : Val) : Rounded := roundVal (fmtOf c.op.fmt) v (opDraw c.draws c.op j)
/-- The canonical NaN. -/
def nanOf (c : OpCtx) : Rounded := roundVal (fmtOf c.op.fmt) .nan none
/-- A source passed unchanged. -/
def same (c : OpCtx) (w : Nat) : Rounded := Machine.keep (fmtOf c.op.fmt) w (val c w)

/-- CONFIG changes nothing of the engine. -/
def opConfig : Prop := opRuns .opConfig 0x01 (fun _ g => g)
/-- LOOP opens a loop over the next IMM1 ops, IMM0 times, the tile's rows for 0. -/
def opLoop : Prop := ∀ s hub e w g c, Pre.op s hub e w 0x02 g c →
  exec (.opLoop hub e w) s = .next (s.setEngine hub e.val { g with tile := some { c.tile with
    pc := c.tile.pc + 1
    loops := { start := c.tile.pc + 1, len := c.op.imm1, count := if c.op.imm0 = 0 then c.rows else c.op.imm0, counter := 0 }
      :: c.tile.loops } })
/-- WAIT passes where it is met, and otherwise notes since when it stalls (R265). -/
def opWait : Prop := ∀ s hub e w g c, Pre.op s hub e w 0x03 g c → c.tile.waiting = none →
  exec (.opWait hub e w) s = .next (s.setEngine hub e.val { g with
    tile := some (if s.waitMet hub e.val c then c.tile.advance else { c.tile with waiting := some s.tick }) })
/-- A WAIT already stalled and still unmet changes nothing. -/
def opWaitStill : Prop := ∀ s hub e w g c n, Pre.op s hub e w 0x03 g c → c.tile.waiting = some n →
  s.waitMet hub e.val c = false → exec (.opWait hub e w) s = .next s
/-- SIGNAL adds IMM1 to a counter: of class 0 of its own engine, of class 1 of an engine of its hub, of class 2 or 3 a
host-visible one. Those of class 0 happen in every run; of the others a restarted tile leaves out those it has passed and
a duplicate all, a run that makes tensors again leaves out the host-visible ones, and one whose context does not own the
counter is discarded and recorded (R260, R265, R269, R462, R463, R468). -/
def opSignal : Prop := ∀ s hub e w g c, Pre.op s hub e w 0x04 g c →
  let cls := c.op.mode % 4
  let n := BitVec.ofNat 32 c.op.imm1
  let t := if cls = 0 then c.tile else { c.tile with signals := c.tile.signals + 1 }
  let u := s.setEngine hub e.val { g with tile := some t.advance }
  exec (.opSignal hub e w) s = .next (
    if cls = 0 then u.raiseEngine hub e.val (c.op.imm0 % 32) n
    else if c.tile.signals < c.tile.skipSignals ∨ c.tile.role.duplicate = true then u
    else if cls = 1 then u.raiseEngine hub (u.engineOf hub (bitsOf c.op.imm0 8 5)) (c.op.imm0 % 32) n
    else if c.run.repeats = true then u
    else if u.ownsCtr hub (c.op.imm0 % 256) c.run.ctx then u.raiseHost hub (c.op.imm0 % 256) n
    else u.foreignCtr hub (c.op.imm0 % 256) c.run.ctx)

/-- LOAD of a ROW input: VD takes elements of the current row, or of row IMM1, from column IMM0, and no flag but NF. -/
def opLoad : Prop := ∀ s hub e w g c, Pre.op s hub e w 0x08 g c → inMode c.run.ops c.op.port ≠ 2 →
  let x := c.input c.op.port
  let m := movedCount c.op.fmt (opN c.op) (x.rowLen - c.op.imm0)
  let p := x.piece (if bitOf c.op.mode 0 then c.op.imm1 else c.g) c.op.imm0 m
  let k := max (c.op.span + 1) ((m * elemBits c.op.fmt + 8 * p.side.length + 8191) / 8192)
  exec (.opLoad hub e w) s = .next (s.setEngine hub e.val { g with
    regs := writeRegs g.regs c.op.vd (p.packed c.op.fmt) k
    regFlags := writeFlags g.regFlags c.op.vd (nfBits p.nonFinite) k
    tile := some { c.tile with poisoned := c.tile.poisoned || p.poisoned }.advance })
/-- LOAD of a WHOLE input: VD takes its elements from IMM0 on as one flat vector, which poisons no tile by itself. -/
def opLoadWhole : Prop := ∀ s hub e w g c, Pre.op s hub e w 0x08 g c → inMode c.run.ops c.op.port = 2 →
  let x := c.input c.op.port
  let m := movedCount c.op.fmt (opN c.op) (x.rows * x.rowLen - c.op.imm0)
  let p := x.flat c.op.imm0 m
  let k := max (c.op.span + 1) ((m * elemBits c.op.fmt + 8 * p.side.length + 8191) / 8192)
  exec (.opLoad hub e w) s = .next (s.setEngine hub e.val { g with
    regs := writeRegs g.regs c.op.vd (p.packed c.op.fmt) k
    regFlags := writeFlags g.regFlags c.op.vd (nfBits p.nonFinite) k, tile := some c.tile.advance })
/-- STORE writes VA into the current row of an output the run makes, columns from IMM0, with its side data in a block
format; it changes no register, and writes nothing for an output the run does not make (R82, R243, R260). -/
def opStore : Prop := opRunsTile .opStore 0x09 (fun c g => match c.output c.op.port with
  | some (i, o) =>
    let eb := elemBits c.op.fmt
    let m := movedCount c.op.fmt (opN c.op) (o.rowLen - c.op.imm0)
    let side := sideBytes c.op.fmt * ((m + 31) / 32)
    let b := spanBits g c.op.va (max (c.op.span + 1) ((m * eb + 8 * side + 8191) / 8192) - 1)
    (g, c.writeRow c.tile i o c.row c.op.imm0 ((List.range m).map (elemAt b eb))
      ((List.range side).map (fun j => bitsOf b (m * eb + 8 * j + 7) (m * eb + 8 * j)))
      (flagsOfBits (vecFlags g c.op.va c.op.span)))
  | none => (g, c.tile))
/-- LDLS: VD takes the working area's bytes from IMM0 on, with the area's flags. -/
def opLdls : Prop := opRuns .opLdls 0x0A (fun c g => { g with
  regs := writeRegs g.regs c.op.vd (workBits g c.op.imm0 (1024 * (c.op.span + 1))) (c.op.span + 1)
  regFlags := writeFlags g.regFlags c.op.vd g.workFlags (c.op.span + 1) })
/-- STLS: the working area takes VA's bytes from IMM0 on; VA's flags join the area's. -/
def opStls : Prop := opRuns .opStls 0x0B (fun c g => { g with
  work := tabPaste g.work c.op.imm0 (1024 * (c.op.span + 1)) (natTab (1024 * (c.op.span + 1)) (spanBits g c.op.va c.op.span))
  workFlags := g.workFlags ||| vecFlags g c.op.va c.op.span })
/-- LDROWS: elements of each tile row, from column IMM1, lie in the working area a pitch apart (R249). -/
def opLdrows : Prop := opRunsTile .opLdrows 0x0C (fun c g =>
  let k := bitsOf c.op.imm2 12 0
  let ps := (List.range c.rows).map (fun r => (c.input c.op.port).piece (c.first + r) c.op.imm1 k)
  ({ g with
      work := (ps.zipIdx).foldl (fun (w : Tab Byte) q => tabPaste w (c.op.imm0 + q.2 * rowPitch c.op.fmt k)
        ((rowBytes c.op.fmt k).getD 0) (natTab ((rowBytes c.op.fmt k).getD 0) (q.1.packed c.op.fmt))) g.work
      workFlags := g.workFlags ||| nfBits (ps.any Piece.nonFinite) },
   { c.tile with poisoned := c.tile.poisoned || ps.any Piece.poisoned }))
/-- STACC changes no register: it writes rounded accumulator entries into the output's rows. -/
def opStacc : Prop := ∀ s hub e w g c i o, Pre.op s hub e w 0x0D g c → c.output c.op.port = some (i, o) →
  exec (.opStacc hub e w) s = .next (s.setEngine hub e.val { g with
    tile := some ((List.range c.rows).foldl (fun (t : TileRun) r =>
      let d := { c.draws with globalRow := c.first + r }
      let rs := (List.range c.op.imm0).map (fun j => roundVal (fmtOf c.op.fmt)
        (accVal c.exact (tabGet accZero g.acc (accIdx c.op.acc (accAddr c.op r + j)))) (opDraw d c.op j))
      c.writeRow t i o r 0 (rs.map (fun x => x.bits)) [] (flagsOfBits (tabGet 0 g.accFlags c.op.acc ||| flagsOf rs)))
      c.tile).advance })
def opAdd : Prop := opRuns .opAdd 0x10 (elems 2 (fun c j a b _ => rnd c j (vAdd (val c a) (val c b))))
def opSub : Prop := opRuns .opSub 0x11 (elems 2 (fun c j a b _ => rnd c j (vAdd (val c a) (vNeg (val c b)))))
def opMul : Prop := opRuns .opMul 0x12 (elems 2 (fun c j a b _ => rnd c j (vMul (val c a) (val c b))))
def opFma : Prop := opRuns .opFma 0x13 (elems 3 (fun c j a b d => rnd c j
  (if vIsZero (vMul (val c a) (val c b)) && vIsZero (val c d) then vZero else vAdd (vMul (val c a) (val c b)) (val c d))))
def opMax : Prop := opRuns .opMax 0x14 (elems 2 (fun c _ a b _ =>
  if vIsNan (val c a) || vIsNan (val c b) then nanOf c else if vLt (val c a) (val c b) then same c b else same c a))
def opMin : Prop := opRuns .opMin 0x15 (elems 2 (fun c _ a b _ =>
  if vIsNan (val c a) || vIsNan (val c b) then nanOf c else if vLt (val c a) (val c b) then same c a else same c b))
def opAdds : Prop := opRuns .opAdds 0x16 (elems 1 (fun c j a _ _ => rnd c j (vAdd (val c a) (imm c))))
def opMuls : Prop := opRuns .opMuls 0x17 (elems 1 (fun c j a _ _ => rnd c j (vMul (val c a) (imm c))))
def opRelu : Prop := opRuns .opRelu 0x18 (elems 1 (fun c _ a _ _ =>
  if vIsNan (val c a) then nanOf c else if vPos (val c a) then same c a else ⟨0, false, false, false⟩))
def opLrelu : Prop := opRuns .opLrelu 0x19 (elems 1 (fun c j a _ _ =>
  if vIsNan (val c a) then nanOf c else if vPos (val c a) || vIsZero (val c a) then same c a
  else rnd c j (vMul (val c a) (imm c))))
def opGelu : Prop := opRuns .opGelu 0x1A
  (elems 1 (fun c j a _ _ => roundTrans .gelu (fmtOf c.op.fmt) a (val c a) (opDraw c.draws c.op j)))
def opSigmoid : Prop := opRuns .opSigmoid 0x1B
  (elems 1 (fun c j a _ _ => roundTrans .sigmoid (fmtOf c.op.fmt) a (val c a) (opDraw c.draws c.op j)))
def opTanh : Prop := opRuns .opTanh 0x1C
  (elems 1 (fun c j a _ _ => roundTrans .tanh (fmtOf c.op.fmt) a (val c a) (opDraw c.draws c.op j)))
def opSilu : Prop := opRuns .opSilu 0x1D
  (elems 1 (fun c j a _ _ => roundTrans .silu (fmtOf c.op.fmt) a (val c a) (opDraw c.draws c.op j)))
def opLnorm : Prop := opRuns .opLnorm 0x20 (fun c g => opNorm true c.row c.op c.draws g)
def opRmsnorm : Prop := opRuns .opRmsnorm 0x21 (fun c g => opNorm false c.row c.op c.draws g)
def opRsum : Prop := opRuns .opRsum 0x24 (fun c g => Machine.opRsum false c.exact c.row c.op g)
def opRsumsq : Prop := opRuns .opRsumsq 0x25 (fun c g => Machine.opRsum true c.exact c.row c.op g)
/-- ACCZERO clears IMM1 entries from the accumulator address, or the whole set (R287). -/
def opAcczero : Prop := opRuns .opAcczero 0x26 (fun c g =>
  let lo := accIdx c.op.acc (if c.op.imm1 = 0 then 0 else accAddr c.op c.row)
  { g with acc := g.acc.filter (fun p => p.1 < lo || decide (lo + (if c.op.imm1 = 0 then 65536 else c.op.imm1) ≤ p.1)) })
def opAccrd : Prop := opRuns .opAccrd 0x27 (fun c g => Machine.opAccrd c.exact c.row c.op c.draws g)
/-- POOL: each element of a bag is the sum, mean or largest over its rows, rounded once; an empty bag gives +0 (R250). -/
def opPool : Prop := opRunsTile .opPool 0x28 (fun c g =>
  let x := c.input c.op.port
  let offs := c.input (bitsOf c.op.imm1 3 0)
  let lo := offs.offsetAt c.g
  let hi := offs.offsetAt (c.g + 1)
  let rs := (List.range (opN c.op)).map (fun j => rnd c j (poolElem x c.op lo hi j))
  (writeVec g c.op.vd c.op.span (elemBits c.op.fmt) (rs.map (fun r => r.bits)) (flagsOf rs),
   { c.tile with poisoned := c.tile.poisoned
      || ((List.range (hi - lo)).any (fun i => (x.piece (lo + i) c.op.imm0 (opN c.op)).poisoned)
        || offs.poisonedIn (4 * c.g) (4 * c.g + 8)) }))
/-- CAT: IMM0 elements of VA, then IMM1 of VB. -/
def opCat : Prop := opRuns .opCat 0x2C (fun c g =>
  let eb := elemBits c.op.fmt
  writeVec g c.op.vd c.op.span eb (readVec g c.op.va c.op.span eb c.op.imm0 ++ readVec g c.op.vb c.op.span eb c.op.imm1)
    (vecFlags g c.op.va c.op.span ||| vecFlags g c.op.vb c.op.span))
/-- TRANSP changes the working area alone. -/
def opTransp : Prop := opRuns .opTransp 0x2D (fun c g =>
  let r := bitsOf c.op.imm2 8 0
  let n := bitsOf c.op.imm2 24 16
  let eb := elemBits c.op.fmt
  let src := workBits g c.op.imm0 (elemBytes c.op.fmt (r * n))
  let out := packElems eb ((List.range (r * n)).map (fun k => elemAt src eb ((k % r) * n + k / r)))
  { g with work := tabPaste g.work c.op.imm1 (elemBytes c.op.fmt (r * n)) (natTab (elemBytes c.op.fmt (r * n)) out) })
/-- MM multiplies the panel by column panel p of the weight on PORT, +0 beyond it (R249). -/
def opMm : Prop := opRuns .opMm 0x30 (fun c g =>
  let x := c.input c.op.port
  let col (j : Nat) : Nat := 256 * bitsOf c.op.imm1 19 16 + j
  Machine.opMm c.rows c.op
    (fun k j => if k < x.rows && col j < x.rowLen then rowElem x.data x.format (k * x.rowSize) x.rowLen (col j) else vZero)
    (fun k j => if k < x.rows && col j < x.rowLen then
      (tabGet 0 x.data (k * x.rowSize + x.rowLen * elemBits x.format / 8 + col j / 32)).toNat else 0) g)
def opMmout : Prop := opRuns .opMmout 0x31 (fun c g => Machine.opAccrd c.exact c.row c.op c.draws g)
/-- MASKGEN: IMM1 keep bits drawn by R252, with no flag. -/
def opMaskgen : Prop := opRuns .opMaskgen 0x34 (fun c g => writeVec g c.op.vd c.op.span 1
  ((List.range c.op.imm1).map (fun j => if dropKept c.draws c.op c.rowLen j then 1 else 0)) 0#3)
def opMaskapply : Prop := opRuns .opMaskapply 0x35 (fun c g => Machine.opMaskapply c.op c.draws g)
/-- DROPOUT: a kept element times IMM1, +0 for the others (R252). -/
def opDropout : Prop := opRuns .opDropout 0x36 (elems 1 (fun c j a _ _ =>
  if vIsNan (val c a) then nanOf c
  else if dropKept c.draws c.op c.rowLen j then rnd c j (vMul (val c a) (decodeFloat fmtFP32 c.op.imm1))
  else ⟨0, false, false, false⟩))
/-- RELUMASK: bit j is set where element j is above 0. -/
def opRelumask : Prop := opRuns .opRelumask 0x37 (fun c g =>
  writeVec g c.op.vd ((c.op.imm1 + 8191) / 8192 - 1) 1
    ((readVec g c.op.va c.op.span (elemBits c.op.fmt) c.op.imm1).map (fun w => if vPos (val c w) then 1 else 0))
    (vecFlags g c.op.va c.op.span))
def opQuant : Prop := opRuns .opQuant 0x38 (fun c g => Machine.opQuant c.op c.draws g)
def opDequant : Prop := opRuns .opDequant 0x39 (fun c g => Machine.opDequant c.op g)
/-- CVT: elements of format IMM0[7:0] rounded to FMT. -/
def opCvt : Prop := opRuns .opCvt 0x3A (fun c g =>
  let sf := c.op.imm0 % 256
  let span := (opN c.op * elemBits sf + 8191) / 8192 - 1
  let rs := ((readVec g c.op.va span (elemBits sf) (opN c.op)).zipIdx).map (fun p => rnd c p.2 (decodeFloat (fmtOf sf) p.1))
  writeVec g c.op.vd c.op.span (elemBits c.op.fmt) (rs.map (fun r => r.bits)) (vecFlags g c.op.va span ||| flagsOf rs))
/-- DIGEST folds VA into the tile's check digest and changes no register (R253, R297). -/
def opDigest : Prop := opRunsTile .opDigest 0x3C (fun c g =>
  (g, { c.tile with checkWords := (foldCheck c.tile.checkWords c.tile.check (vecBytes g c.op)).1
                    check := (foldCheck c.tile.checkWords c.tile.check (vecBytes g c.op)).2 }))


/-! ### Movers (chapter 10) -/

/-- EVENT_PULSE raises the counter of the line's route by 1; an empty route only counts the pulse, and a line from 248 on sets
its MOV_EVT_PEND.DONE bit (R382, R459, R460). -/
def eventPulse : Prop := ∀ (s : State) (hub : Hub) (line : BitVec 8),
  let y := s.syn.hubs[hub]
  exec (.eventPulse hub line) s = .next (
    if 248 ≤ line.toNat then
      s.setMovers hub { s.mov.hubs[hub] with evtDone := s.mov.hubs[hub].evtDone ||| (1#8 <<< (line.toNat - 248)) }
    else match tabGet Route.empty y.routes line.toNat with
      | .empty => s.setSync hub { y with emptyPulses := y.emptyPulses + 1 }
      | .engine e c => s.raiseEngine hub (s.engineOf hub e.val) c.val 1
      | .core k c => s.setSync hub { y with
          coreCtrs := tabPut 0 y.coreCtrs (k.val * 32 + c.val) (tabGet 0 y.coreCtrs (k.val * 32 + c.val) + 1) }
      | .host c => s.raiseHost hub c.val 1)

/-- The state in which a channel's LOAD is checked: firmware has set the route of the event line the shadow set names
(R460). -/
def loadFrom (s : State) (hub : Hub) (ch : Fin 64) (by_ : MovWriter) : State :=
  match by_ with
  | .host => s
  | .firmware r =>
    if ctrlEvent (s.chan hub ch.val).shadow < 248 then
      s.setSync hub { s.syn.hubs[hub] with
        routes := tabPut Route.empty s.syn.hubs[hub].routes (ctrlEvent (s.chan hub ch.val).shadow) r }
    else s

/-- A writer reaches a channel: host software the ones held in direct mode, firmware the others (R348, R380). -/
abbrev reachesChan (s : State) (hub : Hub) (ch : Fin 64) (by_ : MovWriter) : Prop :=
  s.isDirect hub ch.val = (by_ == .host)

abbrev Pre.movLoad (s : State) (hub : Hub) (ch : Fin 64) (by_ : MovWriter) : Prop := reachesChan s hub ch by_
/-- MOV_LOAD: a shadow set that fails a check of Table 10-6 latches the first failing code and is not valid; one that passes
becomes the active set of an IDLE channel at once and waits, valid, behind a transfer in progress (R361, R363). -/
def movLoad : Prop := ∀ s hub ch by_, Pre.movLoad s hub ch by_ →
  let u := loadFrom s hub ch by_
  let x := s.chan hub ch.val
  let e := u.loadCheck hub x
  exec (.movLoad hub ch 0 by_) s = .next (
    if e ≠ 0 then u.setChan hub ch.val { x with cfgErr := BitVec.ofNat 4 e }
    else if x.state = .idle then u.setChan hub ch.val (Channel.promote { x with cfgErr := 0, shadowValid := true } s.tick)
    else u.setChan hub ch.val { x with cfgErr := 0, shadowValid := true })

abbrev Pre.movAbort (s : State) (hub : Hub) (ch : Fin 64) (by_ : MovWriter) : Prop := reachesChan s hub ch by_
/-- MOV_ABORT: an IDLE channel only discards its shadow set, a channel in a burst ends after it, and any other is IDLE at once
with LAST ABORTED and its latched error cleared (R365). -/
def movAbort : Prop := ∀ s hub ch by_, Pre.movAbort s hub ch by_ →
  let x := s.chan hub ch.val
  exec (.movAbort hub ch 0 by_) s = .next (s.setChan hub ch.val (
    if x.state = .idle then { x with shadowValid := false }
    else if x.state = .running ∧ x.passed ≠ 0 then { x with aborting := true, shadowValid := false }
    else { x with state := .idle, shadowValid := false, last := 3, err := 0, errInfo := 0, passed := 0, asked := none,
                  got := [], fence := none, aborting := false, halting := false }))

abbrev Pre.movResume (s : State) (hub : Hub) (ch : Fin 64) (by_ : MovWriter) : Prop :=
  reachesChan s hub ch by_ ∧ (s.chan hub ch.val).state = .halted
    ∧ (s.chan hub ch.val).done < (dstOf (s.chan hub ch.val).active).total
/-- MOV_RESUME of a HALTED channel with bytes left: it runs again from the burst that failed, its error cleared (R377). -/
def movResume : Prop := ∀ s hub ch by_, Pre.movResume s hub ch by_ →
  exec (.movResume hub ch 0 by_) s = .next (s.setChan hub ch.val { s.chan hub ch.val with
    state := .running, err := 0, errInfo := 0, passed := 0, asked := none, got := [] })

/-- MOV_PRIO_WRITE: the writer that reaches the channel changes its running priority; the other's write has no effect (R367,
R381). -/
def movPrioWrite : Prop := ∀ (s : State) (hub : Hub) (ch : Fin 64) (v : BitVec 32) (by_ : MovWriter),
  exec (.movPrioWrite hub ch v by_) s = .next (
    if s.isDirect hub ch.val = (by_ == .host) then
      s.setChan hub ch.val { s.chan hub ch.val with prio := v.extractLsb' 0 3 } else s)

/-- The step a channel's grant takes past its arbiter. -/
def grantStep (s : State) (port : MovPort) (h : Hub) (c : Fin 64) : State :=
  (s.granted port (h, c)).setChan h c.val { s.chan h c.val with passed := (s.chan h c.val).passed + 1 }

abbrev Pre.burstGrant (s : State) (port : MovPort) (h : Hub) (c : Fin 64) : Prop :=
  s.stalled = false ∧ s.arbitrate port = some (h, c)
    ∧ (srcOf (s.chan h c.val).active).space ≠ 3 ∧ (dstOf (s.chan h c.val).active).space ≠ 3
/-- BURST_GRANT to a channel that reads no peer's window: the channel has passed one arbiter more, and its burst moves once it
has passed them all (R355, R366). -/
def burstGrant : Prop := ∀ s port h c f, Pre.burstGrant s port h c →
  exec (.burstGrant port f) s = .next (
    if (burstPorts (s.chan h c.val).active h c).length ≤ (s.chan h c.val).passed + 1
    then (grantStep s port h c).burst h c f else grantStep s port h c)

abbrev Pre.burstMoves (s : State) (h : Hub) (c : Fin 64) : Prop :=
  ctrlMode (s.chan h c.val).active = 0
    ∧ (srcOf (s.chan h c.val).active).space = 0 ∧ (dstOf (s.chan h c.val).active).space = 1
    ∧ s.sideError (dstOf (s.chan h c.val).active) h true = none
    ∧ (s.chan h c.val).aborting = false ∧ (s.chan h c.val).halting = false
    ∧ tabWf { bytes := [], poison := [] } s.mov.mem = true
/-- A copying burst from host memory to a bank writes the bank's bytes from host memory's, at the offsets of the two patterns,
and nothing else of any memory; its channel goes on from the burst's end (R353 to R356, R359). -/
def burstMoves : Prop := ∀ s h c f, Pre.burstMoves s h c →
  let a := srcOf (s.chan h c.val).active
  let b := dstOf (s.chan h c.val).active
  let lo := (s.chan h c.val).done
  let hi := burstEnd false a b lo
  let t := s.burst h c f
  t.unitMem (b.memNo h) = (s.unitMem (b.memNo h)).write ((List.range (hi - lo)).map (fun i =>
      (b.byte (lo + i), (tabGet 0 s.host.mem (a.byte (lo + i)), tabGet false s.host.poison (a.byte (lo + i))))))
    ∧ (∀ k, k ≠ b.memNo h → t.unitMem k = s.unitMem k) ∧ t.host = s.host
    ∧ (t.chan h c.val).done = hi ∧ (t.chan h c.val).progress = BitVec.ofNat 64 hi

abbrev Pre.transferComplete (s : State) (hub : Hub) (ch : Fin 64) : Prop :=
  s.stalled = false ∧ (s.chan hub ch.val).state = .waiting ∧ s.synced hub ch.val = true
    ∧ (s.rg.ports[hub].writes.any (fun w : PortWrite => w.ch == ch.val)) = false
    ∧ ctrlEventEn (s.chan hub ch.val).active = false
/-- TRANSFER_COMPLETE at a reached sync point, of a transfer that names no event: the channel is IDLE with the end of
Table 10-5, and a valid shadow set becomes active (R363, R369). -/
def transferComplete : Prop := ∀ s hub ch f, Pre.transferComplete s hub ch →
  let x := s.chan hub ch.val
  let last : BitVec 3 := if f = true ∧ ctrlSync x.active = 1 ∧ ctrlCheck x.active = true then 4
    else if x.checkFail ≠ 0 then 1 else if ctrlMode x.active = 2 ∧ x.cmpCount ≠ 0 then 2 else 0
  let y : Channel := { x with state := .idle, last := last, fence := none }
  exec (.transferComplete hub ch f) s = .next (s.setChan hub ch.val (if x.shadowValid then y.promote s.tick else y))

abbrev Pre.busError (s : State) (hub : Hub) (ch : Fin 64) : Prop :=
  (s.chan hub ch.val).state = .running ∨ (s.chan hub ch.val).state = .waiting
/-- BUS_ERROR halts the channel with the cause latched; notice 0x0070 names the channel and the cause, and host software is
told where it holds the channel in direct mode (R375, R376, Table 10-10). -/
def busError : Prop := ∀ s hub ch cause w, Pre.busError s hub ch → ∃ (a : BitVec 64),
  let x := s.chan hub ch.val
  let u := (s.setChan hub ch.val { x with
    err := a, errInfo := BitVec.ofNat 32 (2 ^ 31 + (if w then 2 ^ 30 else 0) + busCode cause * 2 ^ 26)
    halting := false, state := .halted, passed := 0, asked := none, got := [] }).event hub
      (ev 0x0070 2 (ch.val + busCode cause * 64))
  exec (.busError hub ch cause w) s = .next (
    if s.isDirect hub ch.val then
      u.setMovers hub { u.mov.hubs[hub] with evtHalt := u.mov.hubs[hub].evtHalt ||| (1#8 <<< (ch.val - 56)) }
    else u)

/-- CHANNEL_RETIRED retires the physical channel behind a logical one (R378, R379). -/
def channelRetired : Prop := ∀ (s : State) (hub : Hub) (ch : Fin 64),
  exec (.channelRetired hub ch) s = .next (s.retireChannel hub ch.val)

/-- MOV_DIRECT_REQ: REQ takes the value, and is asked for where it returns channels, or asks for at most 8 while no context
exists and ring 0 has no command in flight; any other is DENIED (R380, R383). -/
def movDirectReq : Prop := ∀ (s : State) (hub : Hub) (v : BitVec 32),
  let m := s.mov.hubs[hub]
  let n : BitVec 4 := v.extractLsb' 0 4
  exec (.movDirectReq hub v) s = .next (s.setMovers hub (
    if n = 0 ∨ (n ≤ 8 ∧ s.ctxs = [] ∧ ((s.ring? 0).map (fun r => r.inflight.isEmpty)).getD true = true)
    then { m with directReq := n, directWanted := some n } else { m with directReq := n, directDenied := true }))

abbrev Pre.directGrant (s : State) (hub : Hub) (n : BitVec 4) : Prop :=
  s.mov.hubs[hub].directWanted = some n
    ∧ ∀ c ∈ List.range 64, 64 - max n.toNat s.mov.hubs[hub].directGranted.toNat ≤ c → (s.chan hub c).state = .idle
/-- DIRECT_GRANT once the channels are IDLE: GRANTED takes what was asked for and DENIED clears (R380, R383). -/
def directGrant : Prop := ∀ s hub n, Pre.directGrant s hub n →
  let m := s.mov.hubs[hub]
  exec (.directGrant hub) s = .next (s.setMovers hub { m with
    directGranted := n, directDenied := (if n = 0 then m.directDenied else false), directWanted := none })

/-! ### The sync block (chapter 13) -/

abbrev Pre.mirrorWrite (s : State) (hub : Hub) (c : Fin 256) : Prop :=
  s.syn.hubs[hub].ctrl.getLsbD 0 = true ∧ c.val ∈ s.syn.hubs[hub].dirty ∧ bitOf (s.ctrCfg hub c.val).toNat 31 = true
/-- MIRROR_WRITE of an owned counter that has changed writes its value and its realignment count into its mirror word
(R464, R465, Table 13-2). -/
def mirrorWrite : Prop := ∀ s hub c, Pre.mirrorWrite s hub c →
  let y := s.syn.hubs[hub]
  exec (.mirrorWrite hub c) s = .next ((s.setSync hub { y with dirty := y.dirty.erase c.val }).hostWrite (y.base + 8 * c.val)
    (leBytes 4 (s.hostCtr hub c.val).toNat ++ leBytes 2 (tabGet 0 y.realigns c.val) ++ [0, 0]))

/-- POST_POLL, where POLL_EN is 1, reads every post word of the hub in ascending order (R467). -/
def postPoll : Prop := ∀ (s : State) (hub : Hub),
  exec (.postPoll hub) s = .next (if s.syn.hubs[hub].ctrl.getLsbD 1 then
    (List.range 256).foldl (fun (u : State) c => u.takePost hub c) s else s)

/-- WAKE_IN, where WAKE_IN_EN is 1, reads every post word of the hub (R467). -/
def wakeIn : Prop := ∀ (s : State) (hub : Hub),
  exec (.wakeIn hub) s = .next (if s.syn.hubs[hub].ctrl.getLsbD 2 then
    (List.range 256).foldl (fun (u : State) c => u.takePost hub c) s else s)

abbrev Pre.takePost (s : State) (hub : Hub) (c : Nat) : Prop := bitOf (s.ctrCfg hub c).toNat 31 = true
/-- A post word read: the owned counter rises by what was posted since the last read, modulo 2^32 (R467). -/
def takePost : Prop := ∀ s hub c, Pre.takePost s hub c →
  let y := s.syn.hubs[hub]
  let p := s.postWord hub c
  let l := tabGet 0 y.lastPost c
  s.takePost hub c = if p = l then s
    else (s.setSync hub { y with lastPost := tabPut 0 y.lastPost c p }).raiseHost hub c (p - l)

abbrev Pre.longWait (s : State) (d : Fin 40) : Prop :=
  bitsOf s.syn.hubs[hubOf (d.val / 10)].ctrl.toNat 23 16 ≠ 0
    ∧ ((s.pwr.hubs[hubOf (d.val / 10)]).dom (d.val % 10)).state = .on
/-- LONG_WAIT marks an ON domain long-waiting (R474). -/
def longWait : Prop := ∀ s d, Pre.longWait s d →
  exec (.longWait d) s = .next (s.setPower (hubOf (d.val / 10))
    ((s.pwr.hubs[hubOf (d.val / 10)]).upd (d.val % 10) (fun (x : Domain) => { x with longWaiting := true })))

abbrev Pre.barrier (s : State) (m : BarrierMsg) (g : Group) : Prop :=
  s.group? m.group.val = some g ∧ (s.bundle (g.pkg m.rank)).head? ≠ none
    ∧ s.syn.bars[m.slot].state = .waiting ∧ s.syn.bars[m.slot].grouped = true
    ∧ s.syn.bars[m.slot].group = m.group.val ∧ m.lineDone = false ∧ m.rank ∈ g.line1
    ∧ m.generation.toNat = (s.syn.bars[m.slot].gen + 1) % 2 ^ 32
/-- BARRIER: an ARRIVE of the present generation from a member of the line is held once (R480, R481). -/
def barrier : Prop := ∀ s m g, Pre.barrier s m g →
  let x := s.syn.bars[m.slot]
  exec (.barrier m) s = .next (s.setBar m.slot { x with arrive0 := if m.rank ∈ x.arrive0 then x.arrive0 else x.arrive0 ++ [m.rank] })

abbrev Pre.barrierArrive (s : State) (hub : Hub) (b : Fin 8) : Prop :=
  s.syn.bars[b].state = .waiting ∧ s.syn.bars[b].beacon[hub] = .asserting
    ∧ reached (s.hostCtr hub s.syn.bars[b].arriveCtr) (BitVec.ofNat 32 s.syn.bars[b].arriveStep) = true
/-- BARRIER_ARRIVE: a participating hub whose arrival counter has reached ARRIVE_STEP releases its beacon line (R476, R479). -/
def barrierArrive : Prop := ∀ s hub b, Pre.barrierArrive s hub b →
  let x := s.syn.bars[b]
  exec (.barrierArrive hub b) s = .next (s.setBar b { x with beacon := Vector.set x.beacon hub.val .released })

abbrev Pre.beaconComplete (s : State) (b : Fin 8) : Prop :=
  s.syn.bars[b].state = .waiting ∧ s.syn.bars[b].hubs ≠ []
    ∧ (∀ h ∈ s.syn.bars[b].hubs, s.syn.bars[b].beacon[hubOf h] = .released) ∧ s.syn.bars[b].grouped = false
/-- BEACON_COMPLETE of a package-scope slot: with every participating hub released the slot has ARRIVED and those hubs hold
(R476, R479). -/
def beaconComplete : Prop := ∀ s b, Pre.beaconComplete s b →
  let x := s.syn.bars[b]
  exec (.beaconComplete b) s = .next (s.setBar b { x with
    state := .arrived, arrivedAt := s.tick
    beacon := Vector.ofFn (fun (h : Hub) => if h.val ∈ x.hubs then BeaconPhase.hold else x.beacon[h]) })

abbrev Pre.beaconHoldEnd (s : State) (hub : Hub) (b : Fin 8) : Prop :=
  s.syn.bars[b].beacon[hub] = .hold ∧ s.syn.bars[b].arrivedAt + s.syn.hubs[hub].holdTicks ≤ s.tick
/-- BEACON_HOLD_END: after the hold time a participating hub asserts its line again (R476). -/
def beaconHoldEnd : Prop := ∀ s hub b, Pre.beaconHoldEnd s hub b →
  let x := s.syn.bars[b]
  exec (.beaconHoldEnd hub b) s = .next (s.setBar b { x with beacon := Vector.set x.beacon hub.val .asserting })

abbrev Pre.barrierComplete (s : State) (b : Fin 8) : Prop :=
  s.syn.bars[b].state = .arrived ∧ s.syn.bars[b].grouped = false
/-- BARRIER_COMPLETE: on every participating hub the generation's effects happen, in ascending order, and the slot waits for
the next generation with what it already holds for it (R482). -/
def barrierComplete : Prop := ∀ s b, Pre.barrierComplete s b →
  let x := s.syn.bars[b]
  exec (.barrierComplete b) s = .next ((x.hubs.foldl (fun (u : State) h => u.barDone b x (hubOf h)) s).setBar b { x with
    state := .waiting, gen := x.gen + 1, arrive0 := x.arrive1, arrive1 := [], line0 := x.line1, line1 := [],
    lineDoneSent := false })

abbrev Pre.barDone (s : State) (x : BarSlot) (h : Hub) : Prop :=
  x.arriveCtr ≠ x.releaseCtr ∧ s.syn.hubs[h].cfg = [] ∧ x.wakes = false ∧ tabWf 0 s.syn.hubs[h].ctrs = true
/-- A generation's effects on a hub: the arrival counter falls by ARRIVE_STEP and the release counter rises by 1 (R482). -/
def barDone : Prop := ∀ s b x h, Pre.barDone s x h →
  (s.barDone b x h).hostCtr h x.arriveCtr = s.hostCtr h x.arriveCtr - BitVec.ofNat 32 x.arriveStep
    ∧ (s.barDone b x h).hostCtr h x.releaseCtr = s.hostCtr h x.releaseCtr + 1
    ∧ ∀ c, c < 256 → c ≠ x.arriveCtr → c ≠ x.releaseCtr → (s.barDone b x h).hostCtr h c = s.hostCtr h c

abbrev Pre.barrierTimeout (s : State) (b : Fin 8) : Prop :=
  s.syn.bars[b].state = .arrived ∧ s.syn.bars[b].grouped = true ∧ s.syn.bars[b].timeoutMs ≠ 0
    ∧ s.barComplete s.syn.bars[b] = false ∧ s.syn.bars[b].arrivedAt + s.syn.bars[b].timeoutMs * msTicks ≤ s.tick
/-- BARRIER_TIMEOUT puts the slot in FAULT with cause 1 (R483). -/
def barrierTimeout : Prop := ∀ s b, Pre.barrierTimeout s b →
  exec (.barrierTimeout b) s = .next (s.barFault b 1)

/-- SYN_BAR_CFG2 takes its value with ARRIVE_STEP 0 read as 1; SYN_BAR_CFG with ENABLE 0 disables the slot and releases every
beacon line, and with ENABLE going from 0 to 1 starts it at generation 0 with each participating hub asserting (R478, R479). -/
def synBarCfgWrite : Prop := ∀ (s : State) (b : Fin 8) (v : BitVec 32),
  let x := s.syn.bars[b]
  exec (.synBarCfgWrite b true v) s = .next (s.setBar b { x with
    cfg2 := if bitsOf v.toNat 19 12 = 0 then v ||| 0x1000#32 else v })
  ∧ (v.getLsbD 31 = false → exec (.synBarCfgWrite b false v) s = .next (s.setBar b { x with
      cfg := v &&& ~~~0x1F#32, state := .disabled, cause := 0, beacon := Vector.replicate 4 .out }))
  ∧ (v.getLsbD 31 = true → x.cfg.getLsbD 31 = false → exec (.synBarCfgWrite b false v) s = .next (s.setBar b { x with
      cfg := v &&& ~~~0x1F#32, state := .waiting, cause := 0, gen := 0, arrive0 := [], arrive1 := [], line0 := [], line1 := []
      lineDoneSent := false
      beacon := Vector.ofFn (fun (h : Hub) => if v.getLsbD (22 + h.val) then BeaconPhase.asserting else .out) }))

abbrev Pre.synCtrCfgWrite (s : State) (hub : Hub) : Prop := s.ctrWaited hub (s.syn.hubs[hub].sel.toNat % 256) = false
/-- SYN_CTR_CFG_WRITE while no waiter is pending on the selected counter: it takes the value with its reserved bits 0 and
REALIGN 3 as 0, and a counter that becomes owned takes its post word as the last read (R467, R469). -/
def synCtrCfgWrite : Prop := ∀ s hub v, Pre.synCtrCfgWrite s hub →
  let y := s.syn.hubs[hub]
  let c := y.sel.toNat % 256
  let w : BitVec 32 := if (v &&& 0x18000000#32) = 0x18000000#32 then v &&& ~~~0x18007000#32 else v &&& ~~~0x7000#32
  exec (.synCtrCfgWrite hub v) s = .next (s.setSync hub { y with
    cfg := tabPut ctrCfgReset y.cfg c w
    lastPost := if v.getLsbD 31 = true ∧ bitOf (s.ctrCfg hub c).toNat 31 = false then tabPut 0 y.lastPost c (s.postWord hub c)
                else y.lastPost })

/-- SYN_CTR_VAL_WRITE: the selected counter takes the value; one that carries it up raises a running step's mark (R96, R465). -/
def synCtrValWrite : Prop := ∀ (s : State) (hub : Hub) (v : BitVec 32),
  let c := s.syn.hubs[hub].sel.toNat % 256
  let d := v - s.hostCtr hub c
  exec (.synCtrValWrite hub v) s = .next (
    if 0 < d.toNat ∧ d.toNat < 2 ^ 31 then (s.setHostCtr hub c v).markRaise hub c else s.setHostCtr hub c v)

/-- LOCK_ACQUIRE gives a FREE or ABANDONED lock to the requester and leaves a HELD one with its holder (R486). -/
def lockAcquire : Prop := ∀ (s : State) (hub : Hub) (l : Fin 64) (q : BitVec 8),
  ((∀ b, s.lock hub l.val ≠ .held b) → exec (.lockAcquire hub l q) s = .next (s.setLock hub l.val (.held q)))
    ∧ (∀ b, s.lock hub l.val = .held b → exec (.lockAcquire hub l q) s = .next s)

/-- LOCK_RELEASE by the holder makes the lock FREE; by any other it changes nothing and is counted (R487). -/
def lockRelease : Prop := ∀ (s : State) (hub : Hub) (l : Fin 64) (q : BitVec 8),
  let y := s.syn.hubs[hub]
  (s.lock hub l.val = .held q → exec (.lockRelease hub l q) s = .next (s.setLock hub l.val .free))
    ∧ (s.lock hub l.val ≠ .held q →
        exec (.lockRelease hub l q) s = .next (s.setSync hub { y with badReleases := y.badReleases + 1 }))

/-- LOCK_ABANDON: a HELD lock becomes ABANDONED and notice 0x0064 names the lock and its holder; any other lock stays as it
is (R488). -/
def lockAbandon : Prop := ∀ (s : State) (hub : Hub) (l : Fin 64),
  (∀ b, s.lock hub l.val = .held b → exec (.lockAbandon hub l) s
      = .next ((s.setLock hub l.val (.abandoned b)).event hub (ev 0x0064 1 (l.val + b.toNat * 256))))
    ∧ ((∀ b, s.lock hub l.val ≠ .held b) → exec (.lockAbandon hub l) s = .next s)


/-! ### Links (chapter 11) -/

/-- A link receives frames: it is in HELLO, UP, REDUCED or DOWN_VERSION (Table 11-4). -/
abbrev receives (s : State) (l : LinkNo) : Prop :=
  s.lnk.links[l].state = .hello ∨ s.lnk.links[l].state = .up ∨ s.lnk.links[l].state = .reduced
    ∨ s.lnk.links[l].state = .downVersion

/-- A link is UP or REDUCED. -/
abbrev runs (s : State) (l : LinkNo) : Prop := s.lnk.links[l].state = .up ∨ s.lnk.links[l].state = .reduced

/-- A frame's codewords and checks are good. -/
def frameGood (f : LinkFrame) : Prop := f.codewordsOk = true ∧ f.fcrcOk = true ∧ f.dcrcOk = true

/-- The error counts a received frame adds to a link. -/
def counted (k : Link) (f : LinkFrame) : Link :=
  { k with counts := { k.counts with
    corrected := k.counts.corrected + f.corrected, uncorrectable := k.counts.uncorrectable + f.uncorrectable } }

abbrev Pre.linkFrameReceive (s : State) (l : LinkNo) (f : LinkFrame) : Prop :=
  receives s l ∧ frameGood f ∧ f.seq = s.lnk.links[l].rxExpect
/-- LINK_FRAME_RECEIVE of the frame expected takes it, its error counts added (R391 to R393). -/
def linkFrameReceive : Prop := ∀ s l f, Pre.linkFrameReceive s l f →
  exec (.linkFrameReceive l f) s = .next ((s.setLink l (counted s.lnk.links[l] f)).takeFrame l f)

abbrev Pre.linkFrameBad (s : State) (l : LinkNo) (f : LinkFrame) : Prop := receives s l ∧ ¬ frameGood f
/-- LINK_FRAME_RECEIVE of a frame that fails is discarded: the next frame sent carries NAK, and names the lane that failed
(R392). -/
def linkFrameBad : Prop := ∀ s l f, Pre.linkFrameBad s l f → ∃ lane : BitVec 3,
  exec (.linkFrameReceive l f) s = .next (s.setLink l { counted s.lnk.links[l] f with nakOut := true, laneBadOut := lane })

abbrev Pre.linkFrameOther (s : State) (l : LinkNo) (f : LinkFrame) : Prop :=
  receives s l ∧ frameGood f ∧ f.seq ≠ s.lnk.links[l].rxExpect
/-- LINK_FRAME_RECEIVE of a good frame out of order is discarded: NAK answers it unless it is a copy of one taken (R393). -/
def linkFrameOther : Prop := ∀ s l f, Pre.linkFrameOther s l f →
  exec (.linkFrameReceive l f) s = .next (s.setLink l { counted s.lnk.links[l] f with
    nakOut := s.lnk.links[l].nakOut || decide (2 ^ 15 ≤ (s.lnk.links[l].rxExpect - f.seq).toNat) })

abbrev Pre.linkResend (s : State) (l : LinkNo) : Prop := receives s l ∧ s.lnk.links[l].nakSeen = true
/-- LINK_RESEND: every unacknowledged frame is sent again and counted; with one already resent 8 times the link retrains
(R394). -/
def linkResend : Prop := ∀ s l, Pre.linkResend s l →
  let k := s.lnk.links[l]
  exec (.linkResend l) s = .next (
    if ∃ f ∈ k.unacked, 8 ≤ f.resends then s.linkRetrainNow l 1
    else s.setLink l { k with
      unacked := k.unacked.map (fun f : UFrame => { f with resends := f.resends + 1 }), nakSeen := false
      counts := { k.counts with resent := k.counts.resent + k.unacked.length } })

abbrev Pre.linkRetrainDone (s : State) (l : LinkNo) : Prop := s.lnk.links[l].state = .retrain
/-- LINK_RETRAIN_DONE: a link that retrained starts a new session in HELLO; one that fails the third time in a row leaves its
session for FAILED (R395, R400). -/
def linkRetrainDone : Prop := ∀ s l, Pre.linkRetrainDone s l →
  let k := s.lnk.links[l]
  let u := s.setLink l { k with trainFails := k.trainFails + 1 }
  exec (.linkRetrainDone l true) s = .next ((s.leaveSession l).linkHello l)
    ∧ exec (.linkRetrainDone l false) s
        = .next (if 2 ≤ k.trainFails then (u.leaveSession l).linkState l .failed else u)

abbrev Pre.laneBad (s : State) (l : LinkNo) (lane : Fin 5) (lost : Bool) : Prop :=
  lane.val ∉ s.lnk.links[l].bad ∧ (lost = true ∨ s.overBer l lane.val = true)
/-- LANE_BAD of a lane that lost codeword lock or exceeds the threshold: the lane is bad, notice 0x0051 names it, and a
targeted test takes it. A lane of the rotation leaves it when it has lost lock or no spare can take its place, and an unused
spare is named to the peer and begins to train; a spare that goes bad is BAD (R396 to R398). -/
def laneBad : Prop := ∀ s l lane lost, Pre.laneBad s l lane lost →
  let k := s.lnk.links[l]
  let u := (s.event (linkHub l) (evU 0x0051 1 10 l.val (lane.val + if lost then 8 else 0))).sendTest
    { hub := l.val / 8, kind := 10, index := l.val, sub := lane.val } 6
  exec (.laneBad l lane lost) s = .next (
    if lane.val ∈ k.map then
      let v := u.setLink l { k with
        bad := k.bad ++ [lane.val]
        map := if lost = true ∨ 2 ≤ k.spareState then k.map.erase lane.val else k.map
        spareState := if k.spareState = 0 then 1 else if k.spareState = 2 then 3 else k.spareState }
      (if k.spareState = 0 ∧ v.lowerEnd l = true then v.sendMsg l (lmsg 3 0 (BitVec.ofNat 64 k.spare)) else v).linkByLanes l
    else u.setLink l { k with bad := k.bad ++ [lane.val], spareState := if lane.val = k.spare then 3 else k.spareState })

abbrev Pre.laneBer (s : State) (l : LinkNo) (lane : Fin 5) : Prop := s.overBer l lane.val = false
/-- LANE_BAD for an error estimate that does not exceed LNK_LANE_BER.THRESHOLD changes nothing (R396, R676). -/
def laneBer : Prop := ∀ s l lane, Pre.laneBer s l lane → exec (.laneBad l lane false) s = .next s

abbrev Pre.laneCtrl (s : State) (l : LinkNo) (arg : BitVec 64) : Prop :=
  runs s l ∧ bitsOf arg.toNat 2 0 = s.lnk.links[l].spare
/-- LANE_CTRL names the spare to train, or says that the peer has trained it (R398). -/
def laneCtrl : Prop := ∀ s l arg, Pre.laneCtrl s l arg →
  let k := s.lnk.links[l]
  exec (.laneCtrl l arg) s = .next (
    if arg.getLsbD 8 then (s.setLink l { k with peerTrained := true }).trySwap l
    else s.setLink l { k with spareState := if k.spareState = 0 then 1 else k.spareState })

abbrev Pre.spareLaneTrained (s : State) (l : LinkNo) : Prop :=
  s.lnk.links[l].spareState = 1 ∧ s.lnk.links[l].localTrained = false
/-- SPARE_LANE_TRAINED: this end says so with LANE_CTRL, and the swap follows once both ends have trained it (R398). -/
def spareLaneTrained : Prop := ∀ s l, Pre.spareLaneTrained s l →
  let k := s.lnk.links[l]
  exec (.spareLaneTrained l) s = .next (((s.setLink l { k with localTrained := true }).sendMsg l
    (lmsg 3 0 (BitVec.ofNat 64 (k.spare + 256)))).trySwap l)

abbrev Pre.linkTrained (s : State) (l : LinkNo) (lanes : BitVec 5) : Prop :=
  s.lnk.links[l].state = .training
    ∧ 3 ≤ ((List.range 5).filter (fun i => lanes.getLsbD i && i ∉ s.lnk.links[l].bad)).length
/-- LINK_TRAINED on three lanes or more: the rotation is the first four good lanes, and the link goes to HELLO (R400). -/
def linkTrained : Prop := ∀ s l lanes, Pre.linkTrained s l lanes →
  let k := s.lnk.links[l]
  let ok := ((List.range 5).filter (fun i => lanes.getLsbD i && i ∉ k.bad)).take 4
  exec (.linkTrained l lanes) s = .next (((s.setLink l { k with
    map := ok, spareState := if k.spare ∈ ok then 2 else k.spareState }).leaveSession l).linkHello l)

abbrev Pre.trainingRetry (s : State) (l : LinkNo) : Prop :=
  s.lnk.links[l].state = .training ∧ s.lnk.links[l].trainSince
    + (if s.lnk.links[l].trainSince < s.lnk.links[l].trainFirst + 2000 * msTicks then 100 * msTicks else 10000 * msTicks) ≤ s.tick
/-- TRAINING_RETRY: with no answer the link trains again, every 100 ms in the first 2 s and every 10 s then (R400). -/
def trainingRetry : Prop := ∀ s l, Pre.trainingRetry s l →
  exec (.trainingRetry l) s = .next (s.setLink l { s.lnk.links[l] with trainSince := s.tick })

abbrev Pre.hello (s : State) (l : LinkNo) (data : BitVec 512) : Prop :=
  s.lnk.links[l].state = .hello ∧ ((s.lnk.links[l].peer.map PeerHello.session) ≠ some (helloOf data).session)
/-- HELLO in HELLO: the versions are agreed on, and the link comes up or is DOWN_VERSION (R399, R400, R411). -/
def hello : Prop := ∀ s l data, Pre.hello s l data →
  exec (.hello l data) s = .next ((((s.leaveSession l).setLink l { s.lnk.links[l] with
    peer := some (helloOf data), landed := 0, landedAhead := [] }).peerEpoch l (helloOf data).pkg
      (helloOf data).epoch).linkAgree l (helloOf data))

/-- The versions two ends run at: this firmware speaks major 1, minors to 3, and works with majors from 1 on. A peer of the
same major agrees on the lower minor, no higher than either cap; a peer of a higher major agrees where its MAJOR_COMPAT allows
major 1; a peer of a lower major does not agree (R411). -/
def helloVersions : Prop := ∀ (cap : Nat) (p : PeerHello),
  (p.major = 0 → versions cap p = none)
    ∧ (2 ≤ p.major.toNat → p.compat.toNat ≤ 1 → ∃ m, m ≤ 3 ∧ versions cap p = some (1, m))
    ∧ (2 ≤ p.major.toNat → 2 ≤ p.compat.toNat → versions cap p = none)
    ∧ (p.major = 1 → ∃ m, versions cap p = some (1, m) ∧ m ≤ 3 ∧ m ≤ p.minorMax.toNat ∧ (cap ≠ 0xFF → m ≤ cap)
        ∧ (p.minorCap ≠ 0xFF → m ≤ p.minorCap.toNat)
        ∧ (m = 3 ∨ m = p.minorMax.toNat ∨ m = cap ∨ m = p.minorCap.toNat))

abbrev Pre.grant (s : State) (l : LinkNo) (p : Peer) : Prop :=
  (s.lnk.links[l].state = .hello ∨ runs s l) ∧ s.linkPeer l = some p
/-- GRANT: the peer grants this much Umbra, and FROZEN freezes all Penumbra held on it (R402). -/
def grant : Prop := ∀ s l arg p, Pre.grant s l p →
  let u := s.setPeer { p with grantHeld := bitsOf arg.toNat 47 0 }
  exec (.grant l arg) s = .next (if arg.getLsbD 63 then u.freezeUnit (.penumbra l) else u)

abbrev Pre.remoteSignal (s : State) (l : LinkNo) (addr : BitVec 48) (arg : BitVec 64) (p : PeerHello) : Prop :=
  runs s l ∧ s.lnk.links[l].peer = some p ∧ (p.pkg, BitVec.ofNat 32 (bitsOf arg.toNat 63 32)) ∉ s.lnk.raised
    ∧ (s.ctrCfg (hubOf (bitsOf addr.toNat 9 8)) (bitsOf addr.toNat 7 0)).getLsbD 30 = true
/-- REMOTE_SIGNAL not raised before, on a counter that takes remote signals: it is held, in place of an earlier copy, and
raises its counter once its marks have landed (R407, R408). -/
def remoteSignal : Prop := ∀ s l addr arg marks p, Pre.remoteSignal s l addr arg p →
  let n := BitVec.ofNat 32 (bitsOf arg.toNat 63 32)
  let x : RxSignal := { pkg := p.pkg, number := n, hub := bitsOf addr.toNat 9 8, ctr := bitsOf addr.toNat 7 0
                        increment := BitVec.ofNat 32 (bitsOf arg.toNat 31 0), marks := marks }
  exec (.remoteSignal l addr arg marks) s = .next (State.raiseSignals { s with lnk := { s.lnk with
    rxSignals := s.lnk.rxSignals.filter (fun y : RxSignal => !(y.pkg == p.pkg && y.number == n)) ++ [x] } })

abbrev Pre.remoteSignalOnce (s : State) (l : LinkNo) (arg : BitVec 64) (p : PeerHello) : Prop :=
  s.lnk.links[l].peer = some p ∧ (p.pkg, BitVec.ofNat 32 (bitsOf arg.toNat 63 32)) ∈ s.lnk.raised
/-- A signal whose number has raised its counter is discarded: no signal raises a counter twice (R407, R408). -/
def remoteSignalOnce : Prop := ∀ s l addr arg marks p, Pre.remoteSignalOnce s l arg p →
  exec (.remoteSignal l addr arg marks) s = .next s

abbrev Pre.signalResend (s : State) (x : TxSignal) (d : BitVec 64) (l0 : LinkNo) : Prop :=
  s.lnk.txSignals.find? (fun y : TxSignal => y.number == x.number) = some x ∧ x.marks = [d] ∧ s.markLives d = false
    ∧ s.bundle x.pkg = [l0]
/-- SIGNAL_RESEND of a signal whose one mark names a session that has ended: the writes of that link go again over the link
left, and the signal after them with a new mark and the same number (R408). -/
def signalResend : Prop := ∀ s x d l0, Pre.signalResend s x d l0 → ∃ u : State,
  u = s.moveWrites (bitsOf d.toNat 7 0) l0
    ∧ exec (.signalResend x.number) s = .next (
      let x' : TxSignal := { x with marks := [u.markOf l0], link := l0.val }
      ({ u with lnk := { u.lnk with
          txSignals := u.lnk.txSignals.map (fun y : TxSignal => if y.number = x.number then x' else y) } }).sendMsg l0 x'.msg)

abbrev Pre.signalTimeout (s : State) (x : TxSignal) (t : Ticket) : Prop :=
  s.lnk.txSignals.find? (fun y : TxSignal => y.number == x.number) = some x ∧ x.since + 100 * msTicks ≤ s.tick
    ∧ x.ticket = some t
/-- SIGNAL_TIMEOUT: a signal not done within 100 ms ends its command with TIER_FAULT (R409). -/
def signalTimeout : Prop := ∀ s x t, Pre.signalTimeout s x t →
  exec (.signalTimeout x.number) s = .next (State.complete { s with lnk := { s.lnk with
    txSignals := s.lnk.txSignals.filter (fun y : TxSignal => y.number ≠ x.number) } } t { status := 0x22 })

abbrev Pre.linkL1Entry (s : State) (l : LinkNo) : Prop :=
  runs s l ∧ 2 ≤ s.lnk.links[l].minor ∧ 0 < s.lnk.links[l].l1Us
    ∧ s.lnk.links[l].l1Us * 156250 ≤ (s.tick - s.lnk.links[l].idleSince) * 1000
    ∧ s.lnk.links[l].queue = [] ∧ s.lnk.links[l].unacked = []
/-- LINK_L1_ENTRY: an idle link sends a frame with POWER set, and waits for its acknowledgement (R416). -/
def linkL1Entry : Prop := ∀ s l, Pre.linkL1Entry s l →
  let k := s.lnk.links[l]
  exec (.linkL1Entry l) s = .next (s.setLink l { k with
    unacked := [{ seq := k.txSeq, msg := none, flits := 0, resends := 0, swap := false, power := true }], txSeq := k.txSeq + 1 })

abbrev Pre.linkL1Wake (s : State) (l : LinkNo) : Prop := s.lnk.links[l].state = .l1
/-- LINK_L1_WAKE: the link is UP on four lanes and REDUCED on three, a new idle period begins, and what waits is sent (R416). -/
def linkL1Wake : Prop := ∀ s l, Pre.linkL1Wake s l →
  let u := (s.linkState l (if s.lnk.links[l].map.length = 4 then .up else .reduced)).linkIdle l
  exec (.linkL1Wake l) s = .next (u.setLink l u.lnk.links[l].pump)

abbrev Pre.linkQuery (s : State) (d : Desc) : Prop := accepts s d (linkQuerySpec d) = true
/-- LINK_QUERY: its RESULT is the number of links, and the records of Table 11-12 follow (R414). -/
def linkQuery : Prop := ∀ s d, Pre.linkQuery s d → ∃ (n : Nat) (x : List Byte),
  x.length = 64 * d.f 133 128
    ∧ exec (.linkQuery d) s = .next (State.complete { s with freeCount := n } d.ticket
        { status := 0, result := BitVec.ofNat 64 (d.f 133 128), xbytes := x })

abbrev Pre.linkSetCap (s : State) (d : Desc) : Prop :=
  accepts s d linkSetCapSpec = true ∧ ∀ l : LinkNo, s.linkReceives l = false
/-- LINK_SET_CAP with no link that carries HELLO: the cap changes, and its RESULT is the cap before (R413). -/
def linkSetCap : Prop := ∀ s d, Pre.linkSetCap s d →
  endsOk (.linkSetCap d) s { s with lnk := { s.lnk with cap := BitVec.ofNat 8 (d.f 143 136) } } d (s.lnk.cap.setWidth 64)

/-- The link an admin command names. -/
def linkOf (d : Desc) : LinkNo := Fin.ofNat 32 (d.f 69 64)

abbrev Pre.linkAdmin (s : State) (d : Desc) : Prop := accepts s d (linkSpec d) = true
/-- LINK_DISABLE: the link leaves its session and is OFF (R415). -/
def linkDisable : Prop := ∀ s d, Pre.linkAdmin s d →
  endsOk (.linkDisable d) s ((s.leaveSession (linkOf d)).linkState (linkOf d) .off) d 0

/-- LINK_ENABLE: an OFF or FAILED link trains, and a QUENCHED one once no quench is in force; any other link stays as it is
(R400). -/
def linkEnable : Prop := ∀ s d, Pre.linkAdmin s d →
  let st := s.lnk.links[linkOf d].state
  endsOk (.linkEnable d) s (if st = .off ∨ st = .failed ∨ (st = .quenched ∧ s.start.quench.state ≠ 2)
    then s.linkTrain (linkOf d) else s) d 0

/-- LINK_RETRAIN: a link that is UP, REDUCED or in L1 retrains; any other answers LINK_DOWN (R400, Table 11-9). -/
def linkRetrain : Prop := ∀ s d, Pre.linkAdmin s d →
  let st := s.lnk.links[linkOf d].state
  exec (.linkRetrain d) s = .next (if st = .up ∨ st = .reduced ∨ st = .l1
    then (s.linkRetrainNow (linkOf d) 2).complete d.ticket { status := 0 } else s.complete d.ticket { status := 0x60 })

/-! ### Collectives (chapter 12) -/

/-- The member table a GROUP_CREATE names: the dimensions, split and members. -/
def tableOk (s : State) (d : Desc) : Bool :=
  let a := d.f 191 128
  let d1 := s.hostNum (a + 8) 2
  let d2 := s.hostNum (a + 10) 2
  !tableBad d1 d2 (s.hostNum (a + 12) 4) (if d1 + d2 ≤ 34 then
    (List.range (d1 * d2)).map (fun i => BitVec.ofNat 64 (s.hostNum (a + 64 + 8 * i) 8)) else [])

abbrev Pre.groupCreate (s : State) (d : Desc) : Prop :=
  accepts s d (groupCreateSpec d) = true ∧ (s.ctx? (d.f 91 80)).isSome = true ∧ tableOk s d = true
    ∧ s.group? (d.f 67 64) = none
/-- GROUP_CREATE with a good member table and a free slot: the group forms, in its slot, with the key, dimensions, split
and members of the table, and takes the formation records that came before it (R418, R419, R421). -/
def groupCreate : Prop := ∀ s d, Pre.groupCreate s d → ∃ g : Group,
  exec (.groupCreate d) s = .next ((State.takeForms { s with groups := s.groups ++ [g] } g).pumpForm g.slot)
    ∧ g.slot = d.f 67 64 ∧ g.state = .forming ∧ g.ctx = d.f 91 80 ∧ g.ticket = some d.ticket ∧ g.since = s.tick
    ∧ g.timeoutMs = (if d.f 111 96 = 0 then 10000 else d.f 111 96)
    ∧ g.d1 = s.hostNum (d.f 191 128 + 8) 2 ∧ g.d2 = s.hostNum (d.f 191 128 + 10) 2
    ∧ g.split = s.hostNum (d.f 191 128 + 12) 4 ∧ g.key.toNat = s.hostNum (d.f 191 128) 8
    ∧ g.members.length = g.d1 * g.d2 ∧ Config.packageId ∈ g.members ∧ g.pkg g.rank = Config.packageId
    ∧ g.colls = [] ∧ g.pend = [] ∧ g.seen = [] ∧ g.openStep = none ∧ g.sealedSteps = []

abbrev Pre.groupDestroy (s : State) (d : Desc) (g : Group) : Prop :=
  accepts s d (groupSpec []) = true ∧ s.group? (d.f 67 64) = some g ∧ g.colls = [] ∧ g.ticket = none
/-- GROUP_DESTROY of a group with nothing running: its pending values are discarded and its slot is free (R423). -/
def groupDestroy : Prop := ∀ s d g, Pre.groupDestroy s d g → ∃ v,
  endsOk (.groupDestroy d) s { s with groups := s.groups.filter (fun x : Group => x.slot ≠ g.slot), freeCount := s.freeCount + 1 } d v

abbrev Pre.groupQuery (s : State) (d : Desc) : Prop := accepts s d groupQuerySpec = true
/-- GROUP_QUERY delivers the slot's record, all zero for a free slot, and changes nothing else (R423). -/
def groupQuery : Prop := ∀ s d, Pre.groupQuery s d → ∃ v,
  exec (.groupQuery d) s = .next (State.complete { s with freeCount := s.freeCount + 1 } d.ticket
    { status := 0, result := v, xbytes := s.groupRecord (d.f 67 64) })

/-- A collective's descriptor is acted on: its formats suit it, its source handle is taken, and its group is READY or FORMING
and has not seen its COLL_SEQ (R425, R426). -/
abbrev collTaken (s : State) (d : Desc) (opcode : Nat) (c : Coll) (g : Group) : Prop :=
  collFormatOk (collOf d opcode d.ticket (s.descCtx d)) = true
    ∧ s.sourceHandle (collOf d opcode d.ticket (s.descCtx d)) = .ok c ∧ s.collGroup (c.f 131 128) c.ctx c.seq = .ok g

abbrev Pre.allReduce (s : State) (d : Desc) (c : Coll) (g : Group) : Prop :=
  accepts s d (slabSpec d true) = true ∧ collTaken s d 0x40 c g
/-- ALL_REDUCE joins its group (R425, R426). -/
def allReduce : Prop := ∀ s d c g, Pre.allReduce s d c g → exec (.allReduce d) s = .next (s.joinColl g c)

abbrev Pre.reduceScatter (s : State) (d : Desc) (c : Coll) (g : Group) : Prop :=
  accepts s d (slabSpec d true) = true ∧ collTaken s d 0x41 c g
/-- REDUCE_SCATTER joins its group (R425, R426). -/
def reduceScatter : Prop := ∀ s d c g, Pre.reduceScatter s d c g → exec (.reduceScatter d) s = .next (s.joinColl g c)

abbrev Pre.allGather (s : State) (d : Desc) (c : Coll) (g : Group) : Prop :=
  accepts s d (slabSpec d false) = true ∧ collTaken s d 0x42 c g
/-- ALL_GATHER joins its group (R425, R426). -/
def allGather : Prop := ∀ s d c g, Pre.allGather s d c g → exec (.allGather d) s = .next (s.joinColl g c)

abbrev Pre.updateSeal (s : State) (d : Desc) (c : Coll) (g : Group) : Prop :=
  accepts s d (updateSealSpec d) = true ∧ collTaken s d 0x45 c g
/-- UPDATE_SEAL joins its group (R425, R426, R447). -/
def updateSeal : Prop := ∀ s d c g, Pre.updateSeal s d c g → exec (.updateSeal d) s = .next (s.joinColl g c)

abbrev Pre.joinColl (s : State) (g : Group) (c : Coll) : Prop :=
  s.shutting = true ∧ c.reads = [] ∧ (g.aborted.any (fun a => a.1 == c.seq)) = false
/-- A collective that joins a group and may not start yet is queued there, its COLL_SEQ is seen, and a REDUCE_UPDATE opens its
step (R426, R446, R615). -/
def joinColl : Prop := ∀ s g c, Pre.joinColl s g c → s.joinColl g c = s.setGroup { g with
  colls := g.colls ++ [c], seen := g.seen ++ [c.seq], openStep := if c.opcode = 0x44 then some c.step else g.openStep }

/-- Collectives start lowest COLL_SEQ first, fewer than 8 at a time, in a READY group, and a seal only once none with a lower
COLL_SEQ is left (R426, R447). -/
def startOrder : Prop := ∀ (g : Group) (c : Coll), g.next = some c →
  c ∈ g.colls ∧ c.started = false ∧ g.state = .ready ∧ (g.colls.filter Coll.started).length < 8
    ∧ (∀ x ∈ g.colls, x.started = false → c.seq ≤ x.seq)
    ∧ (c.opcode = 0x45 → ∀ x ∈ g.colls, c.seq ≤ x.seq)

abbrev Pre.permute (s : State) (d : Desc) (g : Group) (hs : List (Option Handle)) : Prop :=
  accepts s d (permuteSpec d) = true
    ∧ s.collGroup (d.f 131 128) (s.descCtx d) (BitVec.ofNat 32 (d.f 255 224)) = .ok g
    ∧ s.payloadHandles (s.descCtx d) ((List.range 8).map (fun i =>
        bitsOf d.payload.toNat (8 * (8 * i + 8) - 1) (8 * (8 * i)))) = .ok hs
    ∧ ∀ h ∈ hs.filterMap id, h.fate = .stash ∧ h.perms.mutable = true ∧ h.state = .resident ∧ h.mig = none ∧ h.readers = 0
        ∧ (List.range (stripeCount h.shape.size)).all (s.stripeReadable h) = true
        ∧ s.hasPending h.key = false ∧ s.permuting h.key = false
/-- PERMUTE whose handles suit it, and are at rest, joins its group with them (R425, R426, R451). -/
def permute : Prop := ∀ s d g hs, Pre.permute s d g hs → exec (.permute d) s = .next (s.joinColl g
  { collOf d 0x43 d.ticket (s.descCtx d) with
    handles := hs.map (fun h => h.map Handle.key), reads := (hs.filterMap id).map Handle.key
    src := hs.map (fun h => (h.map Handle.content).getD []) })

abbrev Pre.reduceUpdate (s : State) (d : Desc) (c : Coll) (g : Group) (hs : List (Option Handle)) : Prop :=
  accepts s d (reduceUpdateSpec d) = true ∧ collTaken s d 0x44 c g
    ∧ (g.openStep = none ∨ g.openStep = some c.step) ∧ c.step ∉ g.sealedSteps
    ∧ s.payloadHandles c.ctx [c.p 0 8, c.p 8 8, c.p 16 8] = .ok hs ∧ s.updateMisfit c hs = none
    ∧ ((hs.filterMap id).any (fun h : Handle => h.mig.isSome || s.permuting h.key)) = false
/-- REDUCE_UPDATE whose handles suit it joins its group with them (R425, R439, R446). -/
def reduceUpdate : Prop := ∀ s d c g hs, Pre.reduceUpdate s d c g hs →
  let l := hs.filterMap id
  exec (.reduceUpdate d) s = .next (s.joinColl g { c with
    handles := hs.map (fun h => h.map Handle.key), reads := c.reads ++ l.map Handle.key, src := c.src ++ l.map Handle.content
    resultPoison := (l.flatMap (fun h : Handle => poisonSlabs 2 c.slabs (s.objectPoison h))).dedup })

abbrev Pre.reduceUpdateStep (s : State) (d : Desc) (c : Coll) (g : Group) : Prop :=
  accepts s d (reduceUpdateSpec d) = true ∧ collTaken s d 0x44 c g
    ∧ ((∃ x, g.openStep = some x ∧ x ≠ c.step) ∨ c.step ∈ g.sealedSteps)
/-- REDUCE_UPDATE of another step than the open one, or of a sealed one, ends with STEP_CLOSED, and its own step will report
FAILED (R446, R447). -/
def reduceUpdateStep : Prop := ∀ s d c g, Pre.reduceUpdateStep s d c g →
  exec (.reduceUpdate d) s = .next ((s.setGroup { g with pend := g.pend ++ [failedUpdate c.seq c.step] }).complete d.ticket { status := 0x79 })

/-- The total of a slab: its line partials are summed in rank order along the second dimension, scaled by 2^SCALE and rounded
once to OUT_FORMAT (R431, R433); with FP8 sources the sum is exact. -/
def slabTotal : Prop := ∀ (s : State) (g : Group) (c : Coll) (j : Nat) (ls : List (List Nat)) (poison : Bool),
  let x := g.slab c.slabs j
  g.owner x = g.rank → j ∉ c.totals →
  c.heldAll 1 j ((List.range (g.dims x.partA).2).map (fun b => g.at_ x.partA x.o1 b)) = some (ls, poison) →
  let rs := (List.range (c.slabElems j).length).map (fun i => roundVal (fmtOf c.outFmt)
    (vScale (toSigned 8 (c.f 159 152)) (foldSum c.fp8 (ls.map (fun l => partVal c.fp8 (l.getD i 0))))) none)
  let y : Coll := { c with totals := c.totals ++ [j], flags := c.flags ||| flagsOf rs }
  s.total g c j = (s.setColl g.slot y).sendResult g y j (rs.map Rounded.bits) poison

/-- A sum runs in the order of its list: from the first value on, each is added with rounding to FP32; with FP8 sources it is
exact (R431). -/
def sumOrder : Prop := ∀ (v w : Val) (vs : List Val),
  foldSum false [] = vZero ∧ foldSum false [v] = v
    ∧ foldSum false (v :: w :: vs) = foldSum false (rn32 (vAdd v w) :: vs)
    ∧ foldSum true (v :: w :: vs) = foldSum true (vAdd v w :: vs)

abbrev Pre.collMsg (s : State) (l : LinkNo) (m : CollMsg) (g : Group) (r : Nat) : Prop :=
  runs s l ∧ s.sender l m = some (g, r) ∧ g.state ≠ .broken

abbrev Pre.collData (s : State) (l : LinkNo) (m : CollMsg) (g : Group) (r : Nat) : Prop :=
  Pre.collMsg s l m g r ∧ m.kind.toNat ≤ 5
/-- COLL_DATA from a line peer is taken by its group, and what may start then starts (R438). -/
def collData : Prop := ∀ s l m g r, Pre.collData s l m g r →
  exec (.collData l m) s = .next ((s.collTake g.slot { rank := r, msg := m, record := none }).pumpColls g.slot)

abbrev Pre.collSeal (s : State) (l : LinkNo) (m : CollMsg) (g : Group) (r : Nat) : Prop :=
  Pre.collMsg s l m g r ∧ (m.kind = 6 ∨ m.kind = 7)
/-- COLL_SEAL from a line peer is taken by its group (R438, R447, R454). -/
def collSeal : Prop := ∀ s l m x g r, Pre.collSeal s l m g r →
  exec (.collSeal l m x) s = .next ((s.collTake g.slot { rank := r, msg := m, record := some x }).pumpColls g.slot)

abbrev Pre.collTake (s : State) (slot : Nat) (e : EarlyMsg) (g : Group) (c : Coll) : Prop :=
  s.group? slot = some g ∧ g.colls.find? (fun x : Coll => x.seq == e.msg.seq) = some c ∧ c.started = true
/-- A message of a collective that has started: another PARAM_CHK aborts it with COLL_MISMATCH, else the message is acted on
(R427). -/
def collTake : Prop := ∀ s slot e g c, Pre.collTake s slot e g c →
  s.collTake slot e = if e.msg.chk ≠ c.chk then s.abortColl slot c.seq 0x76 else match e.record with
    | some r => s.collRecord g c e.rank e.msg r
    | none => s.collData g c e.rank e.msg

abbrev Pre.collForm (s : State) (l : LinkNo) (m : CollMsg) (pkg : BitVec 64) (g : Group) (k : Nat) : Prop :=
  runs s l ∧ s.bundlePeer l = some pkg ∧ s.group? m.group.val = some g ∧ g.state = .forming
    ∧ g.rankOf? pkg = some k ∧ k ∈ g.linePeers ∧ m.kind = 8
/-- COLL_FORM of round 1 from a line peer of a forming group: the record is held under the sender's rank, in place of an
earlier one, and formation goes on (R421). -/
def collForm : Prop := ∀ s l m r pkg g k, Pre.collForm s l m pkg g k →
  exec (.collForm l m r) s = .next ((s.setGroup { g with
    round1 := g.round1.filter (fun x : FormRecord => x.rank ≠ k) ++ [{ r with rank := k }] }).pumpForm g.slot)

abbrev Pre.collAbort (s : State) (l : LinkNo) (m : CollMsg) (g : Group) (r : Nat) : Prop :=
  runs s l ∧ m.kind = 10 ∧ s.sender l m = some (g, r)
/-- COLL_ABORT: MEMBER_LOST breaks the group; any other reason ends the collective it names (R424, R427). -/
def collAbort : Prop := ∀ s l m g r, Pre.collAbort s l m g r →
  exec (.collAbort l m) s = .next (if m.reason = 0x77 then s.breakGroup g.slot
    else (s.abortColl g.slot m.seq m.reason).pumpColls g.slot)

abbrev Pre.formationTimeout (s : State) (k : Fin 16) (g : Group) (t : Ticket) : Prop :=
  s.group? k.val = some g ∧ g.state = .forming ∧ g.since + g.timeoutMs * msTicks ≤ s.tick
    ∧ g.colls = [] ∧ g.ticket = some t
/-- FORMATION_TIMEOUT: the slot is free, and GROUP_CREATE ends with PEER_UNREACHABLE where a line peer has no link up and
FORM_TIMEOUT else (Table 12-2). -/
def formationTimeout : Prop := ∀ s k g t, Pre.formationTimeout s k g t →
  exec (.formationTimeout k) s = .next (State.complete { s with groups := s.groups.filter (fun x : Group => x.slot ≠ g.slot) } t
    { status := if ∃ r ∈ g.linePeers, s.bundle (g.pkg r) = [] then 0x71 else 0x73 })

abbrev Pre.groupBroken (s : State) (k : Fin 16) (g : Group) : Prop :=
  s.group? k.val = some g ∧ g.state = .ready ∧ ∃ r ∈ g.linePeers, s.peerLost g r = true
/-- GROUP_BROKEN of a READY group that has lost a line peer: the group is BROKEN, its collectives end with MEMBER_LOST, the
loss is told along both lines, and its barrier slots enter FAULT (R424, R457, R483). -/
def groupBroken : Prop := ∀ s k g, Pre.groupBroken s k g →
  let u := s.setGroup { g with state := .broken, early := [] }
  let v := g.colls.foldl (fun (w : State) (c : Coll) => w.failColl g.slot c 0x77) u
  exec (.groupBroken k) s = .next ((v.sendAbort g 0 0x77).barsBroken g.slot)

abbrev Pre.sealDecide (s : State) (k : Fin 16) (g : Group) (c : Coll) : Prop :=
  s.group? k.val = some g ∧ g.colls.find? (fun x : Coll => x.started && x.opcode == 0x45) = some c
    ∧ g.d1 * g.d2 ≤ c.seals.length
/-- SEAL_DECIDE with every member's record: the step commits where no member reports NF or FAILED and all agree on count and
digest, and its RESULT counts the updates; else it is skipped with STEP_SKIPPED (R447 to R449). -/
def sealDecide : Prop := ∀ s k g c, Pre.sealDecide s k g c →
  let first := c.seals.headD { rank := 0, nf := false, failed := false, count := 0, digests := 0 }
  let agree := ∀ r ∈ c.seals, r.nf = false ∧ r.failed = false ∧ r.count = first.count ∧ r.digests = first.digests
  let done := (g.pend.filter (fun p : PendUpdate => p.step == c.step && p.w.isSome)).length
  (agree → exec (.sealDecide k) s = .next ((((s.commitStep g c.step).closeStep g.slot c).complete c.ticket
      { status := 0, result := BitVec.ofNat 64 done }).pumpColls g.slot))
    ∧ (¬ agree → exec (.sealDecide k) s = .next ((s.skipStep g c 0x78).pumpColls g.slot))

abbrev Pre.sealTimeout (s : State) (k : Fin 16) (g : Group) (c : Coll) : Prop :=
  s.group? k.val = some g ∧ g.colls.find? (fun x : Coll => x.started && x.opcode == 0x45) = some c
    ∧ c.seals.length < g.d1 * g.d2 ∧ c.since + c.f 151 136 * msTicks ≤ s.tick
/-- SEAL_TIMEOUT: a seal without every record skips with MEMBER_LOST, and the group breaks (R450). -/
def sealTimeout : Prop := ∀ s k g c, Pre.sealTimeout s k g c →
  exec (.sealTimeout k) s = .next ((s.skipStep g c 0x77).breakGroup g.slot)


/-! ### The vault (chapter 14) -/

/-- A tag of a link holds a request with an operation. -/
abbrev asked (s : State) (l : LinkNo) (tag : Fin 16) (q : VaultReq) (op : Nat) : Prop :=
  s.vaultReq? l tag.val = some q ∧ q.op = op

/-- The image a creator asks for. -/
def newImage (s : State) (l : LinkNo) (q : VaultReq) (slot : Nat) : Image :=
  { slot := slot, state := .writing, kind := q.kind, key := q.key, rank := q.rank, ckptNo := q.ckptNo, frames := q.frames
    incomplete := false, orphan := false, poison := [], creator := s.linkPkg l, lastBlock := s.tick, order := 0, data := [] }

abbrev Pre.vaultCreate (s : State) (l : LinkNo) (tag : Fin 16) (q : VaultReq) (p : Peer) (slot : Nat) : Prop :=
  asked s l tag q 1
    ∧ (∀ i ∈ s.vault.images, ¬ (i.kind = q.kind ∧ i.key = q.key ∧ i.rank = q.rank ∧ i.ckptNo = q.ckptNo))
    ∧ (List.range 256).find? (fun n => (s.image? n).isNone) = some slot
    ∧ s.peer? (s.linkPkg l) = some p ∧ (s.grantUsed p + q.frames) * 2097152 ≤ p.grantGiven
/-- VAULT_CREATE: the lowest FREE slot holds a WRITING image of the frames asked for, within the grant, and the slot is the
answer (R491, R492, R500). -/
def vaultCreate : Prop := ∀ s l tag q p slot, Pre.vaultCreate s l tag q p slot →
  exec (.vaultCreate l tag) s = .next (State.vaultAnswer { s with vault := { s.vault with
    images := s.vault.images ++ [newImage s l q slot] } } l tag.val 0 (some slot) [])

abbrev Pre.vaultCreateTwice (s : State) (l : LinkNo) (tag : Fin 16) (q : VaultReq) (i : Image) : Prop :=
  asked s l tag q 1 ∧ i ∈ s.vault.images ∧ i.kind = q.kind ∧ i.key = q.key ∧ i.rank = q.rank ∧ i.ckptNo = q.ckptNo
/-- VAULT_CREATE of an image that exists answers IMAGE_EXISTS (R492). -/
def vaultCreateTwice : Prop := ∀ s l tag q i, Pre.vaultCreateTwice s l tag q i →
  exec (.vaultCreate l tag) s = .next (s.vaultAnswer l tag.val 0x81 none [])

/-- The image in the slot a request names is the WRITING one it describes. -/
abbrev writing (s : State) (q : VaultReq) (i : Image) : Prop :=
  s.image? q.slot = some i ∧ i.state = .writing ∧ i.kind = q.kind ∧ i.key = q.key ∧ i.rank = q.rank ∧ i.ckptNo = q.ckptNo

abbrev Pre.vaultSeal (s : State) (l : LinkNo) (tag : Fin 16) (q : VaultReq) (i : Image) : Prop :=
  asked s l tag q 2 ∧ writing s q i ∧ q.retain = 0
/-- VAULT_SEAL, with no RETAIN: a WRITING image whose manifest checks is SEALED, INCOMPLETE where it holds poison or its
manifest says so; one whose manifest fails answers CHECK_FAILED and stays as it is (R500). -/
def vaultSeal : Prop := ∀ s l tag q i, Pre.vaultSeal s l tag q i →
  let j : Image := { i with
    state := .sealed, incomplete := i.incomplete || bitOf (bytesNat i.data 7 1) 0 || !i.poison.isEmpty, order := s.vault.order }
  let u : State := { s with vault := { s.vault with
    images := s.vault.images.map (fun x => if x.slot = i.slot then j else x), order := s.vault.order + 1 } }
  exec (.vaultSeal l tag) s = .next (
    if manifestOk i.data then u.vaultAnswer l tag.val 0 (some q.slot) []
    else s.vaultAnswer l tag.val 0x21 (some q.slot) [])

/-- An image's slot is FREE again. -/
def without (s : State) (slot : Nat) : State :=
  { s with vault := { s.vault with images := s.vault.images.filter (fun x => x.slot ≠ slot) } }

abbrev Pre.vaultDrop (s : State) (l : LinkNo) (tag : Fin 16) (q : VaultReq) (i : Image) : Prop :=
  asked s l tag q 3 ∧ s.vault.images = [i] ∧ i.kind = q.kind ∧ i.key = q.key ∧ i.rank = q.rank ∧ i.ckptNo = q.ckptNo
/-- VAULT_DROP releases the image of the key and rank where it is SEALED, or WRITING and asked for by its creator; else no
image answers it (R500). -/
def vaultDrop : Prop := ∀ s l tag q i, Pre.vaultDrop s l tag q i →
  exec (.vaultDrop l tag) s = .next (
    if i.state = .sealed ∨ i.creator = s.linkPkg l then (without s i.slot).vaultAnswer l tag.val 0 (some i.slot) []
    else s.vaultAnswer l tag.val 0x82 none [])

abbrev Pre.vaultList (s : State) (l : LinkNo) (tag : Fin 16) (q : VaultReq) : Prop := asked s l tag q 4
/-- VAULT_LIST answers with the records of the slots that hold an image of the kind and key, and of the rank unless it is
0xFFFF, in slot order, 126 at most (R499, R500). -/
def vaultList : Prop := ∀ s l tag q, Pre.vaultList s l tag q →
  let hit (n : Nat) : Bool := ((s.image? n).map (fun i : Image =>
    i.kind == q.kind && i.key == q.key && (q.rank == 0xFFFF || i.rank == q.rank))).getD false
  exec (.vaultList l tag) s = .next (s.vaultAnswer l tag.val 0 none ((((List.range 256).filter hit).take 126).map s.dirRecord))

abbrev Pre.vaultStatus (s : State) (l : LinkNo) (tag : Fin 16) (q : VaultReq) : Prop := asked s l tag q 5
/-- VAULT_STATUS answers with the slot's record (R500). -/
def vaultStatus : Prop := ∀ s l tag q, Pre.vaultStatus s l tag q →
  exec (.vaultStatus l tag) s = .next (s.vaultAnswer l tag.val 0 (some q.slot) [s.dirRecord q.slot])

/-- An answer to a request: its tag's result block begins with the status, the slot and the number of records, the records
follow, and the request is gone; nothing else changes but the free value of a slot not named (R499). -/
def vaultAnswer : Prop := ∀ (s : State) (l : LinkNo) (tag status slot : Nat) (rs : List (List Byte)), ∃ b : List Byte,
  b.take 4 = leBytes 1 status ++ leBytes 1 (slot % 256) ++ leBytes 2 rs.length ∧ (b.drop 64).take rs.flatten.length = rs.flatten
    ∧ s.vaultAnswer l tag status (some slot) rs = { s with vault := { s.vault with
        requests := s.vault.requests.filter (fun e => e.1 ≠ (l.val, tag))
        results := s.vault.results.filter (fun e => e.1 ≠ (l.val, tag)) ++ [((l.val, tag), b)] } }

abbrev Pre.writingImageExpiry (s : State) (n : Fin 256) (i : Image) : Prop := s.image? n.val = some i
/-- WRITING_IMAGE_EXPIRY releases a WRITING image that has received no block for 10 s, and no other (R501). -/
def writingImageExpiry : Prop := ∀ s n i, Pre.writingImageExpiry s n i →
  exec (.writingImageExpiry n) s = .next (
    if i.state = .writing ∧ i.lastBlock + 10000 * msTicks ≤ s.tick then without s n.val else s)

abbrev Pre.vaultQuery (s : State) (d : Desc) : Prop := accepts s d (vaultQuerySpec d) = true
/-- VAULT_QUERY delivers the records of COUNT slots from SLOT on, 256 for COUNT 0 (Table 14-1). -/
def vaultQuery : Prop := ∀ s d, Pre.vaultQuery s d → ∃ v,
  exec (.vaultQuery d) s = .next (State.complete { s with freeCount := s.freeCount + 1 } d.ticket
    { status := 0, result := v, xbytes := (List.range (if d.f 79 72 = 0 then 256 else d.f 79 72)).flatMap
        (fun i => s.dirRecord (d.f 71 64 + i)) })

abbrev Pre.vaultRelease (s : State) (d : Desc) (i : Image) : Prop :=
  accepts s d vaultReleaseSpec = true ∧ s.image? (d.f 71 64) = some i
/-- VAULT_RELEASE: the image in SLOT is released (R502). -/
def vaultRelease : Prop := ∀ s d i, Pre.vaultRelease s d i → ∃ v,
  endsOk (.vaultRelease d) s { without s (d.f 71 64) with freeCount := s.freeCount + 1 } d v

abbrev Pre.ckptBind (s : State) (d : Desc) (c : Ctx) : Prop :=
  accepts s d ckptBindSpec = true ∧ s.ctx? (d.f 91 80) = some c
/-- CKPT_BIND gives the context its checkpoint key and rank (R490). -/
def ckptBind : Prop := ∀ s d c, Pre.ckptBind s d c → ∃ v,
  endsOk (.ckptBind d) s { s.setCtx { c with binding := some (BitVec.ofNat 64 (d.f 191 128), BitVec.ofNat 32 (d.f 79 64)) } with
    freeCount := s.freeCount + 1 } d v

/-! ### Penumbra requests served -/

abbrev Pre.pnRd (s : State) (l : LinkNo) (m : PnMsg) (p : Peer) : Prop :=
  runs s l ∧ m.addr.getLsbD 47 = false ∧ s.peer? (s.linkPkg l) = some p
    ∧ s.frameOut p (m.addr.toNat / 2097152) = false
    ∧ s.frameOut p ((m.addr.toNat + m.lenM1.toNat) / 2097152) = false ∧ p.poison = []
/-- PN_RD of a peer's window: within the grant it is answered with the bytes there, beyond it with NO_GRANT (R403). -/
def pnRd : Prop := ∀ s l m p, Pre.pnRd s l m p →
  let n := m.lenM1.toNat + 1
  exec (.pnRd l m) s = .next (s.sendMsg l (
    if m.addr.toNat + n ≤ p.grantGiven then
      answerMsg false m.tag 0 false (min 6 m.prio.toNat) 0 ((List.range n).map (fun i => tabGet 0 p.window (m.addr.toNat + i)))
    else answerMsg false m.tag 2 false (min 6 m.prio.toNat) 0 []))

abbrev Pre.pnRdImage (s : State) (l : LinkNo) (m : PnMsg) (i : Image) : Prop :=
  runs s l ∧ m.addr.getLsbD 47 = true ∧ bitsOf m.addr.toNat 46 44 = 2 ∧ s.image? (bitsOf m.addr.toNat 43 36) = some i
/-- PN_RD of an image in the vault: of a SEALED one its bytes and their poison, of any other, or beyond its frames, ERROR (R499,
Table 14-8). -/
def pnRdImage : Prop := ∀ s l m i, Pre.pnRdImage s l m i →
  let off := bitsOf m.addr.toNat 35 0
  let n := m.lenM1.toNat + 1
  exec (.pnRd l m) s = .next (s.sendMsg l (
    if i.state = .sealed ∧ off + n ≤ i.frames * 2097152 then
      answerMsg false m.tag 0 (i.poison.any (fun b => decide (b * 4096 < off + n ∧ off < b * 4096 + 4096)))
        (min 6 m.prio.toNat) 0 ((List.range n).map (fun j => tabGet 0 i.data (off + j)))
    else answerMsg false m.tag 1 false (min 6 m.prio.toNat) 0 []))

/-- A PN_WR whose block checks. -/
abbrev blockOk (s : State) (l : LinkNo) (m : PnMsg) : Prop :=
  runs s l ∧ (m.poison = true ∨ crc32c m.data = m.bcrc) ∧ m.addr.toNat % 4096 = 0

abbrev Pre.pnWr (s : State) (l : LinkNo) (m : PnMsg) (p : Peer) (k : Nat) : Prop :=
  blockOk s l m ∧ m.addr.getLsbD 47 = false ∧ s.peer? (s.linkPkg l) = some p
    ∧ m.addr.toNat + 4096 ≤ p.grantGiven ∧ m.addr.toNat / 2097152 ∈ p.frames
    ∧ p.stackOf (m.addr.toNat / 2097152) = some k ∧ s.windowFrozen p = false
    ∧ s.units.stack[Fin.ofNat 8 k] ≠ .out
/-- PN_WR into a mapped frame of a peer's window: the block is written with its poison mark, the write is acknowledged with
the check value as committed, and its WSEQ has landed (R391, R402, R403, R407). -/
def pnWr : Prop := ∀ s l m p k, Pre.pnWr s l m p k →
  let a := m.addr.toNat
  exec (.pnWr l m) s = .next (((s.setPeer { p with
    window := tabPaste p.window a 4096 (natTab 4096 (leValue m.data))
    poison := p.poison.filter (fun b => b ≠ a / 4096) ++ (if m.poison then [a / 4096] else []) }).sendMsg l
      (answerMsg true m.tag 0 m.poison (min 6 m.prio.toNat) ((crc32c m.data).setWidth 64) [])).land l m.wseq)

abbrev Pre.pnWrBad (s : State) (l : LinkNo) (m : PnMsg) : Prop := runs s l ∧ m.poison = false ∧ crc32c m.data ≠ m.bcrc
/-- PN_WR whose check value does not match is answered with ERROR and stores nothing (R391). -/
def pnWrBad : Prop := ∀ s l m, Pre.pnWrBad s l m →
  exec (.pnWr l m) s = .next (s.sendMsg l (answerMsg true m.tag 1 false (min 6 m.prio.toNat) 0 []))

abbrev Pre.pnWrRequest (s : State) (l : LinkNo) (m : PnMsg) : Prop :=
  blockOk s l m ∧ m.addr.getLsbD 47 = true ∧ bitsOf m.addr.toNat 46 44 = 0
/-- PN_WR of a request block: its tag of the link holds the request, and its result is no longer there (R499, Table 14-8). -/
def pnWrRequest : Prop := ∀ s l m, Pre.pnWrRequest s l m →
  let key := (l.val, bitsOf m.addr.toNat 15 12)
  exec (.pnWr l m) s = .next ((State.sendMsg { s with vault := { s.vault with
    requests := s.vault.requests.filter (fun e => e.1 ≠ key) ++ [(key, vaultReqOf m.data)]
    results := s.vault.results.filter (fun e => e.1 ≠ key) } } l
      (answerMsg true m.tag 0 m.poison (min 6 m.prio.toNat) ((crc32c m.data).setWidth 64) [])).land l m.wseq)

/-! ### Commands that work at a holder -/

/-- A command of chapter 14 reaches its holder: its context is bound to a key and rank, the links are in service, LINK's bundle
is up and has a request tag free (R315, R490, R499). -/
abbrev atHolder (s : State) (d : Desc) (key : BitVec 64) (rank : BitVec 16) (pkg : BitVec 64) (tag : Nat) : Prop :=
  s.bound (s.descCtx d) = some (key, rank) ∧ s.start.links = true ∧ s.bundlePeer (Fin.ofNat 32 (d.f 69 64)) = some pkg
    ∧ s.freeTag (d.f 69 64) = some tag

/-- The rank a command names, 0xFFFF meaning the bound one (Table 14-2). -/
def named (d : Desc) (rank : BitVec 16) : BitVec 16 := if d.f 175 160 = 0xFFFF then rank else BitVec.ofNat 16 (d.f 175 160)

abbrev Pre.ckptRestore (s : State) (d : Desc) (key : BitVec 64) (rank : BitVec 16) (pkg : BitVec 64) (tag : Nat) : Prop :=
  accepts s d (ckptRestoreSpec d) = true ∧ atHolder s d key rank pkg tag
/-- CKPT_RESTORE asks the holder for the records of its key and rank (R492, R505). -/
def ckptRestore : Prop := ∀ s d key rank pkg tag, Pre.ckptRestore s d key rank pkg tag →
  exec (.ckptRestore d) s = .next (s.beginOp (opOf d d.ticket (s.descCtx d) 0x52 pkg tag
    { op := 4, kind := 0, retain := 0, rank := named d rank, key := key, ckptNo := BitVec.ofNat 32 (d.f 319 288), frames := 0
      slot := 0 }))

abbrev Pre.ckptDrop (s : State) (d : Desc) (key : BitVec 64) (rank : BitVec 16) (pkg : BitVec 64) (tag : Nat) : Prop :=
  accepts s d (ckptDropSpec d) = true ∧ atHolder s d key rank pkg tag
/-- CKPT_DROP asks the holder to drop the image (R500). -/
def ckptDrop : Prop := ∀ s d key rank pkg tag, Pre.ckptDrop s d key rank pkg tag →
  exec (.ckptDrop d) s = .next (s.beginOp (opOf d d.ticket (s.descCtx d) 0x53 pkg tag
    { op := 3, kind := 0, retain := 0, rank := named d rank, key := key, ckptNo := BitVec.ofNat 32 (d.f 319 288), frames := 0
      slot := 0 }))

abbrev Pre.ckptList (s : State) (d : Desc) (key : BitVec 64) (rank : BitVec 16) (pkg : BitVec 64) (tag : Nat) : Prop :=
  accepts s d (ckptListSpec d) = true ∧ atHolder s d key rank pkg tag
/-- CKPT_LIST asks the holder for the records of its key and rank (R500). -/
def ckptList : Prop := ∀ s d key rank pkg tag, Pre.ckptList s d key rank pkg tag →
  exec (.ckptList d) s = .next (s.beginOp (opOf d d.ticket (s.descCtx d) 0x54 pkg tag
    { op := 4, kind := 0, retain := 0, rank := named d rank, key := key, ckptNo := 0, frames := 0, slot := 0 }))

/-- Handles that can be captured whole at a minor (R493, R509). -/
abbrev capturable (s : State) (minor : Nat) (hs : List Handle) : Prop :=
  (∀ h ∈ hs, captureBad minor h = none ∧ (List.range (stripeCount h.shape.size)).all (s.stripeReadable h) = true)
    ∧ (hs.map (fun h => stripeCount h.shape.size)).sum ≤ 131072

/-- CHECKPOINT and SNAPSHOT_SEND acting: the listed handles' image is made as they stand, each gains a reader, and CREATE with
the image's frames is asked of the holder (R493 to R497). -/
def captures (s : State) (d : Desc) (kind : Nat) (key : BitVec 64) (rank : BitVec 16) (pkg : BitVec 64) (tag : Nat)
    (hs : List Handle) (t : State) : Prop :=
  ∃ (o : RemoteOp) (c : Capture),
    let minor := if d.f 143 136 = 0xFF then 1 else d.f 143 136
    c.kind = kind ∧ c.key = key ∧ c.rank = rank ∧ c.ckptNo = BitVec.ofNat 32 (d.f 319 288)
      ∧ c.step = BitVec.ofNat 32 (d.f 287 256) ∧ c.minor = minor ∧ c.press = (d.f 73 73 == 1)
      ∧ o.req = { op := 1, kind := kind, retain := d.f 147 144, rank := rank, key := key, ckptNo := c.ckptNo
                  frames := 1 + (hs.map (fun h => stripeCount h.shape.size)).sum, slot := 0 }
      ∧ o.ticket = some d.ticket ∧ o.pkg = pkg ∧ o.vtag = tag ∧ o.vlink = d.f 69 64 ∧ o.readers = hs.map Handle.key
      ∧ (o.image, o.imagePoison, o.blocks) = s.buildImage c hs
      ∧ o.status = (if hs.all (fun h => (s.objectPoison h).isEmpty) then 0 else 0x20)
      ∧ t = State.beginOp { s with hs := { s.hs with list := s.hs.list.map (fun h : Handle =>
          { h with readers := h.readers + (o.readers.filter (fun x => x == h.key)).length }) } } o

abbrev Pre.checkpoint (s : State) (d : Desc) (key : BitVec 64) (rank : BitVec 16) (pkg : BitVec 64) (tag : Nat)
    (hs : List Handle) : Prop :=
  accepts s d (captureSpec d false) = true ∧ atHolder s d key rank pkg tag
    ∧ s.listed (s.descCtx d) (d.f 447 384) (d.f 159 148) = .ok hs
    ∧ capturable s (if d.f 143 136 = 0xFF then 1 else d.f 143 136) hs
/-- CHECKPOINT captures the listed handles under the bound key (R493 to R497). -/
def checkpoint : Prop := ∀ s d key rank pkg tag hs, Pre.checkpoint s d key rank pkg tag hs →
  ∃ t, exec (.checkpoint d) s = .next t ∧ captures s d 0 key rank pkg tag hs t

abbrev Pre.snapshotSend (s : State) (d : Desc) (key : BitVec 64) (rank : BitVec 16) (pkg : BitVec 64) (tag : Nat)
    (hs : List Handle) : Prop :=
  accepts s d (captureSpec d true) = true ∧ atHolder s d key rank pkg tag
    ∧ s.listed (s.descCtx d) (d.f 447 384) (d.f 159 148) = .ok hs
    ∧ capturable s (if d.f 143 136 = 0xFF then 1 else d.f 143 136) hs
/-- SNAPSHOT_SEND captures the listed handles as kind 1 under DEST_KEY (Table 14-1). -/
def snapshotSend : Prop := ∀ s d key rank pkg tag hs, Pre.snapshotSend s d key rank pkg tag hs →
  ∃ t, exec (.snapshotSend d) s = .next t ∧ captures s d 1 (BitVec.ofNat 64 (d.f 383 320)) rank pkg tag hs t

/-- The bytes a SNAPSHOT_READ names in a segment: its offset and its length, 0 meaning to the end. -/
def readLen (d : Desc) (g : Segment) : Nat := if d.f 215 176 = 0 then g.size - d.f 255 216 else d.f 215 176

abbrev Pre.snapshotRead (s : State) (d : Desc) (key : BitVec 64) (i : Image) (g : Segment) (data : Tab Byte)
    (poison : List Nat) (fr : List (Nat × List (List Byte))) : Prop :=
  accepts s d (snapshotReadSpec d) = true ∧ (s.bound (s.descCtx d)).map Prod.fst = some key
    ∧ s.image? (d.f 135 128) = some i ∧ i.kind = 1 ∧ i.key = key ∧ i.state = .sealed
    ∧ (imgSegments i.data).find? (fun g => g.obj == d.f 359 320) = some g
    ∧ d.f 255 216 < g.size ∧ d.f 255 216 + readLen d g ≤ g.size
    ∧ segmentBack i.data i.poison g = some (data, poison, fr)
/-- SNAPSHOT_READ of a SEALED snapshot of the bound key delivers the bytes asked for, with their poison, and answers their
digest, or POISON (R508). -/
def snapshotRead : Prop := ∀ s d key i g data poison fr, Pre.snapshotRead s d key i g data poison fr →
  let off := d.f 255 216
  let len := readLen d g
  let bad := poison.filter (fun b => off / 4096 ≤ b && b * 4096 < off + len)
  ∃ ks, exec (.snapshotRead d) s = .next ((s.deliverBytes false false g.format g.size off len (d.f 447 384) data bad).completeVia
    d.ticket ks (if bad = [] then { status := 0, result := digestRange data off len } else { status := 0x20, result := 0 }))

abbrev Pre.ownImagePoll (s : State) (hub : Hub) : Prop := ∀ w ∈ s.vault.own, w.reported = true ∨ s.bundle w.pkg = []
/-- OWN_IMAGE_POLL with no image to ask after, every one reported or its bundle down, changes nothing (R504). -/
def ownImagePoll : Prop := ∀ s hub, Pre.ownImagePoll s hub → exec (.ownImagePoll hub) s = .next s

abbrev Pre.ownImageAsked (s : State) (w : OwnImage) (l : LinkNo) (tag : Nat) : Prop :=
  s.vault.own = [w] ∧ w.reported = false ∧ (s.bundle w.pkg).head? = some l ∧ s.freeTag l.val = some tag
/-- OWN_IMAGE_POLL asks after an image not reported on the first link of its holder's bundle, at that link's hub (R504). -/
def ownImageAsked : Prop := ∀ s w l tag, Pre.ownImageAsked s w l tag → ∃ o : RemoteOp,
  exec (.ownImagePoll (linkHub l)) s = .next (s.beginOp o)
    ∧ o.req = { op := 5, kind := 0, retain := 0, rank := 0, key := 0, ckptNo := w.ckptNo, frames := 0, slot := w.slot }
    ∧ o.pkg = w.pkg ∧ o.vlink = l.val ∧ o.vtag = tag ∧ o.ticket = none

/-- An operation at a holder begins: its request block goes out on its link, under the tag of the operation (R499). -/
def beginOp : Prop := ∀ (s : State) (o : RemoteOp),
  let tag := s.lnk.nextTag
  let p : RemoteOp := { o with id := s.vault.nextOp }
  let u : State := { s with vault := { s.vault with nextOp := s.vault.nextOp + 1, ops := s.vault.ops ++ [p] } }
  s.beginOp o = (u.sendReq { tag := tag, link := o.vlink, write := true, addr := BitVec.ofNat 48 (2 ^ 47 + o.vtag * 4096)
                             len := 4096, prio := o.prio, poison := false, data := o.req.bytes ++ List.replicate 4064 0
                             since := s.tick, op := p.id, again := false }).setOp
      { p with phase := .ask, outstanding := o.outstanding ++ [tag] }

/-! ### Answers of peers -/

abbrev Pre.pnRdData (s : State) (l : LinkNo) (m : PnReply) (q : PnReq) : Prop :=
  s.req? l m.tag false = some q ∧ (m.status = 0 → m.block = true → m.poison = false → crc32c m.data = m.bcrc)
/-- PN_RD_DATA whose block checks answers the request of its tag: what asked gets the bytes, or fails with the STATUS
(R391, R403, R404). -/
def pnRdData : Prop := ∀ s l m q, Pre.pnRdData s l m q →
  exec (.pnRdData l m) s = .next (if m.status = 0 then (s.dropReq q).reqEnds q m.data m.poison false
    else (s.dropReq q).reqFails q m.status.toNat)

abbrev Pre.pnWrAck (s : State) (l : LinkNo) (m : PnReply) (q : PnReq) : Prop :=
  s.req? l m.tag true = some q
    ∧ (m.status = 0 → q.poison = false → bitsOf m.arg.toNat 31 0 = (crc32c q.data).toNat)
/-- PN_WR_ACK with the block's check value as committed answers the write of its tag (R64, R391, R403). -/
def pnWrAck : Prop := ∀ s l m q, Pre.pnWrAck s l m q →
  exec (.pnWrAck l m) s = .next (if m.status = 0 then (s.dropReq q).reqEnds q [] q.poison false
    else (s.dropReq q).reqFails q m.status.toNat)

abbrev Pre.answerLate (s : State) (l : LinkNo) (m : PnReply) : Prop :=
  s.req? l m.tag false = none ∧ s.req? l m.tag true = none
/-- An answer that nothing waits for is discarded (R513). -/
def answerLate : Prop := ∀ s l m, Pre.answerLate s l m →
  exec (.pnRdData l m) s = .next s ∧ exec (.pnWrAck l m) s = .next s

abbrev Pre.pnCheckAgain (s : State) (l : LinkNo) (m : PnReply) (q : PnReq) : Prop :=
  s.req? l m.tag false = some q ∧ m.status = 0 ∧ m.block = true ∧ m.poison = false ∧ crc32c m.data ≠ m.bcrc ∧ q.again = false
/-- PN_RD_DATA whose block does not check the first time: notice 0x0042, and the request goes out once more (R391, R523). -/
def pnCheckAgain : Prop := ∀ s l m q, Pre.pnCheckAgain s l m q →
  let q' : PnReq := { q with again := true, since := s.tick }
  let u := s.event (linkHub l) (evU 0x0042 1 15 l.val 5)
  exec (.pnRdData l m) s = .next (State.sendMsg { u with lnk := { u.lnk with
    reqs := u.lnk.reqs.map (fun x => if x = q then q' else x) } } l q'.msg)

abbrev Pre.penumbraOut (s : State) (l : LinkNo) (p : Peer) (t : Nat) : Prop :=
  s.linkPeer l = some p ∧ p.downSince = some t ∧ t + 100 * msTicks ≤ s.tick ∧ s.unitState (.penumbra l) ≠ .out
    ∧ s.hs.list = [] ∧ s.vault.ops = []
/-- PENUMBRA_OUT: a peer none of whose links has been up for 100 ms is OUT (R156). -/
def penumbraOut : Prop := ∀ s l p t, Pre.penumbraOut s l p t →
  exec (.penumbraOut l) s = .next (s.setUnit (.penumbra l) .out)

abbrev Pre.penumbraWaits (s : State) (l : LinkNo) (p : Peer) (t : Nat) : Prop :=
  s.linkPeer l = some p ∧ p.downSince = some t ∧ s.tick < t + 100 * msTicks
/-- PENUMBRA_OUT before the 100 ms have passed changes nothing (R156). -/
def penumbraWaits : Prop := ∀ s l p t, Pre.penumbraWaits s l p t → exec (.penumbraOut l) s = .next s

abbrev Pre.unitOut (s : State) (u : TierUnit) (h : Handle) : Prop :=
  s.unitState u ≠ .out ∧ s.hs.list = [h] ∧ h.state = .resident ∧ h.mig = none ∧ h.fill = none
    ∧ (h.homes.any (s.inUnit u)) = true ∧ s.vault.ops = []
/-- UNIT_OUT: the unit is OUT, and a RESIDENT handle with a home there is FAULTED (R75, R148). -/
def unitOut : Prop := ∀ s u h, Pre.unitOut s u h →
  exec (.unitOut u) s = .next ((s.setUnit u .out).setHandle { h with state := .faulted })


/-! ### Spares and tests (chapter 15) -/

/-- A row's bank, number and name. -/
def rowName (s : State) (hub : Hub) (bank : Fin 16) (row : Fin 2048) : UnitName :=
  { hub := hub.val, kind := 5, index := bank.val, sub := s.physRow (hub.val * 16 + bank.val) row.val }

/-- A row's physical row is recorded as moved to the next spare row of its bank. -/
def rowMoved (s : State) (hub : Hub) (bank : Fin 16) (row : Fin 2048) : State :=
  let n := hub.val * 16 + bank.val
  ((s.setRepair { s.rel.repair with rowMap := s.rel.repair.rowMap ++ [(n, row.val, (s.rowsUsed n).length)] }).recordRetired
    (rowName s hub bank row)).substituted (rowName s hub bank row) true

abbrev Pre.rowRetire (s : State) (hub : Hub) (bank : Fin 16) (row : Fin 2048) : Prop :=
  (s.rowsUsed (hub.val * 16 + bank.val)).length < 32
    ∧ ((rowMoved s hub bank row).sliceRows (hub.val * 16 + bank.val) (row.val / 128)).length ≤ 64
/-- ROW_RETIRE with a spare row left: the row is moved to it, and the retirement and the spare are recorded (R533, R537). -/
def rowRetire : Prop := ∀ s hub bank row, Pre.rowRetire s hub bank row →
  exec (.rowRetire hub bank row) s = .next (rowMoved s hub bank row)

abbrev Pre.rowRetireNone (s : State) (hub : Hub) (bank : Fin 16) : Prop :=
  32 ≤ (s.rowsUsed (hub.val * 16 + bank.val)).length
/-- ROW_RETIRE with no spare row left treats the row's slice as SLICE_REPLACE does (R537, R538). -/
def rowRetireNone : Prop := ∀ s hub bank row, Pre.rowRetireNone s hub bank →
  let u := rowName s hub bank row
  exec (.rowRetire hub bank row) s
    = exec (.sliceReplace hub bank (Fin.ofNat 16 (row.val / 128))) ((s.recordRetired u).substituted u false)

/-- A slice's name. -/
def sliceName (hub : Hub) (bank slice : Fin 16) : UnitName := { hub := hub.val, kind := 6, index := bank.val, sub := slice.val }

abbrev Pre.sliceReplace (s : State) (hub : Hub) (bank slice : Fin 16) : Prop :=
  sliceName hub bank slice ∉ s.rel.repair.retired
/-- SLICE_REPLACE: the hub's spare slice takes the slice's place; with that in use the slice is retired and its bank is frozen
(R538). -/
def sliceReplace : Prop := ∀ s hub bank slice, Pre.sliceReplace s hub bank slice →
  let u := sliceName hub bank slice
  let r := s.rel.repair
  let x := (hub.val * 16 + bank.val, slice.val, 0)
  exec (.sliceReplace hub bank slice) s = .next (
    if s.rel.repair.sliceUsed.any (fun e => e.1 / 16 == hub.val) = false
    then ((s.setRepair { r with sliceUsed := r.sliceUsed ++ [x] }).recordRetired u).substituted u true
    else (((s.setRepair { r with sliceRetired := r.sliceRetired ++ [x] }).recordRetired u).substituted u false).freezeUnit
      (.shade hub bank))

abbrev Pre.pageRetire (s : State) (k : Stack) (f : Fin 32768) : Prop :=
  ({ hub := k.val / 2, kind := 7, index := k.val, sub := f.val } : UnitName) ∉ s.rel.repair.retired
    ∧ 128 < s.reserveFree k
/-- PAGE_RETIRE: the frame is moved to the next reserve frame, and the stack is frozen once fewer than 128 are left (R539 to
R541). -/
def pageRetire : Prop := ∀ s k f, Pre.pageRetire s k f →
  let u : UnitName := { hub := k.val / 2, kind := 7, index := k.val, sub := f.val }
  let r := s.rel.repair
  let t := ((s.setRepair { r with frameMap := r.frameMap ++ [(k.val, f.val, s.reserveUsed k)] }).recordRetired u).substituted u true
  exec (.pageRetire k f) s = .next (if t.reserveFree k < 128 then t.freezeUnit (.umbra k) else t)

abbrev Pre.targetedTest (s : State) (u : UnitName) (cls : Fin 12) : Prop :=
  knownUnit u = true ∧ 1 ≤ cls.val ∧ cls.val ≤ 6 ∧ u ∉ s.rel.repair.retired
    ∧ (s.rel.hubs[unitHub u].testing.any (fun t => t.unit == u)) = false ∧ 4 < u.kind
/-- TARGETED_TEST of a unit that takes no work of its own: the finding is kept, the unit is under test with the newest pack of
its kind, and no in-field test of it is due (R530, R544, R569). -/
def targetedTest : Prop := ∀ s u cls, Pre.targetedTest s u cls →
  let x := s.rel.hubs[unitHub u]
  let p := s.packFor u.kind
  exec (.targetedTest u cls) s = .next ((s.finding u cls.val).setHealth (unitHub u) { x with
    testing := x.testing ++ [{ unit := u, field := false, since := s.tick, pack := p.1, packVersion := p.2, cls := cls.val }]
    due := x.due.filter (fun d => d.unit != u) })

abbrev Pre.testDecision (s : State) (u : UnitName) (t : UnderTest) : Prop :=
  knownUnit u = true
    ∧ s.rel.hubs[unitHub u].testing.find? (fun t : UnderTest => t.unit == u && !t.field) = some t
/-- TEST_DECISION ends the unit's test with its judgement; a unit that failed it is permanent (R531, R532). -/
def testDecision : Prop := ∀ s u t, Pre.testDecision s u t →
  exec (.testDecision u false) s = .next ((s.testOver u).judge t false)

/-- A test's judgement: a failing test, or a history that Table 15-7 calls permanent, retires the unit and its spare takes its
place; a transient unit returns, and its slice is due at the next shut-down test. The event, the CPER record and the journal
entry name the decision (R531 to R533, R545, R558). -/
def judgement : Prop := ∀ (s : State) (t : UnderTest) (passed : Bool),
  let u := t.unit
  let held := s.history u t.cls t.since
  let dec := if passed = true ∧ held.1 = false then 1 else if 0 < s.sparesLeft u then 3 else 4
  let blind := !s.evt.store.ready || !s.evt.store.holdsFinding u
  let v := s.event (unitHub u) (evU 0x0045 3 u.kind u.index (dec + (if passed then 1 else 2) * 256))
  let v := (v.cper 3 7 u 0x0045 0 dec (if passed then 1 else 2) held.2 (v.sparesLeft u) blind.toNat t.pack t.packVersion).journal 4
    (unitCode u * 16 + t.cls) u.hub [] (leBytes 8 (unitCode u) ++ leBytes 1 t.cls ++ leBytes 8 t.since)
  s.judge t passed = if passed = true ∧ held.1 = false then (v.returnUnit u).sliceDue u else v.retireUnit u

/-- The history makes permanent: an engine, lane, channel or core with the count of Table 15-7 within its window, and a
bank-slice with three of its rows retired (R531). -/
def historyCounts : Prop := ∀ (s : State) (u : UnitName) (cls now : Nat),
  (u.kind = 2 → (s.history u cls now).1 = decide (2 ≤ s.findingsIn u cls now (3600000 * msTicks)))
    ∧ (u.kind = 3 → (s.history u cls now).1 = decide (2 ≤ s.findingsIn u cls now (3600000 * msTicks)))
    ∧ (u.kind = 4 → (s.history u cls now).1 = decide (2 ≤ s.findingsIn u cls now (3600000 * msTicks)))
    ∧ (u.kind = 1 → (s.history u cls now).1 = decide (3 ≤ s.findingsIn u cls now (24 * 3600000 * msTicks)))
    ∧ (u.kind = 5 → (s.history u 1 now).1 = decide (4 ≤ s.findingsIn u 1 now (24 * 3600000 * msTicks)))
    ∧ (u.kind = 7 → (s.history u 1 now).1 = decide (16 ≤ s.findingsIn u 1 now (24 * 3600000 * msTicks)))
    ∧ (u.kind = 6 → (s.history u cls now).1 = decide (3 ≤ (s.sliceRows (u.hub * 16 + u.index) u.sub).length))

abbrev Pre.noSuchUnit (i : Instr) (u : UnitName) : Prop :=
  knownUnit u = false ∧ ((∃ c, i = .targetedTest u c) ∨ (∃ p, i = .testDecision u p) ∨ (∃ h x f, i = .scrubPass h u x f)
    ∨ i = .fieldTestDue u ∨ i = .fieldTestStart u ∨ (∃ p, i = .fieldTestEnd u p) ∨ i = .deferTimeout u)
/-- A test command that names a unit the package does not have stops. -/
def noSuchUnit : Prop := ∀ i s u, Pre.noSuchUnit i u → exec i s = .fault .noSuchUnit

abbrev Pre.scrubPass (s : State) (hub : Hub) (u : UnitName) : Prop :=
  knownUnit u = true ∧ u.hub = hub.val ∧ isStorage u.kind = true ∧ s.rel.hubs[hub].lost = false
    ∧ s.rel.hubs[hub].scrub.getLsbD 31 = true ∧ s.start.quench.state ≠ 2
    ∧ (s.pwr.hubs[hub].dom (scrubDomain u).val).state = .on
/-- SCRUB_PASS in a domain that is ON: the domain is not idle before now; a clean read does nothing else, a corrected one is
counted, and an uncorrectable one poisons what lies there and sends the unit to a test (R527 to R530, R586). -/
def scrubPass : Prop := ∀ s hub u holds, Pre.scrubPass s hub u →
  let t := s.touch hub (scrubDomain u).val
  exec (.scrubPass hub u holds .clean) s = .next t
    ∧ exec (.scrubPass hub u holds .correctable) s = .next (t.scrubCorrected u)
    ∧ exec (.scrubPass hub u .free .uncorrectable) s = .next (t.sendTest u 2)
    ∧ ∀ k b, exec (.scrubPass hub u (.home k b) .uncorrectable) s = .next ((t.poisonHome k b).sendTest u 2)

abbrev Pre.poisonHome (s : State) (k : HKey) (b : Nat) (h : Handle) : Prop :=
  s.handle? k = some h ∧ h.fate ≠ .keep ∧ b ∉ h.marks.poison ∧ b < blockCount h.shape.size
/-- A block lost in place is poisoned, and its handle is named (R71, R521, R525). -/
def poisonHome : Prop := ∀ s k b h, Pre.poisonHome s k b h →
  s.poisonHome k b = (s.setHandle { h with marks := { h.marks with poison := h.marks.poison ++ [b] } }).poisonCreated h.key.entry h.word

/-! ### Self-test (chapter 16) -/

abbrev Pre.bistGrant (s : State) (d : Desc) : Prop := accepts s d (bistGrantSpec d) = true
/-- BIST_GRANT sets the budget of the next shut-down test, and its RESULT is the one before (R550). -/
def bistGrant : Prop := ∀ s d, Pre.bistGrant s d →
  endsOk (.bistGrant d) s { s with rel := { s.rel with bist := { s.rel.bist with budgetMs := d.f 79 64 } } } d
    (BitVec.ofNat 64 s.rel.bist.budgetMs)

abbrev Pre.bistResults (s : State) (d : Desc) (r : RunSummary) : Prop :=
  accepts s d (bistResultsSpec d) = true ∧ s.rel.bist.summaries.reverse[d.f 67 64]? = some r
/-- BIST_RESULTS delivers a run's summary and its records from FIRST on; its RESULT counts them (R561). -/
def bistResults : Prop := ∀ s d r, Pre.bistResults s d r →
  let rs := ((s.rel.bist.records.filter (fun u : UnitRecord => u.run == r.run)).drop (d.f 111 80)).take (d.f 127 112)
  exec (.bistResults d) s = .next (s.complete d.ticket
    { status := 0, result := BitVec.ofNat 64 rs.length, xbytes := r.bytes ++ rs.flatMap UnitRecord.bytes })

abbrev Pre.bistFailView (s : State) (d : Desc) : Prop := accepts s d (bistFailViewSpec d) = true
/-- BIST_FAIL_VIEW delivers COUNT entries of the failing-address view from FIRST on, zeros past its end; its RESULT is the
view's length (R563). -/
def bistFailView : Prop := ∀ s d, Pre.bistFailView s d →
  let bytes := (List.range (d.f 127 112)).flatMap (fun i => leBytes 16 ((s.failView.getD (d.f 111 80 + i) 0).toNat))
  exec (.bistFailView d) s = .next
    (s.complete d.ticket { status := 0, result := BitVec.ofNat 64 s.failView.length, xbytes := bytes })

/-- The unit BIST_FIELD_NOW names. -/
def fieldUnit (d : Desc) : UnitName := { hub := d.f 65 64, kind := d.f 79 72, index := d.f 95 80, sub := 0 }

abbrev Pre.bistFieldNow (s : State) (d : Desc) : Prop := accepts s d (bistFieldNowSpec d) = true
/-- BIST_FIELD_NOW makes a unit in service due at once (R564). -/
def bistFieldNow : Prop := ∀ s d, Pre.bistFieldNow s d →
  endsOk (.bistFieldNow d) s (if s.fieldReady (fieldUnit d) then s.fallDue (fieldUnit d) else s) d 0

abbrev Pre.bistStart (s : State) : Prop :=
  s.ctxs = [] ∧ ((s.ring? 0).map (fun r => r.inflight.isEmpty)).getD true = true
    ∧ (s.mov.hubs.toList.any (fun m : Movers => m.directGranted != 0)) = false ∧ s.rel.bist.state ≠ 1 ∧ s.rel.bist.state ≠ 2
    ∧ s.start.shut = .none
/-- BIST_START with nothing under way: an on-demand run of kind 2 begins under the budget granted, and is closed out at once
where no slice can start (R552). -/
def bistStart : Prop := ∀ s, Pre.bistStart s → exec .bistStart s = .next ((s.beginRun 2 2 s.rel.bist.budgetMs).closeIfDone)

abbrev Pre.bistStartRefused (s : State) : Prop := s.ctxs ≠ [] ∨ s.rel.bist.state = 1 ∨ s.rel.bist.state = 2 ∨ s.start.shut ≠ .none
/-- BIST_START while a context exists, a run is under way or a shut-down has begun is refused (R552). -/
def bistStartRefused : Prop := ∀ s, Pre.bistStartRefused s →
  exec .bistStart s = .next { s with rel := { s.rel with bist := { s.rel.bist with refused := true } } }

/-- A run begins with its number one higher, nothing run, and the records of the 16 runs up to it (R561). -/
def beginRun : Prop := ∀ (s : State) (st kind budget : Nat),
  let t := s.beginRun st kind budget
  let b := t.rel.bist
  b.run = s.rel.bist.run + 1 ∧ b.kind = kind ∧ b.runBudgetMs = budget ∧ b.running = [] ∧ b.ranThisRun = [] ∧ b.closed = false
    ∧ b.passes = 0 ∧ b.runFails = 0 ∧ b.runTimeouts = 0 ∧ b.since = s.tick ∧ b.state = BitVec.ofNat 2 st
    ∧ (∀ r ∈ b.records, r ∈ s.rel.bist.records ∧ (b.run - r.run).toNat < 16)
    ∧ t = { s with rel := { s.rel with bist := b } }

abbrev Pre.shutdownTest (s : State) (hub : Hub) (warm : Bool) : Prop :=
  s.rel.hubs[hub].lost = false ∧ s.start.shut = .testing warm true ∧ s.rel.bist.state ≠ 2 ∧ s.start.quench.state ≠ 2
/-- SHUTDOWN_TEST with a test to run: it begins under the budget that held as the shut-down began (R549 to R551, R618). -/
def shutdownTest : Prop := ∀ s hub warm, Pre.shutdownTest s hub warm →
  exec (.shutdownTest hub) s = .next ((State.beginRun { s with start := { s.start with shut := .testing warm false } } 1 warm.toNat
    s.rel.bist.shutBudgetMs).closeIfDone)

/-- A slice's name in the schedule. -/
def sliceAt (hub : Hub) (row : Fin 10) (unit : Fin 128) : Slice := { hub := hub.val, row := row.val, unit := unit.val }

abbrev Pre.sliceStart (s : State) (hub : Hub) (row : Fin 10) (unit : Fin 128) (asDue : Bool) : Prop :=
  (s.rel.bist.state = 1 ∨ s.rel.bist.state = 2) ∧ s.rel.bist.stopCause = 0 ∧ s.placeFree (sliceAt hub row unit) = true
    ∧ s.nextFor (sliceAt hub row unit) = some (sliceAt hub row unit, asDue) ∧ row.val ≠ 6
/-- SLICE_START of the slice the schedule has next in its place: it runs from now on, journaled, and the first slice of a run
starts its budget (R551, R558). -/
def sliceStart : Prop := ∀ s hub row unit asDue, Pre.sliceStart s hub row unit asDue →
  let b := s.rel.bist
  let r : RunningSlice := { slice := sliceAt hub row unit, since := s.tick, pace := s.hubPace hub, asDue := asDue }
  exec (.sliceStart hub row unit) s = .next ((s.setBist { b with
    since := if b.ranThisRun = [] ∧ b.running = [] then s.tick else b.since, running := b.running ++ [r] }).journal 5
      (b.run.toNat * 65536 + hub.val * 4096 + row.val * 256 + unit.val) hub.val []
      (leBytes 4 b.run.toNat ++ leBytes 1 hub.val ++ leBytes 1 row.val ++ leBytes 1 unit.val))

abbrev Pre.sliceEnd (s : State) (hub : Hub) (row : Fin 10) (unit : Fin 128) (y : RunningSlice) : Prop :=
  s.rel.bist.running.find? (fun y : RunningSlice => y.slice == sliceAt hub row unit) = some y
/-- SLICE_END of a running slice ends it with its result, and the run where nothing is left (R556, R558, R561, R562). -/
def sliceEnd : Prop := ∀ s hub row unit r fails y, Pre.sliceEnd s hub row unit y →
  exec (.sliceEnd hub row unit r fails) s = .next ((s.endSlice y r fails).closeIfDone)

/-- SLICE_TIMEOUT: a slice still running at 50 ms ends with TIMEOUT, and one that has not run so long goes on (R554). -/
def sliceTimeout : Prop := ∀ s hub row unit y, Pre.sliceEnd s hub row unit y →
  exec (.sliceTimeout hub row unit) s
    = .next (if y.since + 50 * msTicks ≤ s.tick then (s.endSlice y .timeout []).closeIfDone else s)

abbrev Pre.endSlice (s : State) (r : RunningSlice) : Prop := s.sliceUnits r.slice = [] ∧ r.asDue = false
/-- A slice of no unit that ends with PASS has run in this run, is due no more, is counted, and moves its hub's or stack's
cursor past itself (R558, R561). -/
def endSlice : Prop := ∀ s r, Pre.endSlice s r →
  let b := s.rel.bist
  let c := (s.endSlice r .pass []).rel.bist
  c.running = b.running.filter (fun y : RunningSlice => y.slice ≠ r.slice) ∧ c.ranThisRun = b.ranThisRun ++ [r.slice]
    ∧ c.due = b.due.filter (fun y => y ≠ r.slice) ∧ c.passes = b.passes + 1 ∧ c.runFails = b.runFails
    ∧ c.runTimeouts = b.runTimeouts ∧ c.records = b.records
    ∧ (r.slice.row ≠ 9 → c.stackCursor = b.stackCursor) ∧ (r.slice.row = 9 → c.hubCursor = b.hubCursor)

abbrev Pre.fieldTestDue (s : State) (u : UnitName) (b : Nat) : Prop :=
  knownUnit u = true ∧ s.fieldReady u = true ∧ fieldBit u.kind = some b ∧ s.rel.hubs[unitHub u].field.getLsbD b = true
    ∧ bitsOf s.rel.hubs[unitHub u].field.toNat 31 24 ≠ 0
    ∧ ((s.rel.hubs[unitHub u].hours.find? (fun y => y.1 == u)).map Prod.snd).getD 0
        + bitsOf s.rel.hubs[unitHub u].field.toNat 31 24 * 3600000 * msTicks ≤ s.tick
/-- FIELD_TEST_DUE: a unit in service of an enabled kind, untested for INTERVAL_H hours, falls due; an engine's tile is
duplicated from then on (R564, R565). -/
def fieldTestDue : Prop := ∀ s u b, Pre.fieldTestDue s u b →
  let x := s.rel.hubs[unitHub u]
  let t := s.setHealth (unitHub u) { x with due := x.due ++ [{ unit := u, since := s.tick }] }
  exec (.fieldTestDue u) s = .next (if u.kind = 2 then t.duplicateNow (unitHub u) u.index else t)

/-- The test of a due unit begins: its work moves to its spare, and it is under an in-field test with the newest pack of its
kind, due no longer (R544, R565 to R567). -/
def fieldBegins (s : State) (u : UnitName) : State :=
  let v := if u.kind = 1 then s else s.quiesce u
  let x := v.rel.hubs[unitHub u]
  v.setHealth (unitHub u) { x with
    testing := x.testing ++ [{ unit := u, field := true, since := s.tick, pack := (v.packFor u.kind).1
                               packVersion := (v.packFor u.kind).2, cls := 0 }]
    due := x.due.filter (fun d : Due => d.unit != u) }

abbrev Pre.fieldTestStart (s : State) (u : UnitName) : Prop :=
  knownUnit u = true ∧ (s.dueTurn u).isSome = true ∧ s.atBoundary u = true ∧ u.kind = 1
/-- FIELD_TEST_START of a due control core: its test begins (R564, R566). -/
def fieldTestStart : Prop := ∀ s u, Pre.fieldTestStart s u → exec (.fieldTestStart u) s = .next (fieldBegins s u)

abbrev Pre.fieldTestEnd (s : State) (u : UnitName) (t : UnderTest) : Prop :=
  knownUnit u = true ∧ s.rel.hubs[unitHub u].testing.find? (fun t : UnderTest => t.unit == u && t.field) = some t
/-- FIELD_TEST_END of a unit that failed: the event says so, and the unit is judged permanent (R568). -/
def fieldTestEnd : Prop := ∀ s u t, Pre.fieldTestEnd s u t →
  exec (.fieldTestEnd u false) s
    = .next (((s.testOver u).event (unitHub u) (evU 0x0091 0 u.kind u.index 1)).judge t false)

/-- FIELD_TEST_END of a unit that passed: it is re-initialized, returns to service, and its hours count from now (R556, R564,
R568). -/
def fieldTestPass : Prop := ∀ s u t, Pre.fieldTestEnd s u t →
  let v := (s.testOver u).event (unitHub u) (evU 0x0091 0 u.kind u.index 0)
  let w := (if u.kind = 4 then v.bumpEpoch u else v.reinit u).returnUnit u
  let x := w.rel.hubs[unitHub u]
  exec (.fieldTestEnd u true) s
    = .next (w.setHealth (unitHub u) { x with hours := x.hours.filter (fun y => y.1 ≠ u) ++ [(u, s.tick)] })

abbrev Pre.deferTimeout (s : State) (u : UnitName) (d : Due) : Prop :=
  knownUnit u = true ∧ s.dueTurn u = some d ∧ u.kind ≠ 3
    ∧ d.since + bitsOf s.rel.hubs[unitHub u].field.toNat 23 16 * msTicks ≤ s.tick
/-- DEFER_TIMEOUT: once DEFER_MS has passed without the unit's boundary its test begins all the same, a core's locks ABANDONED,
and notice 0x0046 names the spares left (R488, R565, R566). -/
def deferTimeout : Prop := ∀ s u d, Pre.deferTimeout s u d →
  let v := if u.kind = 1 then s.quiesce u else s
  exec (.deferTimeout u) s
    = .next ((v.startField u).event (unitHub u) (evU 0x0046 3 u.kind u.index (v.sparesLeft u)))

/-! ### Calibration (chapter 17) -/

/-- A calibration unit is provisional. -/
abbrev Pre.calibrationRecheck (s : State) (n : BitVec 16) : Prop :=
  (s.pwr.cal.any (fun e => e.1 == n && e.2 == CalState.provisional)) = true
/-- CALIBRATION_RECHECK of a provisional calibration confirms it, or finds it drifted (R599, R600). -/
def calibrationRecheck : Prop := ∀ s n, Pre.calibrationRecheck s n →
  exec (.calibrationRecheck n true) s = exec (.driftCheck n true) s
    ∧ exec (.calibrationRecheck n false) s
        = .next ((s.calibrated n .confirmed).event (hubOf (bitsOf n.toNat 11 8)) (ev 0x0081 0 n.toNat))

abbrev Pre.driftCheck (s : State) (k : Stack) : Prop := s.unitState (.umbra k) = .inService
/-- DRIFT_CHECK of a stack in service whose drift exceeds margin: its calibration is drifted, notice 0x0082 names it, and the
stack is REDUCED; with no drift nothing happens (R148, R600). -/
def driftCheck : Prop := ∀ s k, Pre.driftCheck s k →
  let n : BitVec 16 := BitVec.ofNat 16 (4096 + k.val / 2 * 256 + k.val)
  let u : State := { s with pwr := { s.pwr with cal := s.pwr.cal.filter (fun e => e.1 ≠ n) ++ [(n, CalState.drift)] } }
  exec (.driftCheck n true) s = .next ((u.event (hubOf (k.val / 2)) (ev 0x0082 1 n.toNat)).setUnit (.umbra k) .reduced)
    ∧ exec (.driftCheck n false) s = .next s

abbrev Pre.recalibrationDone (s : State) (k : Stack) : Prop := s.unitState (.umbra k) = .reduced
/-- RECALIBRATION_DONE: a REDUCED stack is in service again, its calibration provisional where the package used less than 40%
of the cap (R148, R598, R600). -/
def recalibrationDone : Prop := ∀ s k, Pre.recalibrationDone s k →
  exec (.recalibrationDone k) s = .next ((s.setUnit (.umbra k) .inService).calibrated (stackCal k)
    (if s.pwr.mgr.power * 100 < 40 * 8 * s.pwr.mgr.watts then .provisional else .confirmed))

/-- RETENTION_MONITOR: the stack's retention marker is invalid, and nothing else changes (R686). -/
def retentionMonitor : Prop := ∀ (s : State) (k : Stack),
  exec (.retentionMonitor k) s = .next { s with units := { s.units with markers := Vector.set s.units.markers k.val none } }

/-! ### Power and domains (chapter 17) -/

/-- PWR_MODE_WRITE keeps PACED, RESUME and G of the value; the mode in force stands until the next window (R579). -/
def pwrModeWrite : Prop := ∀ (s : State) (v : BitVec 32),
  exec (.pwrModeWrite v) s = .next { s with pwr := { s.pwr with mgr := { s.pwr.mgr with mode := v &&& 0x00FF0003 } } }

/-- PWR_CAP_WRITE holds WATTS to 200 to 850 and keeps LEND; the cap in force stands until the next window (R597). -/
def pwrCapWrite : Prop := ∀ (s : State) (v : BitVec 32), ∃ c : BitVec 32,
  exec (.pwrCapWrite v) s = .next { s with pwr := { s.pwr with mgr := { s.pwr.mgr with cap := c } } }
    ∧ c.getLsbD 31 = v.getLsbD 31 ∧ bitsOf c.toNat 30 0 = max 200 (min 850 (bitsOf v.toNat 11 0))

/-- A stack's domain puts it in self-refresh; other domains do not reach a stack. -/
def selfRefreshed (s : State) (h : Hub) (d : Fin 10) (on : Bool) : State :=
  if 8 ≤ d.val then
    { s with units := { s.units with selfRefresh := Vector.set s.units.selfRefresh (domainStack h d.val).val on } }
  else s

abbrev Pre.retainEntry (s : State) (h : Hub) (d : Fin 10) (t : Nat) : Prop :=
  mayRetain d.val = true ∧ (s.pwr.hubs[h].dom d.val).state = .on ∧ (s.pwr.hubs[h].dom d.val).stalled = 0
    ∧ (s.pwr.hubs[h].dom d.val).longWaiting = false ∧ (s.pwr.hubs[h].dom d.val).idleSince = some t
    ∧ 0 < s.pwr.hubs[h].idleTicks d.val ∧ s.pwr.hubs[h].idleTicks d.val ≤ s.tick - t
/-- RETAIN_ENTRY: an ON domain idle for its threshold, with nothing stalled, enters RETAIN, and a stack self-refresh (R586). -/
def retainEntry : Prop := ∀ s h d t, Pre.retainEntry s h d t →
  exec (.retainEntry h d) s = .next (selfRefreshed (s.setPower h
    (s.pwr.hubs[h].upd d.val (fun x => { x with state := .retain }))) h d true)

abbrev Pre.wakeRequest (s : State) (h : Hub) (d : Fin 10) : Prop :=
  (s.pwr.hubs[h].dom d.val).state = .retain ∧ d.val < 8 ∧ s.pwr.hubs[h].hubSlot = []
/-- WAKE_REQUEST of a domain in RETAIN with its rail's slot free: the request stalls, and the domain ramps in the slot (R587,
R588). -/
def wakeRequest : Prop := ∀ s h d, Pre.wakeRequest s h d →
  exec (.wakeRequest h d) s = .next (s.setPower h { (s.pwr.hubs[h].upd d.val (fun x => { x with stalled := x.stalled + 1 })).upd d.val
    (fun x => { x with state := .ramping }) with hubSlot := [d.val] })

abbrev Pre.rampDone (s : State) (h : Hub) (d : Nat) : Prop := s.pwr.hubs[h].hubSlot = [d]
/-- RAMP_DONE: the ramp of the domain in the slot ends, its restore begins and the slot is free (R588). -/
def rampDone : Prop := ∀ s h d, Pre.rampDone s h d →
  exec (.rampDone h false) s = .next (s.setPower h { s.pwr.hubs[h].upd d (fun x => { x with restoring := true }) with hubSlot := [] })

abbrev Pre.domainOn (s : State) (h : Hub) (d : Fin 10) : Prop :=
  (s.pwr.hubs[h].dom d.val).state = .ramping ∧ (s.pwr.hubs[h].dom d.val).restoring = true
/-- DOMAIN_ON: the restored domain is ON, its stalled requests go on, and a stack leaves self-refresh (R588). -/
def domainOn : Prop := ∀ s h d, Pre.domainOn s h d →
  exec (.domainOn h d) s = .next (selfRefreshed (s.setPower h (s.pwr.hubs[h].upd d.val (fun x =>
    { x with state := .on, restoring := false, stalled := 0, idleSince := some s.tick }))) h d false)

/-! ### Quench, alignment and pace windows (chapters 17 and 18) -/

/-- The filtered level of a quench channel. -/
def channel (q : Quench) (b : Bool) : Bool := if b then q.bHigh else q.aHigh

/-- A quench channel's filtered level changes now. -/
def moved (q : Quench) (b high : Bool) (tick : Nat) : Quench :=
  if b then { q with bHigh := high, bSince := tick } else { q with aHigh := high, aSince := tick }

abbrev Pre.quenchChannel (s : State) (b high : Bool) : Prop :=
  channel s.start.quench b ≠ high ∧ s.start.level ≠ .off ∧ s.start.level ≠ .reset ∧ s.start.quench.state ≠ 2
/-- QUENCH_CHANNEL of a channel that falls: with the other low too the Aedvos quenches with cause PINS; with the other high the
channels disagree and the discrepancy timer runs. A channel that rises again ends the discrepancy, counted and recorded
(Table 18-6). -/
def quenchChannel : Prop := ∀ s b high, Pre.quenchChannel s b high →
  let q := moved s.start.quench b high s.tick
  exec (.quenchChannel b high) s = .next (
    if high = false then
      if channel q (!b) = false then (s.setQuench q).quenchNow .pins
      else s.setQuench { q with state := 1, timerFrom := some s.tick, timerMs := q.discMs.toNat }
    else if q.state = 1 then
      (s.setQuench { q with state := 0, timerFrom := none, events := sat16 (q.events + 1) }).event 0 (ev 0x0012 2 b.toNat)
    else s.setQuench q)

abbrev Pre.discrepancyExpiry (s : State) (t : Nat) : Prop :=
  s.start.quench.timerFrom = some t ∧ s.start.quench.state = 1 ∧ s.start.quench.aHigh ≠ s.start.quench.bHigh
    ∧ t + s.start.quench.timerMs * msTicks ≤ s.tick
/-- DISCREPANCY_EXPIRY while the channels disagree quenches with cause WIRING (Table 18-6). -/
def discrepancyExpiry : Prop := ∀ s t, Pre.discrepancyExpiry s t → exec .discrepancyExpiry s = exec (.quench .wiring) s

abbrev Pre.quench (s : State) : Prop := s.start.quench.state ≠ 2
/-- QUENCH: the quench is in force with its cause, every link is QUENCHED, every stack in self-refresh, OFF_READY driven and SPI
released, and a shut-down has ended (R618, R620, R621). -/
def quench : Prop := ∀ s c, Pre.quench s → ∃ t : State,
  exec (.quench c) s = .next t ∧ t.start.quench.state = 2 ∧ t.start.quench.cause = BitVec.ofNat 3 (quenchCode c)
    ∧ t.start.quench.clearReady = false ∧ t.start.quench.timerFrom = none ∧ t.start.shut = .none
    ∧ t.start.pins.offReady = true ∧ t.start.pins.spiActive = false
    ∧ (∀ l : LinkNo, t.lnk.links[l].state = .quenched) ∧ (∀ k : Stack, t.units.selfRefresh[k] = true)
    ∧ t.hs = s.hs ∧ t.ctxs = s.ctxs ∧ t.mov = s.mov ∧ t.eng = s.eng ∧ t.codec = s.codec

abbrev Pre.quenchAgain (s : State) : Prop := s.start.quench.state = 2
/-- A second cause during a quench changes nothing (R620). -/
def quenchAgain : Prop := ∀ s c, Pre.quenchAgain s → exec (.quench c) s = .next s

abbrev Pre.clearReady (s : State) : Prop := s.clearable = true
/-- CLEAR_READY is set once R622 holds. -/
def clearReady : Prop := ∀ s, Pre.clearReady s →
  exec .clearReady s = .next { s with start := { s.start with quench := { s.start.quench with clearReady := true } } }

/-- What R622 asks for: the cause is PINS, WIRING or THERMAL, both channels are high, after WIRING for DISC_MS, and after
THERMAL every sensor is 10 °C below its trip. -/
def clearReadyWhen : Prop := ∀ s : State, s.clearable = true ↔
  let q := s.start.quench
  q.state = 2 ∧ (q.cause = 1 ∨ q.cause = 2 ∨ q.cause = 4) ∧ q.aHigh = true ∧ q.bHigh = true
    ∧ (q.cause = 2 → q.discMs.toNat * msTicks ≤ s.tick - q.highSince)
    ∧ (q.cause = 4 → ∀ p ∈ s.pwr.hubs.toList, p.hottest.toNat + 10 ≤ p.trip.toNat ∧ p.hottestStack.toNat + 10 ≤ 105)

/-- QUENCH_CLEAR while CLEAR_READY is 0 is refused, and nothing else changes; while it is 1 the quench ends: the stacks leave
self-refresh, OFF_READY is released, SPI is driven, and the notice says so (R622, R623). -/
def quenchClear : Prop := ∀ s : State,
  (s.start.quench.clearReady = false →
    exec .quenchClear s = .next { s with start := { s.start with quench := { s.start.quench with clearRefused := true } } })
  ∧ (s.start.quench.clearReady = true → ∃ u : State, exec .quenchClear s = .next (u.notice 0x0185 0)
      ∧ u = { s with
        start := { s.start with
          quench := { s.start.quench with state := 0, cause := 0, wiringFault := false, clearReady := false }
          pins := { s.start.pins with mfReleasing := mfReleaseAll s.start.pins s.tick, offReady := false, spiActive := true } }
        units := { s.units with selfRefresh := Vector.replicate 8 false } })

/-- ALIGN with four different positions and every count 1,024: the hubs are aligned and the tick counts from the second ALIGN
(R577). -/
def align : Prop := ∀ s : State,
  exec (.align [0, 1, 2, 3] [1024, 1024, 1024, 1024]) s = .next { s with
    tick := 1024, start := { s.start with started := s.start.started + 1024 - s.tick }
    pwr := { s.pwr with
      alignTries := 0
      hubs := s.pwr.hubs.map (fun p : HubPower => { p with aligned := true, tbclkOk := true }) } }

abbrev Pre.alignRetry (s : State) : Prop := s.pwr.alignTries < 2
/-- ALIGN with a count that differs is tried again, three times in all (R577). -/
def alignRetry : Prop := ∀ s, Pre.alignRetry s →
  exec (.align [0, 1, 2, 3] [1024, 1024, 1024, 1023]) s
    = .next { s with pwr := { s.pwr with alignTries := s.pwr.alignTries + 1 } }

abbrev Pre.pllLockTimeout (s : State) (h : Hub) : Prop := s.rel.hubs[h].lost = true
/-- PLL_LOCK_TIMEOUT records the hub as out of lock, and holds it out of service (R577). -/
def pllLockTimeout : Prop := ∀ s h, Pre.pllLockTimeout s h →
  exec (.pllLockTimeout h) s
    = .next ((s.setPower h { s.pwr.hubs[h] with pllLocked := false }).event h (ev 0x0015 3 0))

/-- TBCLK_LOSS clears TBCLK_OK on every hub and quenches with cause TBCLK (R578). -/
def tbclkLoss : Prop := ∀ s : State, exec .tbclkLoss s = exec (.quench .tbclk) { s with pwr := { s.pwr with
  hubs := s.pwr.hubs.map (fun p : HubPower => { p with tbclkOk := false }) } }

/-- PACE_WINDOW_END at a window's end: the mode and the cap written are in force, every hub's window is counted, PACE_OUT
changes its level, and the manager holds the package's power, the pool lent and the budget (R572, R579, R591, R592, R597). -/
def paceWindowEnd : Prop := ∀ (s : State) (samples : List HubSample), s.tick % 1250 = 0 → ∃ t : State,
  exec (.paceWindowEnd samples) s = .next t ∧ t.pwr.mgr.modeInForce = s.pwr.mgr.mode
    ∧ t.pwr.mgr.capInForce = bitsOf s.pwr.mgr.cap.toNat 11 0 ∧ t.pwr.mgr.windows = s.pwr.mgr.windows + 1
    ∧ t.pwr.mgr.power = (samples.map (fun x => x.power.sum)).sum ∧ t.pwr.mgr.withdrawn = false
    ∧ t.pwr.mgr.budget = throttledBudget (bitsOf s.pwr.mgr.cap.toNat 11 0) samples
    ∧ (∀ h : Hub, t.pwr.hubs[h].windows = s.pwr.hubs[h].windows + 1)
    ∧ (t.start.pins.paceOut = !s.start.pins.paceOut)

/-- How a hub's mode goes on after a window: FREE while not PACED; PACED, or SLIPPING where the guard of R582 fails, which
counts a slip; a slipping hub is PACED again after the fifth clean window in a row where RESUME is 1 (R579, R583). -/
def paceMode : Prop := ∀ (p : HubPower) (resume failed : Bool),
  (∀ w, paceAfter p w false resume failed = (0, 0, false))
    ∧ paceAfter p false true resume failed = (if failed then (2, 0, true) else (1, 0, false))
    ∧ (p.status ≠ 2 → paceAfter p true true resume failed = (if failed then (2, 0, true) else (1, 0, false)))
    ∧ (p.status = 2 → paceAfter p true true resume failed
        = (if failed then (2, 0, false) else if resume = true ∧ p.clean = 4 then (1, 0, false) else (2, p.clean + 1, false)))

/-- BUDGET_WITHDRAW: every grant from the pool is withdrawn on every hub, and the lender's allowance is its base again
(R593). -/
def budgetWithdraw : Prop := ∀ (s : State) (h : Hub) (d : Fin 10),
  let back (p : HubPower) : HubPower :=
    { p with domains := p.domains.map (fun x => { x with allowance := x.allowance - x.lent, lent := 0 }) }
  let u : State := { s with pwr := { s.pwr with
    hubs := s.pwr.hubs.map back, mgr := { s.pwr.mgr with lentTotal := 0, withdrawn := true } } }
  exec (.budgetWithdraw h d) s
    = .next (u.setPower h (u.pwr.hubs[h].upd d.val (fun x => { x with allowance := x.base, longWaiting := false })))


/-! ### Firmware slots and images (chapter 18) -/

/-- A slot of the two. -/
def slotOf (s : State) (i : Nat) : FwSlot := if i = 0 then s.fw.slotA else s.fw.slotB

/-- An image as IMAGE_LOAD reads it. -/
def imageOf (s : State) (d : Desc) : List Byte := s.hostRead (d.f 191 128) (min (d.f 223 192) 2097152)

abbrev Pre.imageLoad (s : State) (d : Desc) : Prop :=
  accepts s d (imageLoadSpec d) = true ∧ d.f 65 64 ≤ 1 ∧ (slotOf s (d.f 65 64)).state ≠ .active
    ∧ (slotOf s (d.f 65 64)).state ≠ .activeTrial ∧ 320 ≤ d.f 223 192 ∧ d.f 223 192 ≤ 2097152
/-- IMAGE_LOAD into a slot that is not active: an image that fails a check of R628 ends with the first failing check's status
and changes nothing; one that passes, with the store ready, makes the slot VALID, with the image's fields, and is journaled
(Table 18-9). -/
def imageLoad : Prop := ∀ s d, Pre.imageLoad s d →
  let b := imageOf s d
  (∀ e, s.imageCheck b 1 = some e → exec (.imageLoad d) s = .next (s.complete d.ticket { status := e }))
    ∧ (s.imageCheck b 1 = none → s.evt.store.ready = true → s.evt.store.stopped = false → ∃ y : FwSlot,
        endsOk (.imageLoad d) s ({ s with fw := s.fw.setSlot (d.f 65 64) y }).journalSlots d (BitVec.ofNat 64 (d.f 223 192))
          ∧ y.state = .valid ∧ y.tries = 0 ∧ y.image = b ∧ y.version = BitVec.ofNat 32 (fieldAt b 8 4)
          ∧ y.svn = BitVec.ofNat 16 (fieldAt b 12 2) ∧ y.keyId = BitVec.ofNat 8 (fieldAt b 7 1))

abbrev Pre.imageLoadActive (s : State) (d : Desc) : Prop :=
  accepts s d (imageLoadSpec d) = true ∧ d.f 65 64 ≤ 1
    ∧ ((slotOf s (d.f 65 64)).state = .active ∨ (slotOf s (d.f 65 64)).state = .activeTrial)
/-- IMAGE_LOAD into the active slot ends with SLOT_ACTIVE (Table 18-9). -/
def imageLoadActive : Prop := ∀ s d, Pre.imageLoadActive s d →
  exec (.imageLoad d) s = .next (s.complete d.ticket { status := 0x93 })

/-- A firmware image whose SVN is below the fuse counter fails R628 (R627, R628). -/
def imageRollback : Prop := ∀ (s : State) (b : List Byte), fieldAt b 12 2 < s.fw.svnFuse.toNat → s.imageCheck b 1 ≠ none

abbrev Pre.slotQuery (s : State) (d : Desc) : Prop := accepts s d slotQuerySpec = true
/-- SLOT_QUERY delivers the records of both slots (Table 18-9). -/
def slotQuery : Prop := ∀ s d, Pre.slotQuery s d → exec (.slotQuery d) s = .next (s.complete d.ticket
  { status := 0, result := 2, xbytes := s.fw.slotA.bytes ++ s.fw.slotB.bytes })

abbrev Pre.slotActivate (s : State) (d : Desc) : Prop :=
  accepts s d slotActivateSpec = true ∧ (slotOf s (d.f 64 64)).state = .valid ∧ d.f 65 65 = 0
/-- SLOT_ACTIVATE of a VALID slot, for the next start: it is ACTIVE_TRIAL with TRIES 0, the other is not active, and the slots
are journaled; its RESULT is the slot that was active (R630, Table 18-9). -/
def slotActivate : Prop := ∀ s d, Pre.slotActivate s d → ∃ (fw : Firmware) (prev : BitVec 64),
  endsOk (.slotActivate d) s ({ s with fw := fw, freeCount := s.freeCount + 1 }).journalSlots d prev
    ∧ (∀ j, s.fw.active = some j → prev = BitVec.ofNat 64 j)
    ∧ fw.slot (d.f 64 64) = { slotOf s (d.f 64 64) with state := .activeTrial, tries := 0 }
    ∧ (fw.slot (1 - d.f 64 64)).state ≠ .active ∧ (fw.slot (1 - d.f 64 64)).state ≠ .activeTrial
    ∧ fw.svnFuse = s.fw.svnFuse ∧ fw.inUse = s.fw.inUse ∧ fw.packs = s.fw.packs

abbrev Pre.slotConfirm (s : State) (d : Desc) : Prop :=
  accepts s d slotConfirmSpec = true ∧ s.fw.slotA.state = .activeTrial
/-- SLOT_CONFIRM of a trial slot: the slot is ACTIVE, the fuse counter is the higher of itself and the slot's SVN, the RESULT
is that SVN, and the slots are journaled (R631, Table 18-9). -/
def slotConfirm : Prop := ∀ s d, Pre.slotConfirm s d →
  let fuse := if s.fw.svnFuse.toNat < s.fw.slotA.svn.toNat then s.fw.slotA.svn else s.fw.svnFuse
  endsOk (.slotConfirm d) s
    ({ s with fw := { s.fw with slotA := { s.fw.slotA with state := .active }, svnFuse := fuse } }).journalSlots d
    (s.fw.slotA.svn.zeroExtend 64)

abbrev Pre.patchBankSwitch (s : State) (hub : Hub) (core : Fin 7) (i : Nat) : Prop :=
  s.fw.inUse = some i ∧ core.val ∈ (s.fw.slot i).cores hub ∧ (hub.val, core.val) ∉ s.fw.switched
    ∧ (s.start.level = .core ∨ s.start.level = .ring)
/-- PATCH_BANK_SWITCH: the core has switched banks; with the last core of the hub that the slot's sections name, the patch level
is the hub's (R629, R630). -/
def patchBankSwitch : Prop := ∀ s hub core i, Pre.patchBankSwitch s hub core i →
  let x := s.fw.slot i
  let sw := s.fw.switched ++ [(hub.val, core.val)]
  let level : BitVec 16 := x.version.extractLsb' 0 16
  exec (.patchBankSwitch hub core) s = .next (if ∀ n ∈ x.cores hub, (hub.val, n) ∈ sw
    then { s with fw := { s.fw with switched := sw, hubPatch := s.fw.hubPatch.set hub.val level, patchLevel := level } }
    else { s with fw := { s.fw with switched := sw } })

/-! ### Start, reset and shut-down (chapter 18) -/

/-- START: with PGOOD and RST_N both high, from OFF or RESET, the start begins; with PGOOD alone an OFF Aedvos is in RESET; in any
other case only the pins' levels change (R606, R611). -/
def start : Prop := ∀ (s : State) (pgood rstN : Bool),
  let p := s.start.pins
  let t := s.setPins { p with pgood := p.pgood || pgood, rstN := p.rstN || rstN }
  exec (.start pgood rstN) s = .next (
    if (p.pgood = true ∨ pgood = true) ∧ (p.rstN = true ∨ rstN = true) then
      if s.start.level = .off ∨ s.start.level = .reset then t.beginStart else t
    else if (p.pgood = true ∨ pgood = true) ∧ s.start.level = .off then { t with start := { t.start with level := .reset } }
    else t)

abbrev Pre.ringLevel (s : State) : Prop :=
  s.start.level = .core ∧ s.stalled = false ∧ 46875 ≤ (s.tick : Int) - s.start.started
/-- RING_LEVEL, 300 µs after the start: the level is RING, the banks come into service, START_LEVEL is recorded on every hub,
and the notices that waited for the admin ring are written, UMBRA_READY first (R606, R608). -/
def ringLevel : Prop := ∀ s, Pre.ringLevel s →
  let ns := s.start.notices
  let u := State.levelEvent { s with
    start := { s.start with level := .ring, notices := [] },
    units := { s.units with shade := Vector.ofFn s.bankAtStart } } 3
  exec .ringLevel s = .next ((ns.filter (fun n => n.1 == 0x0181) ++ ns.filter (fun n => n.1 != 0x0181)).foldl
    (fun (v : State) n => v.notice n.1 n.2) u)

abbrev Pre.umbraReady (s : State) : Prop :=
  (s.start.level = .core ∨ s.start.level = .ring) ∧ s.start.umbra = false ∧ s.stalled = false ∧ s.storeTried = true
/-- UMBRA_READY: the level is reached, with its time and the stacks that are OUT, each stack stands as the start finds it, and
none is in self-refresh (R606 to R608). -/
def umbraReady : Prop := ∀ s out, Pre.umbraReady s → ∃ t : State,
  exec (.umbraReady out) s = .next t ∧ t.start.umbra = true ∧ t.start.umbraOut = out
    ∧ t.start.umbraMs = BitVec.ofNat 12 (min 4095 s.sinceStart)
    ∧ (∀ k : Stack, t.units.stack[k] = s.stackAtStart out k ∧ t.units.selfRefresh[k] = false)
    ∧ t.start.level = s.start.level ∧ t.start.links = s.start.links ∧ t.hs = s.hs ∧ t.ctxs = s.ctxs ∧ t.fw = s.fw

abbrev Pre.linksReady (s : State) : Prop :=
  (s.start.level = .core ∨ s.start.level = .ring) ∧ s.start.links = false ∧ s.stalled = false ∧ s.storeTried = true
    ∧ ∀ l : LinkNo, s.linkReached l = true
/-- LINKS_READY once every link is held OFF, has left its first training, or has found no peer (R606, R608). -/
def linksReady : Prop := ∀ s, Pre.linksReady s → ∃ t : State,
  exec .linksReady s = .next t ∧ t.start.links = true ∧ t.start.linksMs = BitVec.ofNat 12 (min 4095 s.sinceStart)
    ∧ t.start.level = s.start.level ∧ t.start.umbra = s.start.umbra ∧ t.lnk = s.lnk ∧ t.hs = s.hs ∧ t.ctxs = s.ctxs ∧ t.fw = s.fw

abbrev Pre.journalReadAtStart (s : State) : Prop :=
  (s.start.level = .core ∨ s.start.level = .ring) ∧ s.evt.store.ready = false ∧ s.start.storeCold = false
    ∧ s.evt.store.valid = true
/-- JOURNAL_READ_AT_START of a store that can be read: it is ready with the entries that are not torn, the next block is begun,
the retirements it holds are in force, and the links' first training begins (R610, R650, R675). -/
def journalReadAtStart : Prop := ∀ s, Pre.journalReadAtStart s →
  let st := s.evt.store
  exec (.journalReadAtStart true) s = .next (((s.setStore { st with
    readable := true, ready := true, journal := st.readBack, head := (st.head + 1) % 818, bytesInBlock := 0,
    erased := st.erased - 1 }).applyRetired).firstTraining)

/-- JOURNAL_READ_AT_START of a store that cannot be read: the start is cold, with an epoch that is not the last one, mask ROM
alone, no peer's window and no image, and a notice (R610, R669). -/
def journalUnreadable : Prop := ∀ s, Pre.journalReadAtStart s → ∃ e : BitVec 32, e ≠ s.lnk.epoch ∧
  exec (.journalReadAtStart false) s = .next (State.firstTraining (State.notice (State.useSlot (State.setStore { s with
    start := { s.start with storeCold := true, warm := false }, lnk := { s.lnk with epoch := e, peers := [] },
    vault := { s.vault with images := [] }, freeCount := s.freeCount + 1 } { s.evt.store with readable := false }) none) 0x0186 0))

/-- What a reset discards and what it keeps: contexts, handles, rings, groups, peers' grants in use, engines, lanes and channels
go; host memory, retirements, epochs and retention markers, images, slots, fuses and the history store stay (R49, R611,
R612). -/
def resets (s t : State) (lv : Level) : Prop :=
  t.start.level = lv ∧ t.ctxs = [] ∧ t.hs = State.reset.hs ∧ t.rg = State.reset.rg ∧ t.groups = [] ∧ t.eng = State.reset.eng
    ∧ t.codec = State.reset.codec ∧ t.mov = State.reset.mov ∧ t.syn = State.reset.syn ∧ t.start.shut = .none
    ∧ t.host = s.host ∧ t.tick = s.tick ∧ t.rel.repair = s.rel.repair ∧ t.units.epochs = s.units.epochs
    ∧ t.units.markers = s.units.markers ∧ t.vault.images = s.vault.images ∧ t.fw.slotA = s.fw.slotA ∧ t.fw.slotB = s.fw.slotB
    ∧ t.fw.svnFuse = s.fw.svnFuse ∧ t.fw.packFuse = s.fw.packFuse ∧ t.fw.revoked = s.fw.revoked
    ∧ t.evt.store.journal = s.evt.store.journal ∧ t.lnk.epoch = s.lnk.epoch ∧ t.pwr.cal = s.pwr.cal

abbrev Pre.rstNAssert (s : State) : Prop := s.start.pins.rstN = true ∧ s.start.pins.pgood = true
/-- RST_N_ASSERT with PGOOD high resets the Aedvos (R611, R612). -/
def rstNAssert : Prop := ∀ s, Pre.rstNAssert s → ∃ t : State,
  exec .rstNAssert s = .next t ∧ resets s t .reset ∧ t.start.pins.rstN = false ∧ t.start.pins.pgood = true

abbrev Pre.pgoodFall (s : State) : Prop := s.start.pins.pgood = true
/-- PGOOD_FALL resets the Aedvos and turns it OFF (R604, R612, R617). -/
def pgoodFall : Prop := ∀ s, Pre.pgoodFall s → ∃ t : State,
  exec .pgoodFall s = .next t ∧ resets s t .off ∧ t.start.pins.pgood = false ∧ t.regs.taps = State.reset.regs.taps

abbrev Pre.shdnReq (s : State) : Prop :=
  s.start.shut = .none ∧ (s.start.level = .core ∨ s.start.level = .ring) ∧ s.start.pins.shdnReqLow = false
/-- SHDN_REQ writes a notice and starts the grace period of PIN_SHDN_CFG (R614). -/
def shdnReq : Prop := ∀ s, Pre.shdnReq s → ∃ u : State,
  u = (s.setPins { s.start.pins with shdnReqLow := true }).notice 0x0180 0
    ∧ exec .shdnReq s = .next { u with start := { u.start with
        shut := .grace (s.tick + bitsOf s.start.pins.shdnCfg.toNat 31 16 * msTicks) } }

abbrev Pre.graceExpiry (s : State) (t : Nat) : Prop := s.start.shut = .grace t
/-- GRACE_EXPIRY: once the grace period is over the shut-down begins, warm and with the drain time as PIN_SHDN_CFG says
(R614). -/
def graceExpiry : Prop := ∀ s t, Pre.graceExpiry s t →
  let c := s.start.pins.shdnCfg
  exec .graceExpiry s = .next (if t ≤ s.tick then s.beginShutdown (c.getLsbD 0) (bitsOf c.toNat 15 1) none else s)

abbrev Pre.shutdown (s : State) (d : Desc) : Prop := accepts s d shutdownSpec = true
/-- SHUTDOWN begins a shut-down with the command's kind and drain time, PIN_SHDN_CFG's for 0, unless one is under way, which ends
it with SHUTTING_DOWN (R614, R615). -/
def shutdown : Prop := ∀ s d, Pre.shutdown s d →
  exec (.shutdown d) s = .next (if s.shutting then s.complete d.ticket { status := 0x95 } else
    s.beginShutdown (d.f 64 64 = 1) (if d.f 95 80 = 0 then bitsOf s.start.pins.shdnCfg.toNat 15 1 else d.f 95 80) (some d.ticket))

/-- A shut-down begins: no in-field test is due any more, the self-test budget is the one that holds now, an on-demand run under
way stops, the event is recorded, and the drain ends after its time (R550, R569, R614, R615, R618). -/
def beginShutdown : Prop := ∀ (s : State) (warm : Bool) (ms : Nat) (t : Option Ticket),
  let u := s.beginShutdown warm ms t
  u.start.shut = .draining warm (s.tick + ms * msTicks) t ∧ (∀ h : Hub, u.rel.hubs[h].due = [])
    ∧ u.rel.bist.shutBudgetMs = s.rel.bist.budgetMs
    ∧ (s.rel.bist.state = 2 → s.rel.bist.stopCause = 0 → u.rel.bist.stopCause = 1)

abbrev Pre.drainExpiry (s : State) (warm : Bool) (n : Nat) (t : Option Ticket) : Prop := s.start.shut = .draining warm n t
/-- DRAIN_EXPIRY: once DRAIN_MS has passed, or nothing is in flight, the shut-down goes on (R615). -/
def drainExpiry : Prop := ∀ s warm n t, Pre.drainExpiry s warm n t →
  exec .drainExpiry s = .next (if n ≤ s.tick ∨ s.otherInflight t = [] then s.afterDrain warm t else s)

/-- After the drain: the test that follows runs where it is enabled with a budget, no work of a request is left, and after a warm
shut-down no handle is listed, each stack that is not OUT holds this boot's retention marker and every stack is in
self-refresh (R615, R617). -/
def afterDrain : Prop := ∀ (s : State) (warm : Bool) (t : Option Ticket),
  let u := s.afterDrain warm t
  (∃ b, u.start.shut = .testing warm b) ∧ (warm = true → u.hs.list = [])
    ∧ (warm = true → ∀ k : Stack, u.units.selfRefresh[k] = true
        ∧ (u.units.stack[k] ≠ .out → u.units.markers[k] = some u.lnk.epoch))

abbrev Pre.offReady (s : State) (warm : Bool) : Prop :=
  s.start.shut = .testing warm false ∧ s.rel.bist.state ≠ 1 ∧ s.rel.bist.state ≠ 2
/-- OFF_READY once the test is over: OFF_READY is released and SPI is no longer driven (R549, R615, R616). -/
def offReady : Prop := ∀ s warm, Pre.offReady s warm →
  exec .offReady s = .next { s with start := { s.start with
    shut := .offReady, pins := { s.start.pins with offReady := true, spiActive := false } } }

/-! ### Multi-function pins (chapter 18) -/

/-- PIN_MF_SEL0 written with each pin's code 0 to 6: a pin keeps its function or is released for 313 ticks (R625). -/
def mfSelectWrite : Prop := ∀ (s : State) (v : BitVec 32), ∃ p : Pins,
  exec (.mfSelectWrite false v) s = .next { s with start := { s.start with pins := p } }
    ∧ (∀ n < 8, bitsOf p.mfSel.toNat (4 * n + 3) (4 * n)
        = (if 6 < bitsOf v.toNat (4 * n + 3) (4 * n) then 0 else bitsOf v.toNat (4 * n + 3) (4 * n)))
    ∧ (∀ n < 8, bitsOf p.mfSel.toNat (4 * n + 3) (4 * n) ≠ bitsOf s.start.pins.mfSel.toNat (4 * n + 3) (4 * n) →
        (n, s.tick + 313) ∈ p.mfReleasing)
    ∧ p = { s.start.pins with mfSel := p.mfSel, mfReleasing := p.mfReleasing }

/-- MF_RELEASE_END: the pin is released no longer once its count has run, and goes on else (R625). -/
def mfReleaseEnd : Prop := ∀ (s : State) (pin : Fin 12),
  let p := s.start.pins
  exec (.mfReleaseEnd pin) s = .next (
    if ∃ t ≤ s.tick, (pin.val, t) ∈ p.mfReleasing then
      { s with start := { s.start with pins := { p with mfReleasing := p.mfReleasing.filter (fun r => r.1 ≠ pin.val) } } }
    else s)

/-! ### The event recorder and the history store (chapter 19) -/

abbrev Pre.eventRecord (s : State) (h : Hub) (q : Queued) (rest : List Queued) : Prop :=
  s.evt.hubs[h].queue = q :: rest ∧ q.drops = 0 ∧ q.event.cls < 3
/-- EVENT_RECORD writes the oldest event of the hub's queue, and leaves the rest in order (R634 to R636). -/
def eventRecord : Prop := ∀ s h q rest, Pre.eventRecord s h q rest →
  exec (.eventRecord h) s = .next (s.setRecorder h ({ s.evt.hubs[h] with queue := rest }.write h.val q.event q.tick))

abbrev Pre.recordNew (r : Recorder) (e : Event) (tick : Nat) : Prop := r.merges e tick = false ∧ r.newest ≠ 0xFFFFFFFF
/-- A new record has the next SEQ, counts as written, and lies in the pinned area for the first 256 and then in the circulating
area in turn (R634, R635). -/
def recordNew : Prop := ∀ r hub e tick, Pre.recordNew r e tick →
  let t := r.write hub e tick
  let slot := if r.count < 256 then r.count else 256 + r.circ % 3840
  t.newest = r.newest + 1 ∧ t.newestSlot = slot ∧ t.count = r.count + 1 ∧ t.written = r.written + 1
    ∧ t.slots = tabIns r.slots slot { seq := r.newest + 1, event := e, hub := hub, repeats := 0, first := tick, last := tick }
    ∧ t.circ = (if r.count < 256 then r.circ else (r.circ + 1) % 3840)

abbrev Pre.recordMerge (r : Recorder) (e : Event) (tick : Nat) : Prop := r.merges e tick = true
/-- A repeat of the newest record is counted in it, and gives it no new SEQ (R636). -/
def recordMerge : Prop := ∀ r hub e tick, Pre.recordMerge r e tick →
  r.write hub e tick = { r with slots := r.slots.map (fun x =>
    if x.1 = r.newestSlot then (x.1, { x.2 with repeats := x.2.repeats + 1, last := tick }) else x) }

/-- A write of EVR_READ_SLOT latches the record of the slot, 32 zero bytes where it is empty (R639). -/
def evrReadSlotWrite : Prop := ∀ (s : State) (h : Hub) (v : BitVec 32),
  exec (.evrReadSlotWrite h v) s = .next (s.setRecorder h { s.evt.hubs[h] with
    readSlot := v.extractLsb' 0 12, latched := s.evt.hubs[h].slotBytes (bitsOf v.toNat 11 0) })

abbrev Pre.evrRead (s : State) (d : Desc) : Prop := accepts s d (evrReadSpec d) = true ∧ d.f 67 66 = 0
/-- EVR_READ of the live slots delivers COUNT of them from FIRST on, wrapping at 4,096, and the newest SEQ (R639, R640). -/
def evrRead : Prop := ∀ s d, Pre.evrRead s d →
  let r := s.evt.hubs[hubOf (d.f 65 64)]
  let bytes := (List.range (d.f 111 96)).flatMap (fun i => r.slotBytes ((d.f 95 80 + i) % 4096))
  exec (.evrRead d) s = .next (s.complete d.ticket { status := 0, result := r.newest ++ r.newest, xbytes := bytes })

abbrev Pre.evrCperRead (s : State) (d : Desc) : Prop := accepts s d (evrCperReadSpec d) = true
/-- EVR_CPER_READ delivers 320 bytes for each RECORD_SEQ asked for, zeros where no record is held, and counts those held
(R641). -/
def evrCperRead : Prop := ∀ s d, Pre.evrCperRead s d →
  let q (i : Nat) : Nat := (d.f 95 64 + i) % 2 ^ 32
  let one (i : Nat) : List Byte := match s.cperSection (q i) with
    | some b => cperBytes (q i) b
    | none => List.replicate 320 0
  let held := (List.range (d.f 103 96)).filter (fun i => (s.cperSection (q i)).isSome)
  let bytes := (List.range (d.f 103 96)).flatMap one
  exec (.evrCperRead d) s = .next
    (s.complete d.ticket { status := 0, result := BitVec.ofNat 64 held.length, xbytes := bytes })

abbrev Pre.evrNonce (s : State) (d : Desc) : Prop := accepts s d evrNonceSpec = true
/-- EVR_NONCE gives a nonce, which is held from now on in place of the one before; locked, it ends with EVR_AUTH (R643). -/
def evrNonce : Prop := ∀ s d, Pre.evrNonce s d →
  (∀ t, s.evt.auth.lockedAt = some t → exec (.evrNonce d) s = .next (s.complete d.ticket { status := 0x97 }))
    ∧ (s.evt.auth.lockedAt = none → ∃ n : BitVec 64,
        endsOk (.evrNonce d) s { s with freeCount := s.freeCount + 1, evt := { s.evt with
          auth := { s.evt.auth with nonce := some (n, s.tick) } } } d n)

abbrev Pre.evrClear (s : State) (d : Desc) (tok : BitVec 256) (n : BitVec 64) : Prop :=
  accepts s d evrClearSpec = true ∧ s.evt.store.token = some tok ∧ s.evt.auth.live s.tick = some n
/-- EVR_CLEAR with the proof of R643 clears every hub's records as its SCOPE says and uses the nonce up; without it the check
fails (R642 to R644). -/
def evrClear : Prop := ∀ s d tok n, Pre.evrClear s d tok n →
  let scope := d.f 66 64
  exec (.evrClear d) s = .next (
    if authProof tok 0xCB scope n [] = BitVec.ofNat 256 (d.p 0 32) then
      (State.clearRecords { s with evt := { s.evt with auth := { s.evt.auth with nonce := none } } } scope).complete d.ticket
        { status := 0, result := BitVec.ofNat 64 (s.evt.hubs[(0 : Hub)].clear 0 scope s.tick).2 }
    else s.authFail d.ticket 0xCB)

abbrev Pre.evrClearNoToken (s : State) (d : Desc) : Prop := accepts s d evrClearSpec = true ∧ s.evt.store.token = none
/-- EVR_CLEAR with no token provisioned ends with EVR_NO_TOKEN (R642). -/
def evrClearNoToken : Prop := ∀ s d, Pre.evrClearNoToken s d →
  exec (.evrClear d) s = .next (s.complete d.ticket { status := 0x96 })

/-- A failed authority check uses the nonce up and is kept for an hour; the fourth within an hour locks the nonce; the command
ends with EVR_AUTH behind its record (R643). -/
def authFail : Prop := ∀ (s : State) (t : Ticket) (op : Nat), ∃ (u : State) (fs : List Nat),
  s.authFail t op = u.complete t { status := 0x97 } ∧ u.evt.auth.nonce = none ∧ u.evt.auth.fails = fs
    ∧ fs = s.evt.auth.fails.filter (fun x => s.tick - x < 3600000 * msTicks) ++ [s.tick]
    ∧ u.evt.auth.lockedAt = (if 4 ≤ fs.length then some s.tick else s.evt.auth.lockedAt)
    ∧ u.evt.store = s.evt.store ∧ u.hs = s.hs ∧ u.ctxs = s.ctxs ∧ u.host = s.host

abbrev Pre.evrProvision (s : State) (d : Desc) : Prop := accepts s d evrProvisionSpec = true ∧ s.evt.store.token = none
/-- EVR_PROVISION with no token held and a proof of zeros sets the token, and records it; with another proof it fails the check
(R645). -/
def evrProvision : Prop := ∀ s d, Pre.evrProvision s d →
  exec (.evrProvision d) s = .next (if BitVec.ofNat 256 (d.p 0 32) = 0 then
    ((State.event { s with evt := { s.evt with
      store := { s.evt.store with token := some (BitVec.ofNat 256 (d.p 32 32)) },
      auth := { s.evt.auth with nonce := none } } } 0 (ev 0x0002 4 0)).complete d.ticket { status := 0 })
    else s.authFail d.ticket 0xCC)

abbrev Pre.nonceLockoutEnd (s : State) (t : Nat) : Prop := s.evt.auth.lockedAt = some t
/-- NONCE_LOCKOUT_END: ten minutes after the lock-out the nonce is given again, and not before (R643). -/
def nonceLockoutEnd : Prop := ∀ s t, Pre.nonceLockoutEnd s t →
  exec .nonceLockoutEnd s = .next (if t + 600000 * msTicks ≤ s.tick then
    { s with evt := { s.evt with auth := { s.evt.auth with lockedAt := none, fails := [] } } } else s)

abbrev Pre.journalWrite (s : State) (e : JEntry) (rest : List JEntry) : Prop :=
  s.evt.waiting = e :: rest ∧ s.evt.store.ready = true ∧ s.evt.store.stopped = false ∧ s.start.quench.state ≠ 2
/-- JOURNAL_WRITE appends the oldest entry that waits, with the next JSEQ, in the block at the head or, where it does not fit, in
the next (R646, R648). -/
def journalWrite : Prop := ∀ s e rest, Pre.journalWrite s e rest →
  let st := s.evt.store
  let n := 16 + roundUp (e.payload.length + 32 * e.records.length) 16
  let fits := st.bytesInBlock + n ≤ 65504
  let head := if fits then st.head else (st.head + 1) % 818
  exec .journalWrite s = .next { s with evt := { s.evt with waiting := rest, store := { st with
    journal := st.journal ++ [{ e with jseq := st.jseq + 1, block := head }], jseq := st.jseq + 1, head := head,
    bytesInBlock := (if fits then st.bytesInBlock + n else n), erased := (if fits then st.erased else st.erased - 1),
    faults := 0 } } }

abbrev Pre.journalHeld (s : State) : Prop :=
  s.evt.store.ready = false ∨ s.evt.store.stopped = true ∨ s.start.quench.state = 2
/-- Nothing is written while the store cannot be written, or in a quench (R620, R679). -/
def journalHeld : Prop := ∀ s, Pre.journalHeld s → exec .journalWrite s = .next s

abbrev Pre.journalCompact (s : State) : Prop := s.evt.store.ready = true ∧ s.evt.store.stopped = false ∧ s.evt.store.erased < 16
/-- JOURNAL_COMPACT with fewer than 16 erased blocks ahead writes the latest entry of every keyed item as a COMPACT chain and then
erases the oldest blocks (R649). -/
def journalCompact : Prop := ∀ s, Pre.journalCompact s →
  let st := s.evt.store
  let chain := st.latest.map (fun e => { e with typ := 9, key := e.item })
  exec .journalCompact s = .next { s with evt := { s.evt with store := Store.eraseUntil 818 (chain.foldl Store.append st) } }

abbrev Pre.storeFault (s : State) : Prop := s.evt.store.faults < 2 ∧ s.evt.store.stopped = false
/-- STORE_FAULT sets FAULT and its alert, and the write is tried in the next block; the third in a row gives the journal up
(R679). -/
def storeFault : Prop := ∀ s, Pre.storeFault s →
  let st := s.evt.store
  exec .storeFault s = .next (State.alert { s with evt := { s.evt with store := { st with
    fault := true, faults := st.faults + 1, head := (st.head + 1) % 818, bytesInBlock := 0, erased := st.erased - 1 } } } 6)

abbrev Pre.storeStops (s : State) : Prop := 2 ≤ s.evt.store.faults
/-- The third store fault in a row stops the journal until the next start (R679). -/
def storeStops : Prop := ∀ s, Pre.storeStops s → ∃ t : State, exec .storeFault s = .next t ∧ t.evt.store.stopped = true

/-! ### Telemetry (chapter 19) -/

abbrev Pre.telemetrySnapshot (s : State) : Prop := s.tick % msTicks = 0
/-- TELEMETRY_SNAPSHOT at a millisecond: the hub latches page 0, its two stacks' page 1, its eight links' page 2 and the page 3
of each context whose ledgers it holds, 128 bytes each, and its period starts again (R651, R652). -/
def telemetrySnapshot : Prop := ∀ s hub x, Pre.telemetrySnapshot s → ∃ t : State,
  exec (.telemetrySnapshot hub x) s = .next t
    ∧ (t.evt.snaps[hub].map (fun y : Snapshot => (y.page, y.index)))
        = [(0, 0), (1, 2 * hub.val), (1, 2 * hub.val + 1)]
          ++ ((List.finRange 32).filter (fun l => linkHub l == hub)).map (fun l => (2, l.val))
          ++ (s.ctxs.filter (fun c : Ctx => hubOf c.id == hub)).map (fun c => (3, c.id))
    ∧ (∀ y ∈ t.evt.snaps[hub], y.bytes.length = 128)
    ∧ (∀ h : Hub, h ≠ hub → t.evt.snaps[h] = s.evt.snaps[h])
    ∧ t.pwr.hubs[hub].windows = 0 ∧ t.pwr.hubs[hub].periodSlips = 0 ∧ t.evt.hubs[hub].written = 0
    ∧ t.hs = s.hs ∧ t.ctxs = s.ctxs ∧ t.host = s.host ∧ t.rg = s.rg

abbrev Pre.telemRead (s : State) (d : Desc) (y : Snapshot) : Prop :=
  accepts s d (telemReadSpec s d) = true ∧ d.f 67 64 ≤ 2
    ∧ s.evt.snaps[(if d.f 67 64 = 0 then hubOf (d.f 73 72) else if d.f 67 64 = 1 then hubOf (d.f 95 80 / 2)
        else hubOf (d.f 95 80 / 8) : Hub)].find? (fun y : Snapshot => y.page == d.f 67 64 && y.index == d.f 95 80) = some y
/-- TELEM_READ of a hub's, a stack's or a link's page delivers the last snapshot, and its RESULT is the snapshot's tick (R651,
R653). -/
def telemRead : Prop := ∀ s d y, Pre.telemRead s d y →
  exec (.telemRead d) s = .next (State.complete { s with freeCount := s.freeCount + 1 } d.ticket
    { status := 0, result := BitVec.ofNat 64 (leValue (y.bytes.take 8)), xbytes := y.bytes })

/-! ### Registers, paths and pins (chapters 20 and 21) -/

abbrev Pre.registerWrite (s : State) (hub : Hub) (p : RegPath) (off : BitVec 16) (r : WinReg) : Prop :=
  s.pathOpen p hub = true ∧ off.toNat % 4 = 0 ∧ regHere hub off.toNat = some r
/-- REGISTER_WRITE by an open path stores the value in the register the hub holds at the offset (R654, R655). -/
def registerWrite : Prop := ∀ s hub p off v r, Pre.registerWrite s hub p off r →
  exec (.registerWrite hub p off v) s = .next (s.regStore p hub v r)

abbrev Pre.registerMiss (s : State) (hub : Hub) (p : RegPath) (off : BitVec 16) : Prop :=
  s.pathOpen p hub = true ∧ off.toNat % 4 = 0 ∧ regHere hub off.toNat = none
/-- What an access to an offset that the hub does not hold leaves: NOT_HERE set for a register of hub 0, BAD_ACCESS for any other
offset, HUB_REG_ERR latched while both were 0 and kept otherwise, and nothing else changed. -/
def missed (s t : State) (hub : Hub) (p : RegPath) (off : BitVec 16) : Prop := ∃ x : HubRegs,
  t = { s with regs := { s.regs with hubs := Vector.set s.regs.hubs hub.val x } }
    ∧ x.notHere = (s.regs.hubs[hub].notHere || (regAt off.toNat).isSome)
    ∧ x.badAccess = (s.regs.hubs[hub].badAccess || (regAt off.toNat).isNone)
    ∧ (s.regs.hubs[hub].badAccess = true ∨ s.regs.hubs[hub].notHere = true → x.regErr = s.regs.hubs[hub].regErr)
    ∧ (s.regs.hubs[hub].badAccess = false → s.regs.hubs[hub].notHere = false → x.regErr = BitVec.ofNat 32
        ((match p with | .i3c => 1 | .mailbox => 2) * 2 ^ 30 + (if (regAt off.toNat).isSome then 2 else 1) * 2 ^ 28 + off.toNat))

/-- REGISTER_WRITE at an offset the hub does not hold is discarded and flagged, and a read there gives 0 and is flagged alike
(R655, R673). -/
def registerMiss : Prop := ∀ s hub p off, Pre.registerMiss s hub p off →
  (∀ v, ∃ t, exec (.registerWrite hub p off v) s = .next t ∧ missed s t hub p off)
    ∧ (s.regRead p hub off.toNat).1 = 0 ∧ missed s (s.regRead p hub off.toNat).2 hub p off

/-- HUB_REG_ERR keeps its value through every write of it and of HUB_STATUS (R673). -/
def regErrKept : Prop := ∀ (s : State) (p : RegPath) (h : Hub) (v : BitVec 32),
  s.regStore p h v .regErr = s ∧ (s.regStore p h v .hubStatus).regs.hubs[h].regErr = s.regs.hubs[h].regErr

/-- What some registers store of a value: read-only ones keep what they hold, a write of 1 clears a flag, reserved bits store 0,
and a value out of range is stored as the nearest in range (R14, Tables 15-5, 16-6, 17-11, 18-12, 20-3). -/
def registerStores : Prop := ∀ (s : State) (p : RegPath) (h : Hub) (v : BitVec 32),
  s.regStore p h v .hubId = s ∧ s.regStore p h v .epoch = s ∧ s.regStore p h v .tickLo = s
    ∧ s.regStore p h v .scratch = s.setRegs h { s.regs.hubs[h] with scratch := v }
    ∧ s.regStore p h v .pwrIdle = s.setPower h { s.pwr.hubs[h] with idle := v }
    ∧ s.regStore p h v .synCtrl = s.setSync h { s.syn.hubs[h] with ctrl := v &&& 0x00FFFF0F#32 }
    ∧ s.regStore p h v .hctrBaseLo = s.setSync h { s.syn.hubs[h] with baseLo := v &&& 0xFFFFF000#32 }
    ∧ s.regStore p h v .lnkIdle = s.setRegs h { s.regs.hubs[h] with lnkIdle := v.extractLsb' 0 16 }
    ∧ s.regStore p h v .bistBudget = s.setBist { s.rel.bist with budgetMs := min 60000 (bitsOf v.toNat 15 0) }
    ∧ s.regStore p h v .pwrStatus
        = s.setPower h { s.pwr.hubs[h] with overCap := s.pwr.hubs[h].overCap && !v.getLsbD 28 }
    ∧ s.regStore p h v .movEvtPend = s.setMovers h { s.mov.hubs[h] with
        evtHalt := s.mov.hubs[h].evtHalt &&& ~~~(v.extractLsb' 8 8), evtDone := s.mov.hubs[h].evtDone &&& ~~~(v.extractLsb' 0 8) }

abbrev Pre.pathClosed (s : State) (p : RegPath) (hub : Hub) : Prop := s.pathOpen p hub = false
/-- A path that does not reach the hub has no effect (R659, R667). -/
def pathClosed : Prop := ∀ s p hub, Pre.pathClosed s p hub →
  (∀ off v, exec (.registerWrite hub p off v) s = .next s) ∧ (p = .mailbox → exec (.mailboxPoll hub) s = .next s)
    ∧ (p = .i3c → ∀ l, exec (.i3cPrivateWrite hub l) s = .next s) ∧ (p = .i3c → ∀ n, exec (.i3cPrivateRead hub n) s = .next s)

/-- A list of bytes' first two as an offset. -/
def offsetOf (l : List Byte) : Nat := leValue (l.take 2)

abbrev Pre.i3cPrivateWrite (s : State) (hub : Hub) (l : List Byte) : Prop :=
  s.pathOpen .i3c hub = true ∧ 2 ≤ l.length ∧ offsetOf l % 4 = 0 ∧ (l.length - 2) % 4 = 0
/-- I3C_PRIVATE_WRITE of an aligned offset and whole values: the offset is kept for a read, and the registers from it on are
written in turn (R657, R663). -/
def i3cPrivateWrite : Prop := ∀ s hub l, Pre.i3cPrivateWrite s hub l →
  exec (.i3cPrivateWrite hub l) s = .next (State.regWrites .i3c hub (wordsOf ((l.drop 2).take 32)) (offsetOf l)
    (s.setRegs hub { s.regs.hubs[hub] with i3cOffset := some (BitVec.ofNat 16 (offsetOf l)) }))

abbrev Pre.i3cPrivateRead (s : State) (hub : Hub) (o : BitVec 16) : Prop :=
  s.pathOpen .i3c hub = true ∧ s.regs.hubs[hub].i3cOffset = some o
/-- I3C_PRIVATE_READ reads the registers from the offset kept on, and holds as many bytes as were asked for (R657, R663). -/
def i3cPrivateRead : Prop := ∀ s hub n o, Pre.i3cPrivateRead s hub o →
  let r := State.regReads .i3c hub ((n.val + 3) / 4) o.toNat s
  exec (.i3cPrivateRead hub n) s = .next (r.2.setRegs hub { r.2.regs.hubs[hub] with i3cOut := r.1.take n.val })

abbrev Pre.registerRead (h : Hub) (off : Nat) (r : WinReg) : Prop := regHere h off = some r
/-- A register read: its value; SYN_LOCK is acquired where it is free or abandoned, PWR_TICK_LO latches the high half of the
tick, and no other register but PIN_MF_IN's free level changes (R14, R486, R666). -/
def registerRead : Prop := ∀ (s : State) p h off r, Pre.registerRead h off r →
  s.regRead p h off = (BitVec.ofNat 32 (s.regWord h r), s.regTouch p h r)
    ∧ ((∀ l, r ≠ .synLock l) → r ≠ .tickLo → r ≠ .mfIn → s.regTouch p h r = s)
    ∧ (r = .tickLo → s.regTouch p h r = s.setPower h { s.pwr.hubs[h] with tickHi := BitVec.ofNat 32 (s.tick / 2 ^ 32) })
    ∧ (∀ l, r = .synLock l → (∀ b, s.lock h l ≠ .held b) → s.regTouch p h r = s.setLock h l (.held (pathIdentity p h)))

/-- I3C_BUS_RESET: every lock that the hub's I3C path holds is ABANDONED (R488). -/
def i3cBusReset : Prop := ∀ (s : State) (hub : Hub),
  exec (.i3cBusReset hub) s = .next (s.abandonAll (fun b => b == BitVec.ofNat 8 (64 + hub.val)))

abbrev Pre.mailboxPoll (s : State) (hub : Hub) : Prop :=
  s.pathOpen .mailbox hub = true
    ∧ (crc32c ((s.hostRead (s.mailboxAddr hub) 64).take 60)).toNat = leValue ((s.hostRead (s.mailboxAddr hub) 64).drop 60)
    ∧ leValue ((s.hostRead (s.mailboxAddr hub) 64).take 4) ≠ s.regs.hubs[hub].mbSeq.toNat
/-- MAILBOX_POLL of a request with a good CRC and a new SEQ: it is acted on once, and the response line answers it (R659 to
R662). -/
def mailboxPoll : Prop := ∀ s hub, Pre.mailboxPoll s hub →
  let base := s.mailboxAddr hub
  let line := s.hostRead base 64
  let u := s.setRegs hub { s.regs.hubs[hub] with
    mbSeq := BitVec.ofNat 32 (leValue (line.take 4)), mbCrc := BitVec.ofNat 32 (leValue (line.drop 60)) }
  let r := u.mailboxServe hub line
  exec (.mailboxPoll hub) s = .next (r.2.2.hostWrite (base + 64) (mailboxLine (leValue (line.take 4)) r.1
    (leValue ((line.drop 5).take 1)) (leValue ((line.drop 8).take 4)) r.2.1))

abbrev Pre.mailboxBadCrc (s : State) (hub : Hub) : Prop :=
  s.pathOpen .mailbox hub = true
    ∧ (crc32c ((s.hostRead (s.mailboxAddr hub) 64).take 60)).toNat ≠ leValue ((s.hostRead (s.mailboxAddr hub) 64).drop 60)
/-- MAILBOX_POLL of a request whose CRC fails counts it and does nothing else (R660, R661). -/
def mailboxBadCrc : Prop := ∀ s hub, Pre.mailboxBadCrc s hub →
  exec (.mailboxPoll hub) s
    = .next (s.setRegs hub { s.regs.hubs[hub] with crcFails := min 65535 (s.regs.hubs[hub].crcFails + 1) })

abbrev Pre.hubAdminAttach (s : State) (v : BitVec 32) : Prop :=
  s.pathOpen .i3c 0 = true ∧ v.getLsbD 0 = true ∧ v.extractLsb' 16 16 = 0xA7C4#16
/-- HUB_ADMIN_ATTACH with its key: the base of HUB_ADMIN_BASE is in use, ring 0 is attached there, and the locks held through any
hub's mailbox are ABANDONED; without ATTACH or the key nothing happens (R337, R488, R671). -/
def hubAdminAttach : Prop := ∀ s v,
  (Pre.hubAdminAttach s v → exec (.hubAdminAttach v) s = .next ((State.reattach { s with rg := { s.rg with adminUsed := s.rg.adminReg } }
      s.rg.adminReg.toNat s.rg.attaching.isSome).abandonAll (fun b => b.toNat / 64 == 2)))
    ∧ (v.getLsbD 0 = false ∨ v.extractLsb' 16 16 ≠ 0xA7C4#16 → exec (.hubAdminAttach v) s = .next s)

abbrev Pre.adminAttachDone (s : State) (n : BitVec 32) (r : Ring) : Prop :=
  s.rg.attaching = some n ∧ s.ring? 0 = some r ∧ s.hubServes 0 = true ∧ s.adminReady r n = true
/-- ADMIN_ATTACH_DONE once the driver has prepared ring 0: its doorbell is honoured again, and ATTACH_BUSY clears (R337,
R671). -/
def adminAttachDone : Prop := ∀ s n r, Pre.adminAttachDone s n r →
  let u := s.setRing { r with deaf := false }
  exec .adminAttachDone s = .next (({ u with rg := { u.rg with attaching := none } }).readControl 0)

abbrev Pre.jtagTap (s : State) : Prop := s.start.pins.pgood = true
/-- JTAG_TAP: JTAG_TRST_N gives every TAP the instruction IDCODE; an instruction shift gives each TAP its eight bits, hub 0's
first in the chain; a data shift passes as many bits out as in (R604, R692). -/
def jtagTap : Prop := ∀ s, Pre.jtagTap s →
  exec (.jtagTap .trst) s = .next { s with regs := { s.regs with taps := s.regs.taps.map (fun t : Tap => { t with ir := 1 }) } }
    ∧ (∀ codes, exec (.jtagTap (.ir codes)) s = .next { s with regs := { s.regs with
        taps := Vector.ofFn (fun h : Hub => { s.regs.taps[h] with ir := codes.extractLsb' (24 - 8 * h.val) 8 }) } })
    ∧ (∀ tdi, ∃ (v : Vector Tap 4) (out : List Bool), out.length = tdi.length
        ∧ exec (.jtagTap (.dr tdi)) s = .next { s with
            freeCount := s.freeCount + 1, regs := { s.regs with taps := v, tdo := out } })

abbrev Pre.jtagIdcode (s : State) : Prop := s.start.pins.pgood = true ∧ ∀ h : Hub, s.regs.taps[h].ir = 1
/-- A data shift of 128 bits with IDCODE in every TAP reads four copies of the IDCODE (R692, Table 21-7). -/
def jtagIdcode : Prop := ∀ s tdi, Pre.jtagIdcode s → tdi.length = 128 → ∃ t : State,
  exec (.jtagTap (.dr tdi)) s = .next t
    ∧ t.regs.tdo = (List.replicate 4 ((List.range 32).map (fun i => (0x10512E57#32).getLsbD i))).flatten

abbrev Pre.jtagDark (s : State) : Prop := s.start.pins.pgood = false
/-- While PGOOD is low the JTAG chain does nothing (R604). -/
def jtagDark : Prop := ∀ s op, Pre.jtagDark s → exec (.jtagTap op) s = .next s


/-! ### What every descriptor, completion and step goes through -/

/-- The descriptor commands, with the checks R313 makes of each. -/
def described (s : State) : Instr → Option (Desc × DescSpec)
  | .nop d => some (d, nopSpec)
  | .register d => some (d, registerSpec d)
  | .free d => some (d, freeSpec)
  | .freeSet d => some (d, freeSetSpec)
  | .offload d => some (d, offloadSpec d)
  | .offloadFwd d => some (d, offloadFwdSpec d)
  | .restore d => some (d, restoreSpec d)
  | .migrate d => some (d, migrateSpec d)
  | .update d => some (d, updateSpec d)
  | .queryHandle d => some (d, queryHandleSpec d)
  | .loadPlan d => some (d, loadPlanSpec d)
  | .stepBegin d => some (d, stepBeginSpec)
  | .mark d => some (d, markSpec)
  | .stepEnd d => some (d, stepEndSpec)
  | .streamArm d => some (d, streamArmSpec d)
  | .streamFlush d => some (d, streamFlushSpec)
  | .allReduce d => some (d, slabSpec d true)
  | .reduceScatter d => some (d, slabSpec d true)
  | .allGather d => some (d, slabSpec d false)
  | .permute d => some (d, permuteSpec d)
  | .reduceUpdate d => some (d, reduceUpdateSpec d)
  | .updateSeal d => some (d, updateSealSpec d)
  | .checkpoint d => some (d, captureSpec d false)
  | .snapshotSend d => some (d, captureSpec d true)
  | .ckptRestore d => some (d, ckptRestoreSpec d)
  | .ckptDrop d => some (d, ckptDropSpec d)
  | .ckptList d => some (d, ckptListSpec d)
  | .snapshotRead d => some (d, snapshotReadSpec d)
  | .contextCreate d => some (d, contextCreateSpec)
  | .contextDestroy d => some (d, contextDestroySpec)
  | .ringCreate d => some (d, ringCreateSpec d)
  | .ringDestroy d => some (d, ringDestroySpec)
  | .getRingState d => some (d, getRingStateSpec d)
  | .ringAttach d => some (d, ringAttachSpec d)
  | .ringResume d => some (d, ringResumeSpec)
  | .setQuota d => some (d, setQuotaSpec d)
  | .setExport d => some (d, setExportSpec d)
  | .setSeed d => some (d, setSeedSpec)
  | .groupCreate d => some (d, groupCreateSpec d)
  | .groupDestroy d => some (d, groupSpec [])
  | .groupQuery d => some (d, groupQuerySpec)
  | .ckptBind d => some (d, ckptBindSpec)
  | .vaultQuery d => some (d, vaultQuerySpec d)
  | .vaultRelease d => some (d, vaultReleaseSpec)
  | .bistGrant d => some (d, bistGrantSpec d)
  | .bistResults d => some (d, bistResultsSpec d)
  | .bistFailView d => some (d, bistFailViewSpec d)
  | .bistFieldNow d => some (d, bistFieldNowSpec d)
  | .evrRead d => some (d, evrReadSpec d)
  | .evrCperRead d => some (d, evrCperReadSpec d)
  | .evrNonce d => some (d, evrNonceSpec)
  | .evrClear d => some (d, evrClearSpec)
  | .evrProvision d => some (d, evrProvisionSpec)
  | .telemRead d => some (d, telemReadSpec s d)
  | .shutdown d => some (d, shutdownSpec)
  | .imageLoad d => some (d, imageLoadSpec d)
  | .slotQuery d => some (d, slotQuerySpec)
  | .slotActivate d => some (d, slotActivateSpec)
  | .slotConfirm d => some (d, slotConfirmSpec)
  | .linkQuery d => some (d, linkQuerySpec d)
  | .linkSetCap d => some (d, linkSetCapSpec)
  | .linkDisable d => some (d, linkSpec d)
  | .linkEnable d => some (d, linkSpec d)
  | .linkRetrain d => some (d, linkSpec d)
  | _ => none

abbrev Pre.checkFails (s : State) (i : Instr) (d : Desc) (x : DescSpec) (r : Ring) (e : BitVec 8) : Prop :=
  described s i = some (d, x) ∧ s.ring? d.ring.toNat = some r ∧ s.serves d.ring.toNat = true ∧ r.mayStart d = true
    ∧ s.writeWaits r d = false ∧ descCheck r.sqOrder d x = some e
/-- A descriptor that fails a check of R313 ends with the first failing check's status, without an extended result, and does
nothing else. -/
def checkFails : Prop := ∀ s i d x r e, Pre.checkFails s i d x r e →
  exec i s = .next (s.complete { d.ticket with xres := false } { status := e })

/-- Steps 2 to 6 of R313 in their order: the ring the opcode is allowed on, EXT and the wrap of its four slots, the reserved
fields, the ranges and a needed XRES, and the addresses. -/
def checkOrder : Prop := ∀ (n : Nat) (d : Desc) (x : DescSpec),
  let ringBad := (d.ring = 0 ∧ x.admin = false) ∨ (d.ring ≠ 0 ∧ x.job = false)
  let extBad := d.ext ≠ x.ext ∨ (d.ext = true ∧ ringSize n < d.sseq.toNat % ringSize n + 4)
  let rangeBad := 6 < d.prio.toNat ∨ x.range = false ∨ (x.needX = true ∧ d.xres = false)
  let addrBad := (∃ a ∈ x.addrs, a.1 % a.2 ≠ 0 ∨ 2 ^ 57 ≤ a.1)
    ∨ (d.xres = true ∧ (d.resultAddr = 0 ∨ d.resultAddr.toNat % 64 ≠ 0 ∨ 2 ^ 57 ≤ d.resultAddr.toNat))
  (ringBad → descCheck n d x = some 0x04)
    ∧ (¬ringBad → extBad → descCheck n d x = some 0x06)
    ∧ (¬ringBad → ¬extBad → reservedSet d x = true → descCheck n d x = some 0x02)
    ∧ (¬ringBad → ¬extBad → reservedSet d x = false → rangeBad → descCheck n d x = some 0x03)
    ∧ (¬ringBad → ¬extBad → reservedSet d x = false → ¬rangeBad → addrBad → descCheck n d x = some 0x05)
    ∧ (¬ringBad → ¬extBad → reservedSet d x = false → ¬rangeBad → ¬addrBad → descCheck n d x = none)

/-- An in-flight descriptor has a lower SSEQ than another. -/
def earlier (d : Desc) (f : Fetched) : Prop := (d.sseq - f.sseq).toNat - 1 < 2 ^ 31 ∧ f.sseq ≠ d.sseq

abbrev Pre.orderWaits (s : State) (i : Instr) (d : Desc) (x : DescSpec) (r : Ring) (f : Fetched) : Prop :=
  described s i = some (d, x) ∧ s.ring? d.ring.toNat = some r ∧ f ∈ r.inflight ∧ earlier d f
    ∧ (d.order = true ∨ f.slot.getLsbD 54 = true)
/-- A descriptor with ORDER waits for every descriptor of its ring with a lower SSEQ, and every descriptor waits for one with
ORDER and a lower SSEQ (R327). -/
def orderWaits : Prop := ∀ s i d x r f, Pre.orderWaits s i d x r f → exec i s = .next s

abbrev Pre.writeWaits (s : State) (i : Instr) (d : Desc) (x : DescSpec) (r : Ring) : Prop :=
  described s i = some (d, x) ∧ s.ring? d.ring.toNat = some r
    ∧ (s.writeWaits r d = true ∨ s.serves d.ring.toNat = false ∨ (x.moves = true ∧ s.stalled = true ∧ descCheck r.sqOrder d x = none))
/-- A command waits, and changes nothing, while an earlier one of its ring writes an address it writes, while its ring is not
served, and in a quench where it moves data (R33, R606, R621). -/
def writeWaits : Prop := ∀ s i d x r, Pre.writeWaits s i d x r → exec i s = .next s

/-! ### Completions -/

/-- The completion entry of a command. -/
def entryOf (r : Ring) (t : Ticket) (d : Done) : BitVec 128 :=
  cqEntry (r.cqTail + BitVec.ofNat 32 r.held.length) (t.sseq.toNat % 65536) d.status d.flags t.xres 0 d.result

/-- The host address of a ring's next CQ entry. -/
def nextEntry (r : Ring) : Nat := r.cqAddr + 16 * (r.cqTail.toNat % 2 ^ (6 + r.cqOrder))

abbrev Pre.completionWritten (s : State) (t : Ticket) (d : Done) (r : Ring) : Prop :=
  hostWf s = true ∧ s.ring? t.ring = some r ∧ r.held = [] ∧ r.destroying = none ∧ (r.cqTail - r.cqHead).toNat < 2 ^ (6 + r.cqOrder)
    ∧ (t.quiet = false ∨ d.status ≠ 0) ∧ (r.ctrlAddr + 80 ≤ nextEntry r ∨ nextEntry r + 16 ≤ r.ctrlAddr + 72)
/-- A completion with room in the CQ: its entry is at CQ index CSEQ mod CQ size, CQ_TAIL is one more and is in the control block,
the descriptor is no longer in flight, and host memory is otherwise as it was but for the extended result (R304, R309, R321,
R324). -/
def completionWritten : Prop := ∀ s t d r, Pre.completionWritten s t d r →
  let u := s.complete t d
  u.hostRead (nextEntry r) 16 = leBytes 16 (entryOf r t d).toNat
    ∧ u.hostRead (r.ctrlAddr + 72) 8 = leBytes 8 (r.cqTail + 1).toNat
    ∧ u.ring? t.ring = some { r with cqTail := r.cqTail + 1, inflight := r.inflight.filter (fun f => f.sseq ≠ t.sseq) }
    ∧ (∀ id, id ≠ t.ring → u.ring? id = s.ring? id)
    ∧ hostKept s u ((if t.xres then [(t.resultAddr, d.xbytes.length)] else []) ++ [(nextEntry r, 16), (r.ctrlAddr + 72, 8)])
    ∧ u = { s with host := u.host, rg := u.rg }

abbrev Pre.completionQuiet (s : State) (t : Ticket) (d : Done) (r : Ring) : Prop :=
  s.ring? t.ring = some r ∧ r.destroying = none ∧ t.quiet = true ∧ d.status = 0
/-- With QUIET a SUCCESS writes no entry and takes no CSEQ (R322). -/
def completionQuiet : Prop := ∀ s t d r, Pre.completionQuiet s t d r →
  let u := s.setRing { r with inflight := r.inflight.filter (fun f => f.sseq ≠ t.sseq) }
  s.complete t d = if t.xres then u.hostWrite t.resultAddr d.xbytes else u

abbrev Pre.completionHeld (s : State) (t : Ticket) (d : Done) (r : Ring) : Prop :=
  s.ring? t.ring = some r ∧ r.destroying = none ∧ (t.quiet = false ∨ d.status ≠ 0)
    ∧ (r.held ≠ [] ∨ 2 ^ (6 + r.cqOrder) ≤ (r.cqTail - r.cqHead).toNat)
/-- A completion that finds no room, or others held before it, is held behind them with the CSEQ that follows (R329, R331). -/
def completionHeld : Prop := ∀ s t d r, Pre.completionHeld s t d r →
  let x : Ring := { r with inflight := r.inflight.filter (fun f => f.sseq ≠ t.sseq) }
  let u := if t.xres then (s.setRing x).hostWrite t.resultAddr d.xbytes else s.setRing x
  s.complete t d = u.setRing { x with held := r.held ++ [entryOf r t d] }

abbrev Pre.unsolicitedLost (s : State) (ring : Nat) (r : Ring) : Prop :=
  s.ring? ring = some r ∧ (65536 ≤ r.held.length ∨ (262144 ≤ s.heldOn (hubOf ring) ∧ r.held ≠ []))
/-- An unsolicited completion that finds no room in the hold store is discarded and counted in LOST; the first discard queues
a LOST entry, naming the CSEQ it follows and the discards, and is recorded (R331). -/
def unsolicitedLost : Prop := ∀ s ring r ssl status flags xres kind result, Pre.unsolicitedLost s ring r →
  let next := r.cqTail + BitVec.ofNat 32 r.held.length
  s.post ring true ssl status flags xres kind result = if r.lostQueued then s.setRing { r with lost := r.lost + 1 }
    else (s.setRing { r with lost := r.lost + 1, lostQueued := true
                             held := r.held ++ [cqEntry next 0 0x08 0 false 4 ((r.lost + 1) ++ (next - 1))] }).event (hubOf ring)
      (ev 0x00A1 1 (ring + (r.lost + 1).toNat * 2 ^ 32))

abbrev Pre.fetchHeld (s : State) (ring : BitVec 16) (r : Ring) : Prop := s.ring? ring.toNat = some r ∧ r.held ≠ []
/-- No descriptor is fetched from a ring that holds a completion (R330). -/
def fetchHeld : Prop := ∀ s ring r, Pre.fetchHeld s ring r → exec (.descriptorFetch ring) s = .next s

/-! ### Doorbell bits, counters, generations -/

/-- The doorbell bit of ring n: SWAP_DATA's ring for it is n, it lies in the bytes and lines of hub n mod 4, and bit i of a word
of the bitmap is bit i mod 8 of its byte ⌊i / 8⌋ (R305). -/
def doorbellBits : Prop := ∀ (s : State) (n : Nat), n < 65536 →
  let b := 16384 * (n % 4) + n / 4
  4 * (b % 16384) + b / 16384 = n
    ∧ (2048 * (n % 4) ≤ b / 8 ∧ b / 8 < 2048 * (n % 4) + 2048) ∧ (32 * (n % 4) ≤ b / 512 ∧ b / 512 < 32 * (n % 4) + 32)
    ∧ bitOf (s.hostNum (s.lineAddr 0 + 8 * (b / 64)) 8) (b % 64) = bitOf (tabGet 0 s.host.mem (s.lineAddr 0 + b / 8)).toNat (b % 8)

abbrev Pre.raises (s : State) (h : Hub) : Prop := tabWf 0 s.syn.hubs[h].ctrs = true
/-- After any set of raises a counter's value has risen by the sum of their increments modulo 2^32, whatever their order, and no
other counter of any hub has changed (R459). -/
def raises : Prop := ∀ s h, Pre.raises s h → ∀ (c : Nat) (ns : List (BitVec 32)),
  let u := ns.foldl (fun (u : State) n => u.raiseHost h c n) s
  u.hostCtr h c = s.hostCtr h c + ns.sum
    ∧ (∀ ms : List (BitVec 32), ms.Perm ns → (ms.foldl (fun (u : State) n => u.raiseHost h c n) s).hostCtr h c = u.hostCtr h c)
    ∧ (∀ k, k ≠ c → u.hostCtr h k = s.hostCtr h k) ∧ (∀ g : Hub, g ≠ h → ∀ k, u.hostCtr g k = s.hostCtr g k)

/-- The generation after a reset is 1, each later one is one more, and 255 is followed by 1; REGISTER gives the object its next
generation and leaves every other object's (R41). -/
def generations : Prop :=
  (∀ k, nextGen (State.reset.genOf k) = 1) ∧ (∀ (s : State) lv cause k, nextGen ((s.afterReset lv cause).genOf k) = 1)
    ∧ nextGen 255 = 1 ∧ (∀ g, g ≠ 255 → nextGen g = g + 1)
    ∧ ∀ s d c g f tie, Pre.register s d c g f tie → ∃ (t : State) (h : Handle),
        let k : HKey := { ctx := s.descCtx d, obj := d.f 103 64 }
        exec (.register d) s = .next t ∧ t.handle? k = some h ∧ h.gen = nextGen (s.genOf k) ∧ t.genOf k = h.gen
          ∧ ∀ j, j ≠ k → t.genOf j = s.genOf j

abbrev Pre.waitingFails (s : State) (k : HKey) (h : Handle) (f : Fill) (w : WaitingRestore) (r : HopEnd) : Prop :=
  s.stalled = false ∧ s.handle? k = some h ∧ h.fill = some f ∧ h.state = .filling ∧ r ≠ HopEnd.ok ∧ f.run = none ∧ f.op = none
    ∧ h.waiting = [w] ∧ w.batch = none
/-- A restore that waits for a fill ends with the status the fill ends with (R59). -/
def waitingFails : Prop := ∀ s k h f w r, Pre.waitingFails s k h f w r → ∃ u : State,
  exec (.fillComplete k r) s
    = .next ((u.complete f.ticket { status := HopEnd.code r }).complete w.ticket { status := HopEnd.code r })

/-- FREE of a live handle does what FREE_SET does to each handle of its set (R48). -/
def freeOne : Prop := ∀ s d h, Pre.free s d h → endsOk (.free d) s (s.freeHandle h) d 0

/-! ### Registers of channels, ALERT_N, the event queue -/

abbrev Pre.shadowLate (s : State) (hub : Hub) (p : RegPath) (off : BitVec 16) (c w : Nat) : Prop :=
  s.pathOpen p hub = true ∧ off.toNat % 4 = 0 ∧ regHere hub off.toNat = some (.mov c (.shadow w)) ∧ s.isDirect hub c = true
    ∧ (s.chan hub c).shadowValid = true
/-- A write to a shadow register while SHADOW_VALID is 1 is discarded and sets LATE_WRITE (R362). -/
def shadowLate : Prop := ∀ s hub p off v c w, Pre.shadowLate s hub p off c w →
  exec (.registerWrite hub p off v) s = .next (s.setChan hub c { s.chan hub c with lateWrite := true })

abbrev Pre.notDirect (s : State) (hub : Hub) (p : RegPath) (off : BitVec 16) (c : Nat) (r : MovReg) : Prop :=
  s.pathOpen p hub = true ∧ off.toNat % 4 = 0 ∧ regHere hub off.toNat = some (.mov c r) ∧ s.isDirect hub c = false
    ∧ ((∃ w, r = .shadow w) ∨ r = .cmd ∨ r = .prio)
/-- Writes to the shadow set, MOV_CMD and MOV_PRIO of a channel not held in direct mode are discarded (R381). -/
def notDirect : Prop := ∀ s hub p off v c r, Pre.notDirect s hub p off c r → exec (.registerWrite hub p off v) s = .next s

/-- Every channel's registers read the same whether or not it is held in direct mode, and the read changes nothing (R381). -/
def movRead : Prop := ∀ (s : State) (p : RegPath) (hub : Hub) (off : Nat) (c : Nat) (r : MovReg),
  regHere hub off = some (.mov c r) → s.regRead p hub off = (BitVec.ofNat 32 ((s.chan hub c).reg r), s)

/-- ALERT_N is asserted while a bit of CAUSE whose MASK bit is set is 1, and in a quench (R632). -/
def alertPin : Prop := ∀ s : State, s.alertN = true ↔
  (∃ b < 8, s.start.pins.alertCause.getLsbD b = true ∧ s.start.pins.alertMask.getLsbD b = true) ∨ s.start.quench.state = 2

abbrev Pre.eventQueue (s : State) (h : Hub) (e : Event) : Prop := s.evt.hubs[h].en = true ∨ 1 < e.cls
/-- An event joins a queue of fewer than 64, with the drops before it; a full queue drops it, and DROPPED, which saturates, rises
by 1 (R637). -/
def eventQueue : Prop := ∀ s h e, Pre.eventQueue s h e →
  let r := s.evt.hubs[h]
  s.event h e = s.setRecorder h (if r.queue.length < 64
    then { r with queue := r.queue ++ [{ drops := r.droppedSince, tick := s.tick, event := e }], droppedSince := 0 }
    else { r with dropped := min (r.dropped + 1) 65535, droppedSince := r.droppedSince + 1 })

abbrev Pre.eventDropped (s : State) (h : Hub) (q : Queued) (rest : List Queued) : Prop :=
  s.evt.hubs[h].queue = q :: rest ∧ 0 < q.drops ∧ q.event.cls < 3
/-- The first event after drops is preceded by a record EVR_DROPPED whose DETAIL holds them (R637). -/
def eventDropped : Prop := ∀ s h q rest, Pre.eventDropped s h q rest →
  let e : Event := { code := 0x0004, cls := 1, kind := 0, index := 0, detail := BitVec.ofNat 64 q.drops }
  exec (.eventRecord h) s = .next (s.setRecorder h
    ((({ s.evt.hubs[h] with queue := rest } : Recorder).write h.val e q.tick).write h.val q.event q.tick))

abbrev Pre.provisionReplaces (s : State) (d : Desc) (tok : BitVec 256) : Prop :=
  accepts s d evrProvisionSpec = true ∧ s.evt.store.token = some tok
/-- EVR_PROVISION with a token held: a proof made with the old token and a valid nonce replaces it and is recorded; any other
fails the check (R645). -/
def provisionReplaces : Prop := ∀ s d tok, Pre.provisionReplaces s d tok →
  let new : BitVec 256 := BitVec.ofNat 256 (d.p 32 32)
  let ok (n : BitVec 64) : Prop := authProof tok 0xCC 0 n (leBytes 32 new.toNat) = BitVec.ofNat 256 (d.p 0 32)
  (∀ n, s.evt.auth.live s.tick = some n → ok n → exec (.evrProvision d) s = .next ((State.event { s with evt := { s.evt with
      store := { s.evt.store with token := some new }, auth := { s.evt.auth with nonce := none } } } 0
        (ev 0x0002 4 1)).complete d.ticket { status := 0 }))
    ∧ ((∀ n, s.evt.auth.live s.tick = some n → ¬ok n) → exec (.evrProvision d) s = .next (s.authFail d.ticket 0xCC))

abbrev Pre.telemPage3 (s : State) (d : Desc) (c : Ctx) : Prop :=
  accepts s d (telemReadSpec s d) = true ∧ d.f 67 64 = 3 ∧ s.ctx? (d.f 95 80) = some c
/-- After a TELEM_READ of page 3 each highest charge of the context equals the present charge and its spill count is 0 (R653). -/
def telemPage3 : Prop := ∀ s d c, Pre.telemPage3 s d c → ∃ t : State, exec (.telemRead d) s = .next t
  ∧ t.ctx? (d.f 95 80) = some { c with shade := { c.shade with peak := c.shade.charge }, spills := 0
                                       umbra := { c.umbra with peak := c.umbra.charge }
                                       penumbra := { c.penumbra with peak := c.penumbra.charge } }
  ∧ (∀ id, id ≠ d.f 95 80 → t.ctx? id = s.ctx? id)

abbrev Pre.telemRange (s : State) (d : Desc) (r : Ring) : Prop :=
  s.ring? d.ring.toNat = some r ∧ s.serves d.ring.toNat = true ∧ r.mayStart d = true ∧ s.writeWaits r d = false
    ∧ descCheck r.sqOrder d { telemReadSpec s d with range := true } = none
    ∧ (3 < d.f 67 64 ∨ (d.f 67 64 = 0 ∧ d.f 95 80 ≠ 0) ∨ (d.f 67 64 = 1 ∧ 8 ≤ d.f 95 80) ∨ (d.f 67 64 = 2 ∧ 32 ≤ d.f 95 80)
      ∨ (d.f 67 64 = 3 ∧ s.ctx? (d.f 95 80) = none))
/-- A PAGE above 3, an INDEX out of range and a context not created end with BAD_FIELD (R653). -/
def telemRange : Prop := ∀ s d r, Pre.telemRange s d r →
  exec (.telemRead d) s = .next (s.complete { d.ticket with xres := false } { status := 0x03 })

abbrev Pre.storeBlank (s : State) : Prop :=
  (s.start.level = .core ∨ s.start.level = .ring) ∧ s.evt.store.ready = false ∧ s.start.storeCold = false
    ∧ s.evt.store.valid = false
/-- JOURNAL_READ_AT_START of a store with no valid superblock: EMPTY and STORE_COLD are set, no token is held, the journal is
erased, and slots and packs are empty (R678). -/
def storeBlank : Prop := ∀ s, Pre.storeBlank s → ∃ t : State, exec (.journalReadAtStart true) s = .next t
  ∧ t.evt.store.empty = true ∧ t.evt.store.ready = true ∧ t.evt.store.valid = true ∧ t.evt.store.token = none
  ∧ t.evt.store.journal = [] ∧ t.start.storeCold = true ∧ t.fw.slotA.state = .empty ∧ t.fw.slotB.state = .empty ∧ t.fw.packs = []
  ∧ t.fw.svnFuse = s.fw.svnFuse ∧ t.host = s.host ∧ t.start.level = s.start.level

abbrev Pre.adminBase (s : State) (v : BitVec 32) (r : Ring) : Prop := Pre.hubAdminAttach s v ∧ s.ring? 0 = some r
/-- HUB_ADMIN_BASE resets to ADMIN_BASE; a write of it changes no base in use; from an accepted write of HUB_ADMIN_ATTACH on the
summary lines are read, and ring 0 served, at the base it then holds (R605). -/
def adminBase : Prop :=
  State.reset.rg.adminReg = adminTieOff ∧ State.reset.rg.adminUsed = adminTieOff
    ∧ (∀ (s : State) p h v, (s.regStore p h v .adminBaseLo).rg = { s.rg with
          adminReg := s.rg.adminReg.extractLsb' 32 25 ++ (v &&& 0xFFFFF000#32) }
        ∧ (s.regStore p h v .adminBaseHi).rg = { s.rg with adminReg := v.extractLsb' 0 25 ++ s.rg.adminReg.extractLsb' 0 32 })
    ∧ ∀ s v r, Pre.adminBase s v r → ∃ (t : State) (x : Ring), exec (.hubAdminAttach v) s = .next t
        ∧ t.rg.adminUsed = s.rg.adminReg ∧ (∀ n, t.lineAddr n = s.rg.adminReg.toNat + 64 * n) ∧ t.ring? 0 = some x
        ∧ x.ctrlAddr = s.rg.adminReg.toNat + 0x2000 ∧ x.sqAddr = s.rg.adminReg.toNat + 0x3000
        ∧ x.cqAddr = s.rg.adminReg.toNat + 0x7000 ∧ x.deaf = true ∧ x.sqHead = r.sqHead ∧ x.cqTail = r.cqTail
        ∧ t.rg.attaching = some r.cqTail

/-! ### Steps, reset and what no step undoes -/

/-- A step takes the command at the front of the queue and answers what it does to the state with the queue's rest. -/
def stepFront : Prop := ∀ (s : State) (c : Instr) (rest : List Instr),
  step { s with pending := c :: rest } = exec c { s with pending := rest }

/-- On an empty queue one tick is counted, and none in a quench from the loss of TBCLK: the model's choice (assumption 3). -/
def stepIdle : Prop := ∀ s : State, s.pending = [] →
  step s = .next (if s.start.quench.state = 2 ∧ s.start.quench.cause = 3 then s else { s with tick := s.tick + 1 })

/-- The commands that name a unit by its kind and place. -/
def testsUnit : Instr → Bool
  | .targetedTest .. | .testDecision .. | .scrubPass .. | .fieldTestDue .. | .fieldTestStart .. | .fieldTestEnd ..
  | .deferTimeout .. => true
  | _ => false

/-- Every command answers a next state in every state, but for the seven that name a unit of the package, which fault where there
is no such unit. -/
def neverRefuses : Prop := ∀ i s, (∃ t, exec i s = .next t) ∨ (exec i s = .fault .noSuchUnit ∧ testsUnit i = true)

/-- The values the spec gives for reset: no command waits; no context, handle, group or plan; ring 0 alone, of order 2, limit 64
and counters 0; counters 0; level RESET; the set-up registers' reset values (R41, R303, R304, R458, R606, Tables 10-3, 13-7 to
13-11, 15-5, 16-6, 17-10, 17-11, 18-12, 19-10, 20-4 to 20-9). -/
def resetValues : Prop :=
  let s := State.reset
  s.ctxs = [] ∧ s.hs.list = [] ∧ s.groups = [] ∧ s.rg.list.map (fun r : Ring => (r.id, r.sqOrder, r.cqOrder, r.limit)) = [(0, 2, 2, 64)]
    ∧ s.rg.list.map (fun r : Ring => (r.sqHead, r.cqTail, r.lost)) = [(0, 0, 0)] ∧ s.start.level = .reset
    ∧ (∀ h : Hub, (∀ c, s.hostCtr h c = 0) ∧ s.mov.hubs[h].directGranted = 0 ∧ (∀ c, (s.chan h c).state = .idle)
        ∧ s.syn.hubs[h].ctrl = 0x00140800#32 ∧ s.rel.hubs[h].scrub = 0x8008003C#32 ∧ s.rel.hubs[h].field = 0x1814000F#32
        ∧ s.pwr.hubs[h].idle = 0x00C803E8#32 ∧ s.pwr.hubs[h].trip = 115 ∧ s.pwr.hubs[h].throttle = 100
        ∧ s.regs.hubs[h].laneBer = 0x3727C5AC#32 ∧ s.regs.hubs[h].startEn = 0xFF ∧ s.regs.hubs[h].scratch = 0
        ∧ s.evt.hubs[h].en = true ∧ s.evt.hubs[h].newest = 0 ∧ s.evt.hubs[h].slots = [])
    ∧ (∀ (h : Hub) c, s.ctrCfg h c = 0x08000000#32) ∧ (∀ b : Fin 8, s.syn.bars[b].state = .disabled)
    ∧ (∀ (h : Hub) l, s.lock h l = .free) ∧ (∀ l : LinkNo, s.lnk.links[l].state = .off)
    ∧ s.rel.bist.budgetMs = 0 ∧ s.rel.bist.en = true ∧ s.pwr.mgr.cap = 0x800002EE#32 ∧ s.pwr.mgr.mode = 0x000A0002#32
    ∧ s.start.quench.discMs = 5 ∧ s.start.quench.state = 0 ∧ s.start.pins.alertMask = 0x0F ∧ s.start.pins.shdnCfg = 0x03E800C8#32
    ∧ s.regs.dupRate = 6

/-- Host memory lists strictly rising addresses and no default, in the reset state. -/
def resetHost : Prop := hostWf State.reset = true

/-- Every step keeps host memory and its poison marks in canonical form. -/
def stepHost : Prop := ∀ s t, hostWf s = true → step s = .next t → hostWf t = true

/-- Every step takes at most the command at the front from the queue, adds none, and leaves the rest in order. -/
def stepQueue : Prop := ∀ s t, step s = .next t → t.pending = s.pending.tail

/-- No step lowers the fuse counter of firmware, or changes that of packs or the revoked keys; and free values are never taken
twice, since their count never falls (R627, R631, and assumption 2 for the count). -/
def stepFuses : Prop := ∀ s t, step s = .next t →
  s.fw.svnFuse.toNat ≤ t.fw.svnFuse.toNat ∧ t.fw.packFuse = s.fw.packFuse ∧ t.fw.revoked = s.fw.revoked ∧ s.freeCount ≤ t.freeCount

end Sys2Proof.Claims
open Sys2Proof

/-- For every state and command, the step of the state with that command at the front of its queue is exec of the
command on the state with the rest of the queue. The queue is the model's own form of a block.
(95_what_each_step_holds.md) -/
def Obligations.StepTakesTheFrontCommand : Prop :=
  Claims.stepFront

/-- With no command waiting a step adds one to the tick count and changes nothing else, and changes nothing in a
quench from the loss of TBCLK. That the tick stands on the empty queue is the model's choice, log entry 3. (R10, R577,
R578) -/
def Obligations.EmptyQueueCountsOneTick : Prop :=
  Claims.stepIdle

/-- In State.reset there is no context, handle or group, ring 0 alone is in use with order 2, limit 64 and counters 0,
every host-visible counter is 0, every lock is FREE, every link OFF, every mover channel IDLE, the level is RESET, and
the set-up registers named hold their Reset values. (R41, R303, R304, R458, R606, 20_registers.md) -/
def Obligations.ResetGivesTheSpecifiedValues : Prop :=
  Claims.resetValues

/-- In State.reset host memory and its poison marks list strictly rising addresses and no default value. (R1, R29) -/
def Obligations.ResetHostMemoryIsCanonical : Prop :=
  Claims.resetHost

/-- For every state whose host memory and poison marks are in canonical form, whenever a step answers a next state,
its host memory and poison marks are in canonical form too. (R1, R29, R343) -/
def Obligations.StepKeepsHostMemoryCanonical : Prop :=
  Claims.stepHost

/-- Whenever a step answers a next state: its queue is the old queue without its front command, the firmware fuse
counter is no lower, the fuse counter of packs and the revoked keys are the same, and the model's count of free values
(log entry 2) is no lower. (R627, R628, R631) -/
def Obligations.StepNeverLowersTheFuses : Prop :=
  Claims.stepQueue ∧ Claims.stepFuses

/-- exec of every command in every state answers a next state, except TARGETED_TEST, TEST_DECISION, SCRUB_PASS,
FIELD_TEST_DUE, FIELD_TEST_START, FIELD_TEST_END and DEFER_TIMEOUT, which may fault with noSuchUnit; they do so
exactly where the unit named is none of the package's. No command is ever refused. (R530, R534, 15_reliability.md) -/
def Obligations.CommandsAlwaysAnswer : Prop :=
  Claims.neverRefuses ∧ Claims.noSuchUnit

/-- For each of the 64 descriptor commands: one that fails a check of R313 ends with the first failing check's status,
without an extended result, and does nothing else; the checks of steps 2 to 6 come in their order with their statuses;
an OPCODE that is not listed ends with BAD_OPCODE as it is fetched; and a command waits, unchanged, behind an earlier
write of the same address, on a ring not served, and in a quench where it moves data. (R313, R33, R18, R606, R621) -/
def Obligations.DescriptorChecksInOrder : Prop :=
  Claims.checkFails ∧ Claims.checkOrder ∧ Claims.writeWaits ∧ Claims.fetchOpcode

/-- For each of the 64 descriptor commands: while a descriptor with a lower SSEQ is in flight on its ring, a
descriptor with ORDER 1 changes nothing when it is tried; and while a descriptor with ORDER 1 and a lower SSEQ is in
flight, any descriptor changes nothing when it is tried. (R327) -/
def Obligations.OrderFlagHoldsDescriptorsBack : Prop :=
  Claims.orderWaits

/-- With QUIET a SUCCESS writes no entry and takes no CSEQ, and any other status writes its entry whatever QUIET
holds. An entry with room lies at CQ index CSEQ mod CQ size, CQ_TAIL rises by one and is written, and no other byte of
host memory changes but the extended result's; an entry without room, or behind held ones, is held with the CSEQ that
follows; an unsolicited one without room in the hold store is discarded and counted, and the first discard queues a
LOST entry. (R322) -/
def Obligations.CompletionEntriesOfCommands : Prop :=
  Claims.completionWritten ∧ Claims.completionQuiet ∧ Claims.completionHeld ∧ Claims.unsolicitedLost

/-- DESCRIPTOR_FETCH of one plain slot puts its descriptor in flight, and SQ_HEAD passes it and is written; from a
ring that holds a completion nothing is fetched; SEQ_GAP stops the ring, records it and posts its entry (the number
beside the one named is a free value, log entry 2); CQ_HEAD_REREAD takes CQ_HEAD from host memory, shortens the replay
window and writes held completions while there is room. (R330) -/
def Obligations.DescriptorsAreFetched : Prop :=
  Claims.descriptorFetch ∧ Claims.fetchHeld ∧ Claims.seqGap ∧ Claims.cqHeadReread

/-- Bit b = 16,384 (n mod 4) + n / 4 of the bitmap is the doorbell of ring n, lies in the bytes and lines of hub n mod
4, and is bit b mod 8 of byte b / 8; SWAP_DATA zeroes its word and rings the ring of each bit that was set;
SUMMARY_POLL asks by SWAP0 for each word not zero of its hub's 32 lines, WATCH for those of one line. (R305) -/
def Obligations.DoorbellBitsNameRings : Prop :=
  Claims.doorbellBits ∧ Claims.summaryPoll ∧ Claims.watch ∧ Claims.swapData

/-- HOST_FLIT_RECEIVE, HOST_PORT_RESEND, HOST_PORT_RETRAINED and HOST_MODULE_LEFT_OUT leave exactly the states the
claims give: a whole flit in order is acknowledged and its ACK, NAK and credits act; a bad one is NAKed;
unacknowledged flits are sent again, at most 8 times before the port retrains; modules leave and rejoin and are
recorded. (R338, R344, R345, R488) -/
def Obligations.HostPortFlitsAndModules : Prop :=
  Claims.hostFlitReceive ∧ Claims.hostFlitBad ∧ Claims.hostPortResend ∧ Claims.hostPortRetrained ∧
  Claims.hostModuleLeftOut

/-- RD_DATA, WR_ERR, FENCE_ACK, FENCE_TIMEOUT and HOST_PORT_TIMEOUT leave exactly the states the claims give. The
address in FENCE_TIMEOUT's record is a free value (log entry 2). (R31, R32, R157, R316, R343, R346, R376) -/
def Obligations.HostPortAnswersAndTimeouts : Prop :=
  Claims.rdData ∧ Claims.wrErr ∧ Claims.fenceAck ∧ Claims.fenceTimeout ∧ Claims.hostPortTimeout

/-- NOP, CONTEXT_CREATE, CONTEXT_DESTROY, SET_QUOTA, SET_EXPORT and SET_SEED complete with the states the claims give:
a new context with quotas, charges and seed 0; a destroyed one gone; the quota, grant or seed set and the old value as
the RESULT. (R136, R137, R285, R383, R402, R470, 09_queue_interface.md) -/
def Obligations.ContextsQuotasAndSeeds : Prop :=
  Claims.nop ∧ Claims.contextCreate ∧ Claims.contextDestroy ∧ Claims.setQuota ∧ Claims.setExport ∧ Claims.setSeed

/-- RING_CREATE adds a ring with every counter 0; RING_DESTROY removes an idle ring or waits for its commands;
GET_RING_STATE delivers the records asked for; RING_ATTACH gives a ring its new geometry and leaves the other job
rings; RING_RESUME makes a STOPPED ring ACTIVE. (R301, R302, R304, R336, 09_queue_interface.md) -/
def Obligations.RingsAreCreatedAndAttached : Prop :=
  Claims.ringCreate ∧ Claims.ringDestroy ∧ Claims.getRingState ∧ Claims.ringAttach ∧ Claims.ringResume

/-- REGISTER adds the entry of its object with its fields, no home and no charge; its generation is 1 after a reset,
one more than the last afterwards, and 1 after 255; no other object's generation changes. (R41) -/
def Obligations.RegistrationsTakeGenerations : Prop :=
  Claims.register ∧ Claims.generations

/-- FREE_SET does to each live handle of one set of the context what FREE does to its handle, and answers how many;
FREE leaves its handle in FREEING without fill or migration; HANDLE_FREED of a FREEING handle with no reader and no
pin returns its charges and removes it. (R48) -/
def Obligations.HandlesAreFreed : Prop :=
  Claims.free ∧ Claims.freeSet ∧ Claims.freeOne ∧ Claims.handleFreed

/-- A raw RESTORE from a KEEP handle delivers its host range and completes with the digest; UPDATE writes the range
named, or counts alone for KEEP, and answers the count; QUERY_HANDLE delivers the entry or the narrow report and the
tile digests asked for. (R43, R54, R61, R85, R88, R318, 09_queue_interface.md) -/
def Obligations.KeptRangesUpdatesAndQueries : Prop :=
  Claims.restoreKeep ∧ Claims.update ∧ Claims.queryHandle

/-- An OFFLOAD that passes its checks begins its fill, charged and with a home for every stripe, and takes its source;
one its ledger does not take ends with QUOTA_EXCEEDED and does nothing; an OFFLOAD_FWD begins its fills and its run
together; READY_BLOCK_READ asks for the next block once its counter is reached. (R53, R76, R82, R129, R140, R251,
R316, R700) -/
def Obligations.FillsBegin : Prop :=
  Claims.offload ∧ Claims.beginFill ∧ Claims.fillOverQuota ∧ Claims.offloadFwd ∧ Claims.readyBlockRead

/-- A RESTORE of a FILLING handle waits with it, of a handle on compressed homes has its blocks expanded, and of any
other is delivered at once. FILL_COMPLETE of a fill that is in leaves the handle RESIDENT, or LATENT where it is
RECOMPUTE, and completes; of one that failed leaves it REGISTERED and uncharged and completes with that status, and a
restore that waited ends with the same status. (R59) -/
def Obligations.FillsEndAndRestoresWait : Prop :=
  Claims.restore ∧ Claims.fillComplete ∧ Claims.endFill ∧ Claims.fillFailed ∧ Claims.waitingFails

/-- MIGRATE starts a migration with its charge and its stripes to move, or releases the home at once where the goal is
RECOMPUTE; STRIPE_COMMIT switches one stripe's home or stops the migration with CHECK_FAILED; OLD_LOCATION_RELEASE and
MIGRATION_STOPPED leave the states the claims give. (R56, R62, R64, R65, R66, R141, R146) -/
def Obligations.MigrationsMoveStripes : Prop :=
  Claims.migrate ∧ Claims.startMigrate ∧ Claims.migrateRecompute ∧ Claims.stripeCommit ∧ Claims.stripeFailed ∧
  Claims.oldLocationRelease ∧ Claims.migrationStopped

/-- LOAD_PLAN, STEP_BEGIN, MARK, STEP_END and STEP_END_COMPLETE complete with the states the claims give; an image
that fails a check is refused with that check's status and index, and nothing changes. (R92, R93, R94, R104, R124,
R163, R223, R484) -/
def Obligations.PlansAndSteps : Prop :=
  Claims.loadPlan ∧ Claims.planRefused ∧ Claims.stepBegin ∧ Claims.mark ∧ Claims.stepEnd ∧ Claims.stepEndComplete

/-- BATCH_ISSUE, BATCH_COMPLETE and CONTROLLER_EVALUATE leave the states the claims give, and the controller's first
action raises priorities by one. A projection for which no rate is stated is a free value (log entry 15). (R108, R109,
R111, R113, R115, R116, R123, R124, R125) -/
def Obligations.BatchesAndTheController : Prop :=
  Claims.batchIssue ∧ Claims.batchComplete ∧ Claims.controllerEvaluate ∧ Claims.controllerPriority

/-- STREAM_ARM, STREAM_FLUSH, STREAM_FETCH_START, STREAM_FETCH_DONE, STREAM_DELIVER, STREAM_DELIVERY_DONE and
SLOT_RELEASE leave the states the claims give. (R160, R161, R162, R163, R164, R165, R166, R167) -/
def Obligations.WeightStreams : Prop :=
  Claims.streamArm ∧ Claims.streamFlush ∧ Claims.streamFetchStart ∧ Claims.streamFetchDone ∧ Claims.streamDeliver
  ∧ Claims.streamDeliveryDone ∧ Claims.slotRelease

/-- UNIT_REDUCED, UNIT_FREEZE, DRAIN_START, UNIT_EMPTIED, UNIT_RETURN, UNIT_OUT, PENUMBRA_OUT and PENUMBRA_RESEND
leave the states the claims give. (R73, R74, R144, R148, R151, R152, R155, R156, R402, R512, R545) -/
def Obligations.UnitsOfTheTiers : Prop :=
  Claims.unitReduced ∧ Claims.setUnit ∧ Claims.unitFreeze ∧ Claims.drainStart ∧ Claims.unitEmptied ∧
  Claims.unitReturn ∧ Claims.unitOut ∧ Claims.penumbraOut ∧ Claims.penumbraWaits ∧ Claims.penumbraResend

/-- LANE_JOB, COURSE_COMPRESS, BLOCK_EXPAND, LANE_RETIRED, GLINT_REQUEST, GLINT_MEM_DATA and GLINT_RESET leave the
states the claims give. (R195, R196, R197, R201, R203, R205, R206, R207, R208, R227, R534) -/
def Obligations.CodecLanesAndGlints : Prop :=
  Claims.laneJob ∧ Claims.courseCompress ∧ Claims.blockExpand ∧ Claims.endLaneRequest ∧ Claims.laneRetired ∧
  Claims.glintRequest ∧ Claims.glintMemData ∧ Claims.glintReset

/-- WAVE_START, TILE_END, DUPLICATE_COMPARE, ENGINE_RETIRED, CHAIN_SPLICE, RECIPE_STALL and WAIT_REEVALUATE leave the
states the claims give. (R80, R233, R235, R237, R262, R264, R266, R267, R268, R270, R461, R471) -/
def Obligations.TilesOfRecipeRuns : Prop :=
  Claims.waveStart ∧ Claims.tileEnd ∧ Claims.duplicateCompare ∧ Claims.duplicateThird ∧ Claims.engineRetired ∧
  Claims.chainSplice ∧ Claims.recipeStall ∧ Claims.waitReevaluate

/-- CONFIG, LOOP, WAIT, SIGNAL, DIGEST, LOAD, STORE, LDLS, STLS, LDROWS and STACC, each with its code at the op its
tile has come to, change the engine as their claims give and nothing else. (R82, R243, R249, R253, R260, R265, R269,
R297, R462, R463, 07_recompute_engines.md) -/
def Obligations.OpsOfControlAndMovement : Prop :=
  Claims.opConfig ∧ Claims.opLoop ∧ Claims.opWait ∧ Claims.opWaitStill ∧ Claims.opSignal ∧ Claims.opDigest ∧
  Claims.opLoad ∧ Claims.opLoadWhole ∧ Claims.opStore ∧ Claims.opLdls ∧ Claims.opStls ∧ Claims.opLdrows ∧
  Claims.opStacc

/-- ADD, SUB, MUL, FMA, MAX, MIN, ADDS, MULS, RELU, LRELU, GELU, SIGMOID, TANH, SILU, MASKGEN, MASKAPPLY, DROPOUT and
RELUMASK write VD with their results, each rounded once, and its flags, and change nothing else; a transcendental
result that its bounds do not settle is the value of log entry 5. (R241, R242, R245, R246, R252,
07_recompute_engines.md, 08_numerics.md) -/
def Obligations.OpsOnElements : Prop :=
  Claims.opAdd ∧ Claims.opSub ∧ Claims.opMul ∧ Claims.opFma ∧ Claims.opMax ∧ Claims.opMin ∧ Claims.opAdds ∧
  Claims.opMuls ∧ Claims.opRelu ∧ Claims.opLrelu ∧ Claims.opGelu ∧ Claims.opSigmoid ∧ Claims.opTanh ∧
  Claims.opSilu ∧ Claims.opMaskgen ∧ Claims.opMaskapply ∧ Claims.opDropout ∧ Claims.opRelumask

/-- LNORM, RMSNORM, RSUM, RSUMSQ, ACCZERO, ACCRD, POOL, CAT, TRANSP, MM, MMOUT, QUANT, DEQUANT and CVT change the
engine as their claims give, their tile goes on to the next op, and everything else stays. (R247, R248, R249, R250,
R287, R288, R289, R290, R291, 07_recompute_engines.md) -/
def Obligations.OpsOnVectorsAndAccumulators : Prop :=
  Claims.opLnorm ∧ Claims.opRmsnorm ∧ Claims.opRsum ∧ Claims.opRsumsq ∧ Claims.opAcczero ∧ Claims.opAccrd ∧
  Claims.opPool ∧ Claims.opCat ∧ Claims.opTransp ∧ Claims.opMm ∧ Claims.opMmout ∧ Claims.opQuant ∧
  Claims.opDequant ∧ Claims.opCvt

/-- EVENT_PULSE, MOV_LOAD, MOV_ABORT, MOV_RESUME, MOV_PRIO_WRITE, BURST_GRANT, TRANSFER_COMPLETE, BUS_ERROR,
CHANNEL_RETIRED, MOV_DIRECT_REQ and DIRECT_GRANT leave the states the claims give; a copying burst writes the bytes of
its patterns and nothing else. (R353, R355, R361, R363, R365, R366, R367, R369, R375, R377, R380, R460) -/
def Obligations.MoverChannels : Prop :=
  Claims.eventPulse ∧ Claims.movLoad ∧ Claims.movAbort ∧ Claims.movResume ∧ Claims.movPrioWrite ∧
  Claims.burstGrant ∧ Claims.burstMoves ∧ Claims.transferComplete ∧ Claims.busError ∧ Claims.channelRetired ∧
  Claims.movDirectReq ∧ Claims.directGrant

/-- A register write to the shadow set of a channel held in direct mode whose SHADOW_VALID is 1 only sets LATE_WRITE;
a write to the shadow set, MOV_CMD or MOV_PRIO of a channel not held in direct mode changes nothing; every register of
every channel can be read, and the read changes nothing. (R362, R381) -/
def Obligations.ShadowWritesOfChannels : Prop :=
  Claims.shadowLate ∧ Claims.notDirect ∧ Claims.movRead

/-- After any set of raises, in any order, a counter has risen by the sum of their increments modulo 2^32 and no other
counter has changed; MIRROR_WRITE, POST_POLL, WAKE_IN, LONG_WAIT, SYN_CTR_CFG_WRITE and SYN_CTR_VAL_WRITE leave the
states the claims give. (R459) -/
def Obligations.CountersAreRaised : Prop :=
  Claims.raises ∧ Claims.mirrorWrite ∧ Claims.postPoll ∧ Claims.wakeIn ∧ Claims.takePost ∧ Claims.longWait ∧
  Claims.synCtrCfgWrite ∧ Claims.synCtrValWrite

/-- BARRIER, BARRIER_ARRIVE, BEACON_COMPLETE, BEACON_HOLD_END, BARRIER_COMPLETE, BARRIER_TIMEOUT and SYN_BAR_CFG_WRITE
leave the states the claims give. (R476, R478, R479, R480, R481, R482, R483) -/
def Obligations.BarriersOfTheSyncBlock : Prop :=
  Claims.barrier ∧ Claims.barrierArrive ∧ Claims.beaconComplete ∧ Claims.beaconHoldEnd ∧ Claims.barrierComplete ∧
  Claims.barDone ∧ Claims.barrierTimeout ∧ Claims.synBarCfgWrite

/-- LOCK_ACQUIRE gives a FREE or ABANDONED lock to the requester and leaves a HELD one; LOCK_RELEASE by the holder
makes it FREE and by any other is discarded and counted; LOCK_ABANDON of a HELD lock makes it ABANDONED and is
recorded; I3C_BUS_RESET abandons the locks of the hub's I3C path. (R487) -/
def Obligations.LocksOfTheSyncBlock : Prop :=
  Claims.lockAcquire ∧ Claims.lockRelease ∧ Claims.lockAbandon ∧ Claims.i3cBusReset

/-- LINK_FRAME_RECEIVE, LINK_RESEND, LINK_RETRAIN_DONE, LANE_BAD, LANE_BER, LANE_CTRL, SPARE_LANE_TRAINED,
LINK_TRAINED and TRAINING_RETRY leave the states the claims give. (R392, R393, R394, R395, R396, R397, R398, R400) -/
def Obligations.LinkFramesAndLanes : Prop :=
  Claims.linkFrameReceive ∧ Claims.linkFrameBad ∧ Claims.linkFrameOther ∧ Claims.linkResend ∧
  Claims.linkRetrainDone ∧ Claims.laneBad ∧ Claims.laneBer ∧ Claims.laneCtrl ∧ Claims.spareLaneTrained ∧
  Claims.linkTrained ∧ Claims.trainingRetry

/-- HELLO, GRANT, REMOTE_SIGNAL, SIGNAL_RESEND, SIGNAL_TIMEOUT, LINK_L1_ENTRY and LINK_L1_WAKE leave the states the
claims give. (R399, R401, R402, R405, R407, R408, R409, R411, R412, R416) -/
def Obligations.PeersGrantsAndSignals : Prop :=
  Claims.hello ∧ Claims.helloVersions ∧ Claims.grant ∧ Claims.remoteSignal ∧ Claims.remoteSignalOnce ∧
  Claims.signalResend ∧ Claims.signalTimeout ∧ Claims.linkL1Entry ∧ Claims.linkL1Wake

/-- The five link admin commands complete with the states the claims give. (R413, R414, R415, 11_links.md) -/
def Obligations.LinkAdminCommands : Prop :=
  Claims.linkQuery ∧ Claims.linkSetCap ∧ Claims.linkDisable ∧ Claims.linkEnable ∧ Claims.linkRetrain

/-- GROUP_CREATE, GROUP_DESTROY, GROUP_QUERY, ALL_REDUCE, REDUCE_SCATTER, ALL_GATHER, UPDATE_SEAL and PERMUTE leave
the states the claims give, and collectives of a group start in COLL_SEQ order. RESULTs the manual does not give are
free values (log entry 2). (R419, R420, R422, R423, R425, R426, R427, R451) -/
def Obligations.GroupsAndSlabCollectives : Prop :=
  Claims.groupCreate ∧ Claims.groupDestroy ∧ Claims.groupQuery ∧ Claims.allReduce ∧ Claims.reduceScatter ∧
  Claims.allGather ∧ Claims.updateSeal ∧ Claims.joinColl ∧ Claims.startOrder ∧ Claims.permute

/-- REDUCE_UPDATE, COLL_DATA, COLL_SEAL, COLL_FORM, COLL_ABORT, FORMATION_TIMEOUT, SEAL_DECIDE and SEAL_TIMEOUT leave
the states the claims give, and sums have the fixed order of R431. (R424, R430, R431, R432, R433, R439, R441, R446,
R447, R448, R449, R450) -/
def Obligations.ReductionsAndSeals : Prop :=
  Claims.reduceUpdate ∧ Claims.reduceUpdateStep ∧ Claims.slabTotal ∧ Claims.sumOrder ∧ Claims.collData ∧
  Claims.collSeal ∧ Claims.collTake ∧ Claims.collForm ∧ Claims.collAbort ∧ Claims.formationTimeout ∧
  Claims.groupBroken ∧ Claims.sealDecide ∧ Claims.sealTimeout

/-- VAULT_CREATE, VAULT_SEAL, VAULT_DROP, VAULT_LIST, VAULT_STATUS, WRITING_IMAGE_EXPIRY, VAULT_QUERY, VAULT_RELEASE
and CKPT_BIND leave the states the claims give. RESULTs the manual does not give are free values (log entry 2). (R490,
R491, R492, R495, R497, R498, R501, R502, 14_checkpoints_and_snapshots.md) -/
def Obligations.VaultImages : Prop :=
  Claims.vaultCreate ∧ Claims.vaultCreateTwice ∧ Claims.vaultSeal ∧ Claims.vaultDrop ∧ Claims.vaultList ∧
  Claims.vaultStatus ∧ Claims.vaultAnswer ∧ Claims.writingImageExpiry ∧ Claims.vaultQuery ∧ Claims.vaultRelease ∧
  Claims.ckptBind

/-- PN_RD, PN_WR, PN_RD_DATA and PN_WR_ACK leave the states the claims give. (R64, R155, R357, R390, R403, R404, R496,
11_links.md) -/
def Obligations.PeerWindowTraffic : Prop :=
  Claims.pnRd ∧ Claims.pnRdImage ∧ Claims.pnWr ∧ Claims.pnWrBad ∧ Claims.pnWrRequest ∧ Claims.pnRdData ∧
  Claims.pnWrAck ∧ Claims.answerLate ∧ Claims.pnCheckAgain

/-- CKPT_RESTORE, CKPT_DROP, CKPT_LIST, CHECKPOINT, SNAPSHOT_SEND, SNAPSHOT_READ and OWN_IMAGE_POLL leave the states
the claims give. (R492, R493, R494, R496, R503, R505, R507, 14_checkpoints_and_snapshots.md) -/
def Obligations.CheckpointCommands : Prop :=
  Claims.ckptRestore ∧ Claims.ckptDrop ∧ Claims.ckptList ∧ Claims.checkpoint ∧ Claims.snapshotSend ∧
  Claims.snapshotRead ∧ Claims.ownImagePoll ∧ Claims.ownImageAsked ∧ Claims.beginOp

/-- ROW_RETIRE, SLICE_REPLACE, PAGE_RETIRE, TARGETED_TEST, TEST_DECISION and SCRUB_PASS leave the states the claims
give, and a decision is the one R531 gives. (R529, R530, R531, R532, R533, R534, R537, R538, R539, R540, R545) -/
def Obligations.FaultsRepairsAndScrubbing : Prop :=
  Claims.rowRetire ∧ Claims.rowRetireNone ∧ Claims.sliceReplace ∧ Claims.pageRetire ∧ Claims.targetedTest ∧
  Claims.testDecision ∧ Claims.judgement ∧ Claims.historyCounts ∧ Claims.scrubPass ∧ Claims.poisonHome

/-- BIST_GRANT, BIST_RESULTS, BIST_FAIL_VIEW, BIST_START, SHUTDOWN_TEST, SLICE_START, SLICE_END and SLICE_TIMEOUT
leave the states the claims give. (R549, R550, R551, R553, R554, R555, R556, R560, R561, R563) -/
def Obligations.SelfTestRuns : Prop :=
  Claims.bistGrant ∧ Claims.bistResults ∧ Claims.bistFailView ∧ Claims.bistStart ∧ Claims.bistStartRefused ∧
  Claims.beginRun ∧ Claims.shutdownTest ∧ Claims.sliceStart ∧ Claims.sliceEnd ∧ Claims.sliceTimeout ∧
  Claims.endSlice

/-- BIST_FIELD_NOW, FIELD_TEST_DUE, FIELD_TEST_START, FIELD_TEST_END, DEFER_TIMEOUT, CALIBRATION_RECHECK, DRIFT_CHECK,
RECALIBRATION_DONE and RETENTION_MONITOR leave the states the claims give. (R564, R565, R566, R567, R568, R598, R599,
R600, R686) -/
def Obligations.FieldTestsAndCalibration : Prop :=
  Claims.bistFieldNow ∧ Claims.fieldTestDue ∧ Claims.fieldTestStart ∧ Claims.fieldTestEnd ∧ Claims.fieldTestPass ∧
  Claims.deferTimeout ∧ Claims.calibrationRecheck ∧ Claims.driftCheck ∧ Claims.recalibrationDone ∧
  Claims.retentionMonitor

/-- PWR_MODE_WRITE, PWR_CAP_WRITE, RETAIN_ENTRY, WAKE_REQUEST, RAMP_DONE, DOMAIN_ON, ALIGN, PLL_LOCK_TIMEOUT,
TBCLK_LOSS, PACE_WINDOW_END and BUDGET_WITHDRAW leave the states the claims give. (R572, R577, R578, R579, R582, R583,
R586, R588, R590, R593, R597) -/
def Obligations.PowerPaceAndTiming : Prop :=
  Claims.pwrModeWrite ∧ Claims.pwrCapWrite ∧ Claims.retainEntry ∧ Claims.wakeRequest ∧ Claims.rampDone ∧
  Claims.domainOn ∧ Claims.align ∧ Claims.alignRetry ∧ Claims.pllLockTimeout ∧ Claims.tbclkLoss ∧
  Claims.paceWindowEnd ∧ Claims.paceMode ∧ Claims.budgetWithdraw

/-- ALERT_N is asserted exactly while a CAUSE bit whose MASK bit is set is 1, or in a quench; QUENCH_CHANNEL,
DISCREPANCY_EXPIRY, QUENCH, CLEAR_READY and QUENCH_CLEAR leave the states the claims give. (R632) -/
def Obligations.AlertAndQuench : Prop :=
  Claims.alertPin ∧ Claims.quenchChannel ∧ Claims.discrepancyExpiry ∧ Claims.quench ∧ Claims.quenchAgain ∧
  Claims.clearReady ∧ Claims.clearReadyWhen ∧ Claims.quenchClear

/-- IMAGE_LOAD, SLOT_QUERY, SLOT_ACTIVATE, SLOT_CONFIRM and PATCH_BANK_SWITCH leave the states the claims give, and an
image whose SVN is below the fuse counter fails its check. With no active slot the RESULT of SLOT_ACTIVATE is a free
value (log entry 2). (R627, R628, R629, R630, R631, 18_startup_and_signals.md) -/
def Obligations.FirmwareSlotsAndImages : Prop :=
  Claims.imageLoad ∧ Claims.imageLoadActive ∧ Claims.imageRollback ∧ Claims.slotQuery ∧ Claims.slotActivate ∧
  Claims.slotConfirm ∧ Claims.patchBankSwitch

/-- START, RING_LEVEL, UMBRA_READY, LINKS_READY and JOURNAL_READ_AT_START leave the states the claims give. (R606,
R607, R608, R610, R611, R613, R650, R669, R675, R678) -/
def Obligations.StartLevels : Prop :=
  Claims.start ∧ Claims.ringLevel ∧ Claims.umbraReady ∧ Claims.linksReady ∧ Claims.journalReadAtStart ∧
  Claims.journalUnreadable ∧ Claims.storeBlank

/-- RST_N_ASSERT, PGOOD_FALL, SHDN_REQ, GRACE_EXPIRY, SHUTDOWN, DRAIN_EXPIRY, OFF_READY, MF_SELECT_WRITE and
MF_RELEASE_END leave the states the claims give. (R49, R549, R604, R612, R614, R615, R616, R617, R618, R625) -/
def Obligations.ResetShutDownAndPins : Prop :=
  Claims.rstNAssert ∧ Claims.pgoodFall ∧ Claims.shdnReq ∧ Claims.graceExpiry ∧ Claims.shutdown ∧
  Claims.beginShutdown ∧ Claims.drainExpiry ∧ Claims.afterDrain ∧ Claims.offReady ∧ Claims.mfSelectWrite ∧
  Claims.mfReleaseEnd

/-- An event joins the queue of 64 or is dropped and counted; EVENT_RECORD writes the oldest of the queue, behind an
EVR_DROPPED record where events were dropped before it; a new record takes the next SEQ and slot, a repeat is counted
in the newest; a write of EVR_READ_SLOT latches one record. (R637) -/
def Obligations.EventsAreRecorded : Prop :=
  Claims.eventRecord ∧ Claims.recordNew ∧ Claims.recordMerge ∧ Claims.eventQueue ∧ Claims.eventDropped ∧
  Claims.evrReadSlotWrite

/-- EVR_READ, EVR_CPER_READ, EVR_NONCE, EVR_CLEAR and NONCE_LOCKOUT_END leave the states the claims give, and a failed
authority check is counted, locks the nonce at the fourth within an hour, and ends with EVR_AUTH. (R639, R640, R641,
R642, R643, R644) -/
def Obligations.RecorderReadsAndClears : Prop :=
  Claims.evrRead ∧ Claims.evrCperRead ∧ Claims.evrNonce ∧ Claims.evrClear ∧ Claims.evrClearNoToken ∧
  Claims.authFail ∧ Claims.nonceLockoutEnd

/-- With no token held a proof of zeros sets the token and is recorded, and any other proof fails the check; with a
token held, a proof made with it and a valid nonce replaces it and is recorded, and any other fails the check. (R645)
-/
def Obligations.TokenIsProvisioned : Prop :=
  Claims.evrProvision ∧ Claims.provisionReplaces

/-- JOURNAL_WRITE, JOURNAL_COMPACT and STORE_FAULT leave the states the claims give. How many blocks JOURNAL_COMPACT
erases is log entry 12. (R620, R646, R648, R649, R679) -/
def Obligations.JournalOfTheHistoryStore : Prop :=
  Claims.journalWrite ∧ Claims.journalHeld ∧ Claims.journalCompact ∧ Claims.storeFault ∧ Claims.storeStops

/-- TELEMETRY_SNAPSHOT latches each page of its hub; TELEM_READ delivers the last snapshot; after page 3 each highest
charge equals the present charge and the spill count is 0; a PAGE above 3, an INDEX out of range and a context not
created end with BAD_FIELD. (R653) -/
def Obligations.TelemetryPages : Prop :=
  Claims.telemetrySnapshot ∧ Claims.telemRead ∧ Claims.telemPage3 ∧ Claims.telemRange

/-- A register write stores what the register's access type gives; a read gives its value; an offset the hub does not
hold reads 0 and discards writes, sets BAD_ACCESS, or NOT_HERE for a register of hub 0, and HUB_REG_ERR latches while
both were 0 and keeps its value otherwise; a path that does not reach the hub has no effect. (R655, R673) -/
def Obligations.RegistersOfTheWindow : Prop :=
  Claims.registerWrite ∧ Claims.registerMiss ∧ Claims.regErrKept ∧ Claims.registerStores ∧ Claims.pathClosed ∧
  Claims.registerRead

/-- I3C_PRIVATE_WRITE, I3C_PRIVATE_READ, MAILBOX_POLL, HUB_ADMIN_ATTACH, ADMIN_ATTACH_DONE and JTAG_TAP leave the
states the claims give. (R337, R488, R604, R605, R657, R659, R660, R661, R663, R671, R692, R693) -/
def Obligations.AccessPathsAndAdminBase : Prop :=
  Claims.i3cPrivateWrite ∧ Claims.i3cPrivateRead ∧ Claims.mailboxPoll ∧ Claims.mailboxBadCrc ∧
  Claims.hubAdminAttach ∧ Claims.adminAttachDone ∧ Claims.adminBase ∧ Claims.jtagTap ∧ Claims.jtagIdcode ∧
  Claims.jtagDark
end

