-- ==== Sys2Proof/Laws/Table.lean ====
section
/-!
SUPPORT. Sparse tables: every operation on one keeps its canonical form, and a read after a write gives what was written
there and leaves every other place alone.
-/
namespace Sys2Proof.Machine

variable {α : Type} [DecidableEq α] {d : α}

theorem tabWfFrom_mono {t : Tab α} {lo lo' : Nat} (h : tabWfFrom d lo t = true) (hl : lo' ≤ lo) :
    tabWfFrom d lo' t = true := by
  cases t with
  | nil => rfl
  | cons e t =>
    simp only [tabWfFrom, Bool.and_eq_true, decide_eq_true_eq] at h ⊢
    exact ⟨⟨by omega, h.1.2⟩, h.2⟩

theorem tabDel_wf {t : Tab α} {lo : Nat} (k : Nat) (h : tabWfFrom d lo t = true) : tabWfFrom d lo (tabDel t k) = true := by
  induction t generalizing lo with
  | nil => exact h
  | cons e t ih =>
    simp only [tabWfFrom, Bool.and_eq_true, decide_eq_true_eq] at h
    simp only [tabDel]
    split
    · exact tabWfFrom_mono h.2 (by omega)
    · simp only [tabWfFrom, Bool.and_eq_true, decide_eq_true_eq]
      exact ⟨h.1, ih h.2⟩

theorem tabIns_wf {t : Tab α} {lo k : Nat} {v : α} (hv : v ≠ d) (h : tabWfFrom d lo t = true) :
    tabWfFrom d (min lo k) (tabIns t k v) = true := by
  induction t generalizing lo with
  | nil => simp [tabIns, tabWfFrom, hv]
  | cons e t ih =>
    simp only [tabWfFrom, Bool.and_eq_true, decide_eq_true_eq] at h
    simp only [tabIns]
    split
    · simp only [tabWfFrom, Bool.and_eq_true, decide_eq_true_eq]
      exact ⟨⟨by omega, hv⟩, ⟨by omega, h.1.2⟩, h.2⟩
    · split
      · rename_i h2
        subst h2
        simp only [tabWfFrom, Bool.and_eq_true, decide_eq_true_eq]
        exact ⟨⟨by omega, hv⟩, h.2⟩
      · simp only [tabWfFrom, Bool.and_eq_true, decide_eq_true_eq]
        exact ⟨⟨by omega, h.1.2⟩, tabWfFrom_mono (ih h.2) (by omega)⟩

/-- A write keeps the canonical form. -/
theorem tabPut_wf {t : Tab α} {k : Nat} {v : α} (h : tabWf d t = true) : tabWf d (tabPut d t k v) = true := by
  unfold tabPut
  split
  · exact tabDel_wf k h
  · rename_i hv
    exact tabWfFrom_mono (tabIns_wf hv h) (Nat.zero_le _)

theorem tabWfFrom_bound {t : Tab α} {lo : Nat} (h : tabWfFrom d lo t = true) : ∀ e ∈ t, lo ≤ e.1 := by
  induction t generalizing lo with
  | nil => simp
  | cons e t ih =>
    simp only [tabWfFrom, Bool.and_eq_true, decide_eq_true_eq] at h
    intro x hx
    rcases List.mem_cons.mp hx with rfl | hx
    · exact h.1.1
    · have := ih h.2 x hx
      omega

theorem tabWfFrom_append {t u : Tab α} {lo m : Nat} (ht : tabWfFrom d lo t = true) (hu : tabWfFrom d m u = true)
    (hlm : lo ≤ m) (hb : ∀ e ∈ t, e.1 < m) : tabWfFrom d lo (t ++ u) = true := by
  induction t generalizing lo with
  | nil => exact tabWfFrom_mono hu hlm
  | cons e t ih =>
    simp only [tabWfFrom, Bool.and_eq_true, decide_eq_true_eq] at ht
    simp only [List.cons_append, tabWfFrom, Bool.and_eq_true, decide_eq_true_eq]
    refine ⟨ht.1, ih ht.2 ?_ (fun x hx => hb x (List.mem_cons_of_mem _ hx))⟩
    have := hb e List.mem_cons_self
    omega

theorem tabWfFrom_filter {t : Tab α} {lo : Nat} (p : Nat × α → Bool) (h : tabWfFrom d lo t = true) :
    tabWfFrom d lo (t.filter p) = true := by
  induction t generalizing lo with
  | nil => exact h
  | cons e t ih =>
    simp only [tabWfFrom, Bool.and_eq_true, decide_eq_true_eq] at h
    rw [List.filter_cons]
    split
    · simp only [tabWfFrom, Bool.and_eq_true, decide_eq_true_eq]
      exact ⟨h.1, ih h.2⟩
    · exact tabWfFrom_mono (ih h.2) (by omega)

theorem tabWfFrom_raise {t : Tab α} {lo m : Nat} (h : tabWfFrom d lo t = true) (hb : ∀ e ∈ t, m ≤ e.1) :
    tabWfFrom d m t = true := by
  cases t with
  | nil => rfl
  | cons e t =>
    simp only [tabWfFrom, Bool.and_eq_true, decide_eq_true_eq] at h ⊢
    exact ⟨⟨hb e List.mem_cons_self, h.1.2⟩, h.2⟩

/-- A range emptied keeps the canonical form. -/
theorem tabPaste_nil_wf {t : Tab α} {lo len : Nat} (h : tabWf d t = true) : tabWf d (tabPaste t lo len []) = true := by
  unfold tabPaste
  rw [List.filter_nil, List.map_nil, List.append_nil]
  refine tabWfFrom_append (m := lo) (tabWfFrom_filter _ h) (tabWfFrom_raise (tabWfFrom_filter _ h) ?_) (Nat.zero_le _) ?_
  · intro e he
    have := (List.mem_filter.mp he).2
    simp only [decide_eq_true_eq] at this
    omega
  · intro e he
    have := (List.mem_filter.mp he).2
    simpa using this

/-- Writes folded over a list keep the canonical form. -/
theorem foldl_wf {β : Type} {f : Tab α → β → Tab α} (hf : ∀ t b, tabWf d t = true → tabWf d (f t b) = true)
    (l : List β) {t : Tab α} (h : tabWf d t = true) : tabWf d (l.foldl f t) = true := by
  induction l generalizing t with
  | nil => exact h
  | cons b l ih => exact ih (hf t b h)

theorem putBytes_wf {m : Tab Byte} {a : Nat} {bs : List Byte} (h : tabWf 0 m = true) : tabWf 0 (putBytes m a bs) = true := by
  induction bs generalizing m a with
  | nil => exact h
  | cons b bs ih => exact ih (tabPut_wf h)

theorem putMarks_wf {m : Tab Bool} {a n : Nat} {v : Bool} (h : tabWf false m = true) :
    tabWf false (putMarks m a n v) = true := by
  induction n generalizing m a with
  | zero => exact h
  | succ n ih => exact ih (tabPut_wf h)

/-! ### Reads after writes -/

omit [DecidableEq α] in
theorem tabGet_ins {t : Tab α} {k j : Nat} {v : α} : tabGet d (tabIns t k v) j = if k = j then v else tabGet d t j := by
  induction t with
  | nil => simp [tabIns, tabGet]
  | cons e t ih =>
    simp only [tabIns]
    split
    · simp only [tabGet]
    · split
      · rename_i h2
        subst h2
        simp only [tabGet]
        split <;> rfl
      · simp only [tabGet, ih]
        split
        · rename_i h3 h4
          split
          · rename_i h5
            exact absurd (h4.trans h5.symm) h3
          · rfl
        · rfl

theorem tabGet_below {t : Tab α} {lo j : Nat} (h : tabWfFrom d lo t = true) (hj : j < lo) : tabGet d t j = d := by
  induction t generalizing lo with
  | nil => rfl
  | cons e t ih =>
    simp only [tabWfFrom, Bool.and_eq_true, decide_eq_true_eq] at h
    simp only [tabGet]
    rw [if_neg (by omega)]
    exact ih h.2 (by omega)

theorem tabGet_del {t : Tab α} {lo k j : Nat} (h : tabWfFrom d lo t = true) :
    tabGet d (tabDel t k) j = if k = j then d else tabGet d t j := by
  induction t generalizing lo with
  | nil => simp [tabDel, tabGet]
  | cons e t ih =>
    simp only [tabWfFrom, Bool.and_eq_true, decide_eq_true_eq] at h
    simp only [tabDel]
    split
    · rename_i h1
      subst h1
      simp only [tabGet]
      split
      · rename_i h2
        subst h2
        exact tabGet_below h.2 (Nat.lt_succ_self _)
      · rfl
    · simp only [tabGet, ih h.2]
      split
      · rename_i h3 h4
        split
        · rename_i h5
          exact absurd (h4.trans h5.symm) h3
        · rfl
      · rfl

/-- A read after a write to a canonical table. -/
theorem tabGet_put {t : Tab α} {k j : Nat} {v : α} (h : tabWf d t = true) :
    tabGet d (tabPut d t k v) j = if k = j then v else tabGet d t j := by
  unfold tabPut
  split
  · rename_i hv
    rw [tabGet_del h, hv]
  · exact tabGet_ins

/-- Bytes written from `a` on read back, and every other byte is as it was. -/
theorem tabGet_putBytes {m : Tab Byte} {a j : Nat} {bs : List Byte} (h : tabWf 0 m = true) :
    tabGet 0 (putBytes m a bs) j = if a ≤ j ∧ j < a + bs.length then bs.getD (j - a) 0 else tabGet 0 m j := by
  induction bs generalizing m a with
  | nil => rw [if_neg (by simp only [List.length_nil]; omega)]; rfl
  | cons b bs ih =>
    rw [putBytes, ih (tabPut_wf h), tabGet_put h]
    simp only [List.length_cons]
    by_cases h1 : a = j
    · subst h1
      rw [if_neg (by omega), if_pos rfl, if_pos (by omega)]
      simp
    · rw [if_neg h1]
      by_cases h2 : a + 1 ≤ j ∧ j < a + 1 + bs.length
      · rw [if_pos h2, if_pos (by omega), show j - a = (j - (a + 1)) + 1 by omega, List.getD_cons_succ]
      · rw [if_neg h2, if_neg (by omega)]

end Sys2Proof.Machine
end

