-- ==== Sys2Proof/Laws/Keeps.lean ====
section
/-!
SUPPORT. What no operation undoes. `Keeps a b`: the queue of commands stands, host memory stays in canonical form, the
free values go on, and the fuses do not go back. Each operation on State has one lemma here or in
the files beside: from a state that `Keeps a`, it gives a state that does.
-/
namespace Sys2Proof.Machine

/-- A queue, a count of free values, host memory and firmware that keep what no operation on `a` undoes. -/
structure KeepsC (a : State) (pending : List Instr) (free : Nat) (host : HostSide) (fw : Firmware) : Prop where
  pending : pending = a.pending
  free : a.freeCount ≤ free
  host : hostWf a = true → (tabWf 0 host.mem && tabWf false host.poison) = true
  svn : a.fw.svnFuse.toNat ≤ fw.svnFuse.toNat
  pack : fw.packFuse = a.fw.packFuse
  revoked : fw.revoked = a.fw.revoked

/-- `b` keeps what no operation on `a` undoes. -/
def Keeps (a b : State) : Prop := KeepsC a b.pending b.freeCount b.host b.fw

theorem Keeps.refl (a : State) : Keeps a a := ⟨rfl, Nat.le_refl _, id, Nat.le_refl _, rfl, rfl⟩

theorem Keeps.trans {a b c : State} (h : Keeps a b) (k : Keeps b c) : Keeps a c :=
  ⟨k.pending.trans h.pending, h.free.trans k.free, fun w => k.host (h.host w), h.svn.trans k.svn, k.pack.trans h.pack,
   k.revoked.trans h.revoked⟩

theorem KeepsC.keeps {a b : State} (h : KeepsC a b.pending b.freeCount b.host b.fw) : Keeps a b := h

theorem Keeps.of {a b : State} (h : Keeps a b) : KeepsC a b.pending b.freeCount b.host b.fw := h

/-- Firmware changed but for the fuses. -/
theorem Keeps.withFw {a b : State} {fw : Firmware} (h : Keeps a b) (h1 : fw.svnFuse = b.fw.svnFuse)
    (h2 : fw.packFuse = b.fw.packFuse) (h3 : fw.revoked = b.fw.revoked) : KeepsC a b.pending b.freeCount b.host fw :=
  ⟨h.pending, h.free, h.host, by rw [h1]; exact h.svn, h2.trans h.pack, h3.trans h.revoked⟩

/-- Host memory changed in a way that keeps its form. -/
theorem Keeps.withHost {a b : State} {host : HostSide} (h : Keeps a b)
    (hh : tabWf 0 b.host.mem = true ∧ tabWf false b.host.poison = true →
      tabWf 0 host.mem = true ∧ tabWf false host.poison = true) : KeepsC a b.pending b.freeCount host b.fw :=
  ⟨h.pending, h.free,
   fun w => by have := hh (by simpa using h.host w); simpa using this,
   h.svn, h.pack, h.revoked⟩

/-- What a command's outcome keeps. -/
def OutKeeps (a : State) : Host.Outcome State Fault Refusal → Prop
  | .next t => Keeps a t
  | _ => True

/-- What an operation that may refuse keeps. -/
def ExKeeps (a : State) : Except (BitVec 8) State → Prop
  | .ok t => Keeps a t
  | .error _ => True

/-- What an operation that may not apply keeps. -/
def OptKeeps (a : State) : Option State → Prop
  | some t => Keeps a t
  | none => True

theorem OutKeeps.next {a t : State} (h : Keeps a t) : OutKeeps a (.next t) := h

theorem ExKeeps.ok {a t : State} (h : Keeps a t) : ExKeeps a (.ok t) := h

theorem OptKeeps.some {a t : State} (h : Keeps a t) : OptKeeps a (.some t) := h

theorem ite_keeps {a s t : State} {c : Prop} [Decidable c] (hs : Keeps a s) (ht : Keeps a t) :
    Keeps a (if c then s else t) := by
  split <;> assumption

theorem ite_outKeeps {a : State} {s t : Host.Outcome State Fault Refusal} {c : Prop} [Decidable c] (hs : OutKeeps a s)
    (ht : OutKeeps a t) : OutKeeps a (if c then s else t) := by
  split <;> assumption

/-- Operations folded over a list. -/
theorem foldl_keeps {a s : State} {β : Type} {f : State → β → State} {l : List β}
    (hf : ∀ x b, Keeps a x → Keeps a (f x b)) (h : Keeps a s) : Keeps a (l.foldl f s) := by
  induction l generalizing s with
  | nil => exact h
  | cons b l ih => exact ih (hf _ _ h)

theorem foldl_keeps_fst {a : State} {β γ : Type} {f : State × γ → β → State × γ} {l : List β} {p : State × γ}
    (hf : ∀ x b, Keeps a x.1 → Keeps a (f x b).1) (h : Keeps a p.1) : Keeps a (l.foldl f p).1 := by
  induction l generalizing p with
  | nil => exact h
  | cons b l ih => exact ih (hf _ _ h)

theorem foldl_keeps_snd {a : State} {β γ : Type} {f : γ × State → β → γ × State} {l : List β} {p : γ × State}
    (hf : ∀ x b, Keeps a x.2 → Keeps a (f x b).2) (h : Keeps a p.2) : Keeps a (l.foldl f p).2 := by
  induction l generalizing p with
  | nil => exact h
  | cons b l ih => exact ih (hf _ _ h)

/-! ### Host memory and free values -/

theorem hostWrite_keeps {a s : State} {addr : Nat} {bytes : List Byte} (h : Keeps a s) : Keeps a (s.hostWrite addr bytes) :=
  Keeps.withHost (b := s) h fun w => ⟨putBytes_wf w.1, putMarks_wf w.2⟩

theorem hostDeliver_keeps {a s : State} {addr len skip : Nat} {data : Tab Byte} {poison : List Nat} (h : Keeps a s) :
    Keeps a (s.hostDeliver addr len data skip poison) := by
  refine Keeps.withHost (b := s) h fun w => ⟨foldl_wf ?_ _ (tabPaste_nil_wf w.1), foldl_wf ?_ _ (tabPaste_nil_wf w.2)⟩
  · intro t b ht
    split
    · exact tabPut_wf ht
    · exact ht
  · intro t b ht
    dsimp only
    split
    · exact putMarks_wf ht
    · exact ht

theorem fresh_keeps {a s : State} {w : Nat} (h : Keeps a s) : Keeps a (s.fresh w).2 :=
  ⟨h.pending, h.free.trans (Nat.le_succ _), h.host, h.svn, h.pack, h.revoked⟩

theorem fresh_keeps_eq {a s : State} {w : Nat} (h : Keeps a s) {s1 v} (e : s.fresh w = (v, s1)) : Keeps a s1 := by
  have k := fresh_keeps (w := w) h
  rwa [e] at k

end Sys2Proof.Machine
end

