-- ==== Sys2Proof/Laws/State.lean ====
section
/-!
SUPPORT. What each replacement of a part of State leaves and gives: one lemma for each field, so that no proof unfolds a
record update.
-/
namespace Sys2Proof.Machine

variable {s : State}

/-! ### setRecorder -/

section

variable {h : Hub} {r : Recorder}

@[simp] theorem setRecorder_pending : (s.setRecorder h r).pending = s.pending := rfl
@[simp] theorem setRecorder_tick : (s.setRecorder h r).tick = s.tick := rfl
@[simp] theorem setRecorder_freeCount : (s.setRecorder h r).freeCount = s.freeCount := rfl
@[simp] theorem setRecorder_host : (s.setRecorder h r).host = s.host := rfl
@[simp] theorem setRecorder_hs : (s.setRecorder h r).hs = s.hs := rfl
@[simp] theorem setRecorder_rg : (s.setRecorder h r).rg = s.rg := rfl
@[simp] theorem setRecorder_ctxs : (s.setRecorder h r).ctxs = s.ctxs := rfl
@[simp] theorem setRecorder_units : (s.setRecorder h r).units = s.units := rfl
@[simp] theorem setRecorder_codec : (s.setRecorder h r).codec = s.codec := rfl
@[simp] theorem setRecorder_eng : (s.setRecorder h r).eng = s.eng := rfl
@[simp] theorem setRecorder_mov : (s.setRecorder h r).mov = s.mov := rfl
@[simp] theorem setRecorder_lnk : (s.setRecorder h r).lnk = s.lnk := rfl
@[simp] theorem setRecorder_vault : (s.setRecorder h r).vault = s.vault := rfl
@[simp] theorem setRecorder_groups : (s.setRecorder h r).groups = s.groups := rfl
@[simp] theorem setRecorder_forms : (s.setRecorder h r).forms = s.forms := rfl
@[simp] theorem setRecorder_syn : (s.setRecorder h r).syn = s.syn := rfl
@[simp] theorem setRecorder_rel : (s.setRecorder h r).rel = s.rel := rfl
@[simp] theorem setRecorder_pwr : (s.setRecorder h r).pwr = s.pwr := rfl
@[simp] theorem setRecorder_start : (s.setRecorder h r).start = s.start := rfl
@[simp] theorem setRecorder_fw : (s.setRecorder h r).fw = s.fw := rfl
@[simp] theorem setRecorder_regs : (s.setRecorder h r).regs = s.regs := rfl
@[simp] theorem setRecorder_evt_self : (s.setRecorder h r).evt.hubs[h] = r := by simp [State.setRecorder]
@[simp] theorem setRecorder_evt_store : (s.setRecorder h r).evt.store = s.evt.store := rfl
@[simp] theorem setRecorder_evt_waiting : (s.setRecorder h r).evt.waiting = s.evt.waiting := rfl
@[simp] theorem setRecorder_evt_snaps : (s.setRecorder h r).evt.snaps = s.evt.snaps := rfl

end

/-! ### setSync -/

section

variable {h : Hub} {y : Sync}

@[simp] theorem setSync_pending : (s.setSync h y).pending = s.pending := rfl
@[simp] theorem setSync_tick : (s.setSync h y).tick = s.tick := rfl
@[simp] theorem setSync_freeCount : (s.setSync h y).freeCount = s.freeCount := rfl
@[simp] theorem setSync_host : (s.setSync h y).host = s.host := rfl
@[simp] theorem setSync_hs : (s.setSync h y).hs = s.hs := rfl
@[simp] theorem setSync_rg : (s.setSync h y).rg = s.rg := rfl
@[simp] theorem setSync_ctxs : (s.setSync h y).ctxs = s.ctxs := rfl
@[simp] theorem setSync_units : (s.setSync h y).units = s.units := rfl
@[simp] theorem setSync_codec : (s.setSync h y).codec = s.codec := rfl
@[simp] theorem setSync_eng : (s.setSync h y).eng = s.eng := rfl
@[simp] theorem setSync_mov : (s.setSync h y).mov = s.mov := rfl
@[simp] theorem setSync_lnk : (s.setSync h y).lnk = s.lnk := rfl
@[simp] theorem setSync_vault : (s.setSync h y).vault = s.vault := rfl
@[simp] theorem setSync_groups : (s.setSync h y).groups = s.groups := rfl
@[simp] theorem setSync_forms : (s.setSync h y).forms = s.forms := rfl
@[simp] theorem setSync_rel : (s.setSync h y).rel = s.rel := rfl
@[simp] theorem setSync_pwr : (s.setSync h y).pwr = s.pwr := rfl
@[simp] theorem setSync_start : (s.setSync h y).start = s.start := rfl
@[simp] theorem setSync_fw : (s.setSync h y).fw = s.fw := rfl
@[simp] theorem setSync_evt : (s.setSync h y).evt = s.evt := rfl
@[simp] theorem setSync_regs : (s.setSync h y).regs = s.regs := rfl
@[simp] theorem setSync_syn_self : (s.setSync h y).syn.hubs[h] = y := by simp [State.setSync]
@[simp] theorem setSync_syn_bars : (s.setSync h y).syn.bars = s.syn.bars := rfl

end

/-! ### setPort -/

section

variable {h : Hub} {p : HostPort}

@[simp] theorem setPort_pending : (s.setPort h p).pending = s.pending := rfl
@[simp] theorem setPort_tick : (s.setPort h p).tick = s.tick := rfl
@[simp] theorem setPort_freeCount : (s.setPort h p).freeCount = s.freeCount := rfl
@[simp] theorem setPort_host : (s.setPort h p).host = s.host := rfl
@[simp] theorem setPort_hs : (s.setPort h p).hs = s.hs := rfl
@[simp] theorem setPort_ctxs : (s.setPort h p).ctxs = s.ctxs := rfl
@[simp] theorem setPort_units : (s.setPort h p).units = s.units := rfl
@[simp] theorem setPort_codec : (s.setPort h p).codec = s.codec := rfl
@[simp] theorem setPort_eng : (s.setPort h p).eng = s.eng := rfl
@[simp] theorem setPort_mov : (s.setPort h p).mov = s.mov := rfl
@[simp] theorem setPort_lnk : (s.setPort h p).lnk = s.lnk := rfl
@[simp] theorem setPort_vault : (s.setPort h p).vault = s.vault := rfl
@[simp] theorem setPort_groups : (s.setPort h p).groups = s.groups := rfl
@[simp] theorem setPort_forms : (s.setPort h p).forms = s.forms := rfl
@[simp] theorem setPort_syn : (s.setPort h p).syn = s.syn := rfl
@[simp] theorem setPort_rel : (s.setPort h p).rel = s.rel := rfl
@[simp] theorem setPort_pwr : (s.setPort h p).pwr = s.pwr := rfl
@[simp] theorem setPort_start : (s.setPort h p).start = s.start := rfl
@[simp] theorem setPort_fw : (s.setPort h p).fw = s.fw := rfl
@[simp] theorem setPort_evt : (s.setPort h p).evt = s.evt := rfl
@[simp] theorem setPort_regs : (s.setPort h p).regs = s.regs := rfl
@[simp] theorem setPort_rg_self : (s.setPort h p).rg.ports[h] = p := by simp [State.setPort]
@[simp] theorem setPort_rg_list : (s.setPort h p).rg.list = s.rg.list := rfl
@[simp] theorem setPort_rg_windows : (s.setPort h p).rg.windows = s.rg.windows := rfl

end

/-! ### setLink -/

section

variable {l : LinkNo} {k : Link}

@[simp] theorem setLink_pending : (s.setLink l k).pending = s.pending := rfl
@[simp] theorem setLink_tick : (s.setLink l k).tick = s.tick := rfl
@[simp] theorem setLink_freeCount : (s.setLink l k).freeCount = s.freeCount := rfl
@[simp] theorem setLink_host : (s.setLink l k).host = s.host := rfl
@[simp] theorem setLink_hs : (s.setLink l k).hs = s.hs := rfl
@[simp] theorem setLink_rg : (s.setLink l k).rg = s.rg := rfl
@[simp] theorem setLink_ctxs : (s.setLink l k).ctxs = s.ctxs := rfl
@[simp] theorem setLink_units : (s.setLink l k).units = s.units := rfl
@[simp] theorem setLink_codec : (s.setLink l k).codec = s.codec := rfl
@[simp] theorem setLink_eng : (s.setLink l k).eng = s.eng := rfl
@[simp] theorem setLink_mov : (s.setLink l k).mov = s.mov := rfl
@[simp] theorem setLink_vault : (s.setLink l k).vault = s.vault := rfl
@[simp] theorem setLink_groups : (s.setLink l k).groups = s.groups := rfl
@[simp] theorem setLink_forms : (s.setLink l k).forms = s.forms := rfl
@[simp] theorem setLink_syn : (s.setLink l k).syn = s.syn := rfl
@[simp] theorem setLink_rel : (s.setLink l k).rel = s.rel := rfl
@[simp] theorem setLink_pwr : (s.setLink l k).pwr = s.pwr := rfl
@[simp] theorem setLink_start : (s.setLink l k).start = s.start := rfl
@[simp] theorem setLink_fw : (s.setLink l k).fw = s.fw := rfl
@[simp] theorem setLink_evt : (s.setLink l k).evt = s.evt := rfl
@[simp] theorem setLink_regs : (s.setLink l k).regs = s.regs := rfl
@[simp] theorem setLink_lnk_self : (s.setLink l k).lnk.links[l] = k := by simp [State.setLink]
@[simp] theorem setLink_lnk_peers : (s.setLink l k).lnk.peers = s.lnk.peers := rfl
@[simp] theorem setLink_lnk_reqs : (s.setLink l k).lnk.reqs = s.lnk.reqs := rfl
@[simp] theorem setLink_lnk_epoch : (s.setLink l k).lnk.epoch = s.lnk.epoch := rfl

end

/-! ### setMovers -/

section

variable {h : Hub} {m : Movers}

@[simp] theorem setMovers_pending : (s.setMovers h m).pending = s.pending := rfl
@[simp] theorem setMovers_tick : (s.setMovers h m).tick = s.tick := rfl
@[simp] theorem setMovers_freeCount : (s.setMovers h m).freeCount = s.freeCount := rfl
@[simp] theorem setMovers_host : (s.setMovers h m).host = s.host := rfl
@[simp] theorem setMovers_hs : (s.setMovers h m).hs = s.hs := rfl
@[simp] theorem setMovers_rg : (s.setMovers h m).rg = s.rg := rfl
@[simp] theorem setMovers_ctxs : (s.setMovers h m).ctxs = s.ctxs := rfl
@[simp] theorem setMovers_units : (s.setMovers h m).units = s.units := rfl
@[simp] theorem setMovers_codec : (s.setMovers h m).codec = s.codec := rfl
@[simp] theorem setMovers_eng : (s.setMovers h m).eng = s.eng := rfl
@[simp] theorem setMovers_lnk : (s.setMovers h m).lnk = s.lnk := rfl
@[simp] theorem setMovers_vault : (s.setMovers h m).vault = s.vault := rfl
@[simp] theorem setMovers_groups : (s.setMovers h m).groups = s.groups := rfl
@[simp] theorem setMovers_forms : (s.setMovers h m).forms = s.forms := rfl
@[simp] theorem setMovers_syn : (s.setMovers h m).syn = s.syn := rfl
@[simp] theorem setMovers_rel : (s.setMovers h m).rel = s.rel := rfl
@[simp] theorem setMovers_pwr : (s.setMovers h m).pwr = s.pwr := rfl
@[simp] theorem setMovers_start : (s.setMovers h m).start = s.start := rfl
@[simp] theorem setMovers_fw : (s.setMovers h m).fw = s.fw := rfl
@[simp] theorem setMovers_evt : (s.setMovers h m).evt = s.evt := rfl
@[simp] theorem setMovers_regs : (s.setMovers h m).regs = s.regs := rfl
@[simp] theorem setMovers_mov_self : (s.setMovers h m).mov.hubs[h] = m := by simp [State.setMovers]

end

/-! ### setHealth -/

section

variable {h : Hub} {x : HubHealth}

@[simp] theorem setHealth_pending : (s.setHealth h x).pending = s.pending := rfl
@[simp] theorem setHealth_tick : (s.setHealth h x).tick = s.tick := rfl
@[simp] theorem setHealth_freeCount : (s.setHealth h x).freeCount = s.freeCount := rfl
@[simp] theorem setHealth_host : (s.setHealth h x).host = s.host := rfl
@[simp] theorem setHealth_hs : (s.setHealth h x).hs = s.hs := rfl
@[simp] theorem setHealth_rg : (s.setHealth h x).rg = s.rg := rfl
@[simp] theorem setHealth_ctxs : (s.setHealth h x).ctxs = s.ctxs := rfl
@[simp] theorem setHealth_units : (s.setHealth h x).units = s.units := rfl
@[simp] theorem setHealth_codec : (s.setHealth h x).codec = s.codec := rfl
@[simp] theorem setHealth_eng : (s.setHealth h x).eng = s.eng := rfl
@[simp] theorem setHealth_mov : (s.setHealth h x).mov = s.mov := rfl
@[simp] theorem setHealth_lnk : (s.setHealth h x).lnk = s.lnk := rfl
@[simp] theorem setHealth_vault : (s.setHealth h x).vault = s.vault := rfl
@[simp] theorem setHealth_groups : (s.setHealth h x).groups = s.groups := rfl
@[simp] theorem setHealth_forms : (s.setHealth h x).forms = s.forms := rfl
@[simp] theorem setHealth_syn : (s.setHealth h x).syn = s.syn := rfl
@[simp] theorem setHealth_pwr : (s.setHealth h x).pwr = s.pwr := rfl
@[simp] theorem setHealth_start : (s.setHealth h x).start = s.start := rfl
@[simp] theorem setHealth_fw : (s.setHealth h x).fw = s.fw := rfl
@[simp] theorem setHealth_evt : (s.setHealth h x).evt = s.evt := rfl
@[simp] theorem setHealth_regs : (s.setHealth h x).regs = s.regs := rfl
@[simp] theorem setHealth_rel_self : (s.setHealth h x).rel.hubs[h] = x := by simp [State.setHealth]
@[simp] theorem setHealth_rel_bist : (s.setHealth h x).rel.bist = s.rel.bist := rfl

end

/-! ### setPower -/

section

variable {h : Hub} {x : HubPower}

@[simp] theorem setPower_pending : (s.setPower h x).pending = s.pending := rfl
@[simp] theorem setPower_tick : (s.setPower h x).tick = s.tick := rfl
@[simp] theorem setPower_freeCount : (s.setPower h x).freeCount = s.freeCount := rfl
@[simp] theorem setPower_host : (s.setPower h x).host = s.host := rfl
@[simp] theorem setPower_hs : (s.setPower h x).hs = s.hs := rfl
@[simp] theorem setPower_rg : (s.setPower h x).rg = s.rg := rfl
@[simp] theorem setPower_ctxs : (s.setPower h x).ctxs = s.ctxs := rfl
@[simp] theorem setPower_units : (s.setPower h x).units = s.units := rfl
@[simp] theorem setPower_codec : (s.setPower h x).codec = s.codec := rfl
@[simp] theorem setPower_eng : (s.setPower h x).eng = s.eng := rfl
@[simp] theorem setPower_mov : (s.setPower h x).mov = s.mov := rfl
@[simp] theorem setPower_lnk : (s.setPower h x).lnk = s.lnk := rfl
@[simp] theorem setPower_vault : (s.setPower h x).vault = s.vault := rfl
@[simp] theorem setPower_groups : (s.setPower h x).groups = s.groups := rfl
@[simp] theorem setPower_forms : (s.setPower h x).forms = s.forms := rfl
@[simp] theorem setPower_syn : (s.setPower h x).syn = s.syn := rfl
@[simp] theorem setPower_rel : (s.setPower h x).rel = s.rel := rfl
@[simp] theorem setPower_start : (s.setPower h x).start = s.start := rfl
@[simp] theorem setPower_fw : (s.setPower h x).fw = s.fw := rfl
@[simp] theorem setPower_evt : (s.setPower h x).evt = s.evt := rfl
@[simp] theorem setPower_regs : (s.setPower h x).regs = s.regs := rfl
@[simp] theorem setPower_pwr_self : (s.setPower h x).pwr.hubs[h] = x := by simp [State.setPower]
@[simp] theorem setPower_pwr_mgr : (s.setPower h x).pwr.mgr = s.pwr.mgr := rfl

end

/-! ### setRegs -/

section

variable {h : Hub} {x : HubRegs}

@[simp] theorem setRegs_pending : (s.setRegs h x).pending = s.pending := rfl
@[simp] theorem setRegs_tick : (s.setRegs h x).tick = s.tick := rfl
@[simp] theorem setRegs_freeCount : (s.setRegs h x).freeCount = s.freeCount := rfl
@[simp] theorem setRegs_host : (s.setRegs h x).host = s.host := rfl
@[simp] theorem setRegs_hs : (s.setRegs h x).hs = s.hs := rfl
@[simp] theorem setRegs_rg : (s.setRegs h x).rg = s.rg := rfl
@[simp] theorem setRegs_ctxs : (s.setRegs h x).ctxs = s.ctxs := rfl
@[simp] theorem setRegs_units : (s.setRegs h x).units = s.units := rfl
@[simp] theorem setRegs_codec : (s.setRegs h x).codec = s.codec := rfl
@[simp] theorem setRegs_eng : (s.setRegs h x).eng = s.eng := rfl
@[simp] theorem setRegs_mov : (s.setRegs h x).mov = s.mov := rfl
@[simp] theorem setRegs_lnk : (s.setRegs h x).lnk = s.lnk := rfl
@[simp] theorem setRegs_vault : (s.setRegs h x).vault = s.vault := rfl
@[simp] theorem setRegs_groups : (s.setRegs h x).groups = s.groups := rfl
@[simp] theorem setRegs_forms : (s.setRegs h x).forms = s.forms := rfl
@[simp] theorem setRegs_syn : (s.setRegs h x).syn = s.syn := rfl
@[simp] theorem setRegs_rel : (s.setRegs h x).rel = s.rel := rfl
@[simp] theorem setRegs_pwr : (s.setRegs h x).pwr = s.pwr := rfl
@[simp] theorem setRegs_start : (s.setRegs h x).start = s.start := rfl
@[simp] theorem setRegs_fw : (s.setRegs h x).fw = s.fw := rfl
@[simp] theorem setRegs_evt : (s.setRegs h x).evt = s.evt := rfl
@[simp] theorem setRegs_regs_self : (s.setRegs h x).regs.hubs[h] = x := by simp [State.setRegs]
@[simp] theorem setRegs_regs_taps : (s.setRegs h x).regs.taps = s.regs.taps := rfl

end

/-! ### setBar -/

section

variable {b : Fin 8} {x : BarSlot}

@[simp] theorem setBar_pending : (s.setBar b x).pending = s.pending := rfl
@[simp] theorem setBar_tick : (s.setBar b x).tick = s.tick := rfl
@[simp] theorem setBar_freeCount : (s.setBar b x).freeCount = s.freeCount := rfl
@[simp] theorem setBar_host : (s.setBar b x).host = s.host := rfl
@[simp] theorem setBar_hs : (s.setBar b x).hs = s.hs := rfl
@[simp] theorem setBar_rg : (s.setBar b x).rg = s.rg := rfl
@[simp] theorem setBar_ctxs : (s.setBar b x).ctxs = s.ctxs := rfl
@[simp] theorem setBar_units : (s.setBar b x).units = s.units := rfl
@[simp] theorem setBar_codec : (s.setBar b x).codec = s.codec := rfl
@[simp] theorem setBar_eng : (s.setBar b x).eng = s.eng := rfl
@[simp] theorem setBar_mov : (s.setBar b x).mov = s.mov := rfl
@[simp] theorem setBar_lnk : (s.setBar b x).lnk = s.lnk := rfl
@[simp] theorem setBar_vault : (s.setBar b x).vault = s.vault := rfl
@[simp] theorem setBar_groups : (s.setBar b x).groups = s.groups := rfl
@[simp] theorem setBar_forms : (s.setBar b x).forms = s.forms := rfl
@[simp] theorem setBar_rel : (s.setBar b x).rel = s.rel := rfl
@[simp] theorem setBar_pwr : (s.setBar b x).pwr = s.pwr := rfl
@[simp] theorem setBar_start : (s.setBar b x).start = s.start := rfl
@[simp] theorem setBar_fw : (s.setBar b x).fw = s.fw := rfl
@[simp] theorem setBar_evt : (s.setBar b x).evt = s.evt := rfl
@[simp] theorem setBar_regs : (s.setBar b x).regs = s.regs := rfl
@[simp] theorem setBar_syn_self : (s.setBar b x).syn.bars[b] = x := by simp [State.setBar]
@[simp] theorem setBar_syn_hubs : (s.setBar b x).syn.hubs = s.syn.hubs := rfl

end

/-! ### setWindow -/

section

variable {h : Hub} {w : List Written}

@[simp] theorem setWindow_pending : (s.setWindow h w).pending = s.pending := rfl
@[simp] theorem setWindow_tick : (s.setWindow h w).tick = s.tick := rfl
@[simp] theorem setWindow_freeCount : (s.setWindow h w).freeCount = s.freeCount := rfl
@[simp] theorem setWindow_host : (s.setWindow h w).host = s.host := rfl
@[simp] theorem setWindow_hs : (s.setWindow h w).hs = s.hs := rfl
@[simp] theorem setWindow_ctxs : (s.setWindow h w).ctxs = s.ctxs := rfl
@[simp] theorem setWindow_units : (s.setWindow h w).units = s.units := rfl
@[simp] theorem setWindow_codec : (s.setWindow h w).codec = s.codec := rfl
@[simp] theorem setWindow_eng : (s.setWindow h w).eng = s.eng := rfl
@[simp] theorem setWindow_mov : (s.setWindow h w).mov = s.mov := rfl
@[simp] theorem setWindow_lnk : (s.setWindow h w).lnk = s.lnk := rfl
@[simp] theorem setWindow_vault : (s.setWindow h w).vault = s.vault := rfl
@[simp] theorem setWindow_groups : (s.setWindow h w).groups = s.groups := rfl
@[simp] theorem setWindow_forms : (s.setWindow h w).forms = s.forms := rfl
@[simp] theorem setWindow_syn : (s.setWindow h w).syn = s.syn := rfl
@[simp] theorem setWindow_rel : (s.setWindow h w).rel = s.rel := rfl
@[simp] theorem setWindow_pwr : (s.setWindow h w).pwr = s.pwr := rfl
@[simp] theorem setWindow_start : (s.setWindow h w).start = s.start := rfl
@[simp] theorem setWindow_fw : (s.setWindow h w).fw = s.fw := rfl
@[simp] theorem setWindow_evt : (s.setWindow h w).evt = s.evt := rfl
@[simp] theorem setWindow_regs : (s.setWindow h w).regs = s.regs := rfl
@[simp] theorem setWindow_rg_self : (s.setWindow h w).rg.windows[h] = w := by simp [State.setWindow]
@[simp] theorem setWindow_rg_list : (s.setWindow h w).rg.list = s.rg.list := rfl
@[simp] theorem setWindow_rg_ports : (s.setWindow h w).rg.ports = s.rg.ports := rfl

end

/-! ### setRing -/

section

variable {r : Ring}

@[simp] theorem setRing_pending : (s.setRing r).pending = s.pending := rfl
@[simp] theorem setRing_tick : (s.setRing r).tick = s.tick := rfl
@[simp] theorem setRing_freeCount : (s.setRing r).freeCount = s.freeCount := rfl
@[simp] theorem setRing_host : (s.setRing r).host = s.host := rfl
@[simp] theorem setRing_hs : (s.setRing r).hs = s.hs := rfl
@[simp] theorem setRing_ctxs : (s.setRing r).ctxs = s.ctxs := rfl
@[simp] theorem setRing_units : (s.setRing r).units = s.units := rfl
@[simp] theorem setRing_codec : (s.setRing r).codec = s.codec := rfl
@[simp] theorem setRing_eng : (s.setRing r).eng = s.eng := rfl
@[simp] theorem setRing_mov : (s.setRing r).mov = s.mov := rfl
@[simp] theorem setRing_lnk : (s.setRing r).lnk = s.lnk := rfl
@[simp] theorem setRing_vault : (s.setRing r).vault = s.vault := rfl
@[simp] theorem setRing_groups : (s.setRing r).groups = s.groups := rfl
@[simp] theorem setRing_forms : (s.setRing r).forms = s.forms := rfl
@[simp] theorem setRing_syn : (s.setRing r).syn = s.syn := rfl
@[simp] theorem setRing_rel : (s.setRing r).rel = s.rel := rfl
@[simp] theorem setRing_pwr : (s.setRing r).pwr = s.pwr := rfl
@[simp] theorem setRing_start : (s.setRing r).start = s.start := rfl
@[simp] theorem setRing_fw : (s.setRing r).fw = s.fw := rfl
@[simp] theorem setRing_evt : (s.setRing r).evt = s.evt := rfl
@[simp] theorem setRing_regs : (s.setRing r).regs = s.regs := rfl
@[simp] theorem setRing_rg_ports : (s.setRing r).rg.ports = s.rg.ports := rfl
@[simp] theorem setRing_rg_windows : (s.setRing r).rg.windows = s.rg.windows := rfl

end

/-! ### setCtx -/

section

variable {c : Ctx}

@[simp] theorem setCtx_pending : (s.setCtx c).pending = s.pending := rfl
@[simp] theorem setCtx_tick : (s.setCtx c).tick = s.tick := rfl
@[simp] theorem setCtx_freeCount : (s.setCtx c).freeCount = s.freeCount := rfl
@[simp] theorem setCtx_host : (s.setCtx c).host = s.host := rfl
@[simp] theorem setCtx_hs : (s.setCtx c).hs = s.hs := rfl
@[simp] theorem setCtx_rg : (s.setCtx c).rg = s.rg := rfl
@[simp] theorem setCtx_units : (s.setCtx c).units = s.units := rfl
@[simp] theorem setCtx_codec : (s.setCtx c).codec = s.codec := rfl
@[simp] theorem setCtx_eng : (s.setCtx c).eng = s.eng := rfl
@[simp] theorem setCtx_mov : (s.setCtx c).mov = s.mov := rfl
@[simp] theorem setCtx_lnk : (s.setCtx c).lnk = s.lnk := rfl
@[simp] theorem setCtx_vault : (s.setCtx c).vault = s.vault := rfl
@[simp] theorem setCtx_groups : (s.setCtx c).groups = s.groups := rfl
@[simp] theorem setCtx_forms : (s.setCtx c).forms = s.forms := rfl
@[simp] theorem setCtx_syn : (s.setCtx c).syn = s.syn := rfl
@[simp] theorem setCtx_rel : (s.setCtx c).rel = s.rel := rfl
@[simp] theorem setCtx_pwr : (s.setCtx c).pwr = s.pwr := rfl
@[simp] theorem setCtx_start : (s.setCtx c).start = s.start := rfl
@[simp] theorem setCtx_fw : (s.setCtx c).fw = s.fw := rfl
@[simp] theorem setCtx_evt : (s.setCtx c).evt = s.evt := rfl
@[simp] theorem setCtx_regs : (s.setCtx c).regs = s.regs := rfl

end

/-! ### setHandle -/

section

variable {h : Handle}

@[simp] theorem setHandle_pending : (s.setHandle h).pending = s.pending := rfl
@[simp] theorem setHandle_tick : (s.setHandle h).tick = s.tick := rfl
@[simp] theorem setHandle_freeCount : (s.setHandle h).freeCount = s.freeCount := rfl
@[simp] theorem setHandle_host : (s.setHandle h).host = s.host := rfl
@[simp] theorem setHandle_rg : (s.setHandle h).rg = s.rg := rfl
@[simp] theorem setHandle_ctxs : (s.setHandle h).ctxs = s.ctxs := rfl
@[simp] theorem setHandle_units : (s.setHandle h).units = s.units := rfl
@[simp] theorem setHandle_codec : (s.setHandle h).codec = s.codec := rfl
@[simp] theorem setHandle_eng : (s.setHandle h).eng = s.eng := rfl
@[simp] theorem setHandle_mov : (s.setHandle h).mov = s.mov := rfl
@[simp] theorem setHandle_lnk : (s.setHandle h).lnk = s.lnk := rfl
@[simp] theorem setHandle_vault : (s.setHandle h).vault = s.vault := rfl
@[simp] theorem setHandle_groups : (s.setHandle h).groups = s.groups := rfl
@[simp] theorem setHandle_forms : (s.setHandle h).forms = s.forms := rfl
@[simp] theorem setHandle_syn : (s.setHandle h).syn = s.syn := rfl
@[simp] theorem setHandle_rel : (s.setHandle h).rel = s.rel := rfl
@[simp] theorem setHandle_pwr : (s.setHandle h).pwr = s.pwr := rfl
@[simp] theorem setHandle_start : (s.setHandle h).start = s.start := rfl
@[simp] theorem setHandle_fw : (s.setHandle h).fw = s.fw := rfl
@[simp] theorem setHandle_evt : (s.setHandle h).evt = s.evt := rfl
@[simp] theorem setHandle_regs : (s.setHandle h).regs = s.regs := rfl
@[simp] theorem setHandle_hs_gens : (s.setHandle h).hs.gens = s.hs.gens := rfl

end

/-! ### dropHandle -/

section

variable {k : HKey}

@[simp] theorem dropHandle_pending : (s.dropHandle k).pending = s.pending := rfl
@[simp] theorem dropHandle_tick : (s.dropHandle k).tick = s.tick := rfl
@[simp] theorem dropHandle_freeCount : (s.dropHandle k).freeCount = s.freeCount := rfl
@[simp] theorem dropHandle_host : (s.dropHandle k).host = s.host := rfl
@[simp] theorem dropHandle_rg : (s.dropHandle k).rg = s.rg := rfl
@[simp] theorem dropHandle_ctxs : (s.dropHandle k).ctxs = s.ctxs := rfl
@[simp] theorem dropHandle_units : (s.dropHandle k).units = s.units := rfl
@[simp] theorem dropHandle_codec : (s.dropHandle k).codec = s.codec := rfl
@[simp] theorem dropHandle_eng : (s.dropHandle k).eng = s.eng := rfl
@[simp] theorem dropHandle_mov : (s.dropHandle k).mov = s.mov := rfl
@[simp] theorem dropHandle_lnk : (s.dropHandle k).lnk = s.lnk := rfl
@[simp] theorem dropHandle_vault : (s.dropHandle k).vault = s.vault := rfl
@[simp] theorem dropHandle_groups : (s.dropHandle k).groups = s.groups := rfl
@[simp] theorem dropHandle_forms : (s.dropHandle k).forms = s.forms := rfl
@[simp] theorem dropHandle_syn : (s.dropHandle k).syn = s.syn := rfl
@[simp] theorem dropHandle_rel : (s.dropHandle k).rel = s.rel := rfl
@[simp] theorem dropHandle_pwr : (s.dropHandle k).pwr = s.pwr := rfl
@[simp] theorem dropHandle_start : (s.dropHandle k).start = s.start := rfl
@[simp] theorem dropHandle_fw : (s.dropHandle k).fw = s.fw := rfl
@[simp] theorem dropHandle_evt : (s.dropHandle k).evt = s.evt := rfl
@[simp] theorem dropHandle_regs : (s.dropHandle k).regs = s.regs := rfl
@[simp] theorem dropHandle_hs_gens : (s.dropHandle k).hs.gens = s.hs.gens := rfl

end

/-! ### setGroup -/

section

variable {g : Group}

@[simp] theorem setGroup_pending : (s.setGroup g).pending = s.pending := rfl
@[simp] theorem setGroup_tick : (s.setGroup g).tick = s.tick := rfl
@[simp] theorem setGroup_freeCount : (s.setGroup g).freeCount = s.freeCount := rfl
@[simp] theorem setGroup_host : (s.setGroup g).host = s.host := rfl
@[simp] theorem setGroup_hs : (s.setGroup g).hs = s.hs := rfl
@[simp] theorem setGroup_rg : (s.setGroup g).rg = s.rg := rfl
@[simp] theorem setGroup_ctxs : (s.setGroup g).ctxs = s.ctxs := rfl
@[simp] theorem setGroup_units : (s.setGroup g).units = s.units := rfl
@[simp] theorem setGroup_codec : (s.setGroup g).codec = s.codec := rfl
@[simp] theorem setGroup_eng : (s.setGroup g).eng = s.eng := rfl
@[simp] theorem setGroup_mov : (s.setGroup g).mov = s.mov := rfl
@[simp] theorem setGroup_lnk : (s.setGroup g).lnk = s.lnk := rfl
@[simp] theorem setGroup_vault : (s.setGroup g).vault = s.vault := rfl
@[simp] theorem setGroup_forms : (s.setGroup g).forms = s.forms := rfl
@[simp] theorem setGroup_syn : (s.setGroup g).syn = s.syn := rfl
@[simp] theorem setGroup_rel : (s.setGroup g).rel = s.rel := rfl
@[simp] theorem setGroup_pwr : (s.setGroup g).pwr = s.pwr := rfl
@[simp] theorem setGroup_start : (s.setGroup g).start = s.start := rfl
@[simp] theorem setGroup_fw : (s.setGroup g).fw = s.fw := rfl
@[simp] theorem setGroup_evt : (s.setGroup g).evt = s.evt := rfl
@[simp] theorem setGroup_regs : (s.setGroup g).regs = s.regs := rfl

end

/-! ### hostWrite -/

section

variable {addr : Nat} {bytes : List Byte}

@[simp] theorem hostWrite_pending : (s.hostWrite addr bytes).pending = s.pending := rfl
@[simp] theorem hostWrite_tick : (s.hostWrite addr bytes).tick = s.tick := rfl
@[simp] theorem hostWrite_freeCount : (s.hostWrite addr bytes).freeCount = s.freeCount := rfl
@[simp] theorem hostWrite_hs : (s.hostWrite addr bytes).hs = s.hs := rfl
@[simp] theorem hostWrite_rg : (s.hostWrite addr bytes).rg = s.rg := rfl
@[simp] theorem hostWrite_ctxs : (s.hostWrite addr bytes).ctxs = s.ctxs := rfl
@[simp] theorem hostWrite_units : (s.hostWrite addr bytes).units = s.units := rfl
@[simp] theorem hostWrite_codec : (s.hostWrite addr bytes).codec = s.codec := rfl
@[simp] theorem hostWrite_eng : (s.hostWrite addr bytes).eng = s.eng := rfl
@[simp] theorem hostWrite_mov : (s.hostWrite addr bytes).mov = s.mov := rfl
@[simp] theorem hostWrite_lnk : (s.hostWrite addr bytes).lnk = s.lnk := rfl
@[simp] theorem hostWrite_vault : (s.hostWrite addr bytes).vault = s.vault := rfl
@[simp] theorem hostWrite_groups : (s.hostWrite addr bytes).groups = s.groups := rfl
@[simp] theorem hostWrite_forms : (s.hostWrite addr bytes).forms = s.forms := rfl
@[simp] theorem hostWrite_syn : (s.hostWrite addr bytes).syn = s.syn := rfl
@[simp] theorem hostWrite_rel : (s.hostWrite addr bytes).rel = s.rel := rfl
@[simp] theorem hostWrite_pwr : (s.hostWrite addr bytes).pwr = s.pwr := rfl
@[simp] theorem hostWrite_start : (s.hostWrite addr bytes).start = s.start := rfl
@[simp] theorem hostWrite_fw : (s.hostWrite addr bytes).fw = s.fw := rfl
@[simp] theorem hostWrite_evt : (s.hostWrite addr bytes).evt = s.evt := rfl
@[simp] theorem hostWrite_regs : (s.hostWrite addr bytes).regs = s.regs := rfl

end

/-! ### hostDeliver -/

section

variable {addr len skip : Nat} {data : Tab Byte} {poison : List Nat}

@[simp] theorem hostDeliver_pending : (s.hostDeliver addr len data skip poison).pending = s.pending := rfl
@[simp] theorem hostDeliver_tick : (s.hostDeliver addr len data skip poison).tick = s.tick := rfl
@[simp] theorem hostDeliver_freeCount : (s.hostDeliver addr len data skip poison).freeCount = s.freeCount := rfl
@[simp] theorem hostDeliver_hs : (s.hostDeliver addr len data skip poison).hs = s.hs := rfl
@[simp] theorem hostDeliver_rg : (s.hostDeliver addr len data skip poison).rg = s.rg := rfl
@[simp] theorem hostDeliver_ctxs : (s.hostDeliver addr len data skip poison).ctxs = s.ctxs := rfl
@[simp] theorem hostDeliver_units : (s.hostDeliver addr len data skip poison).units = s.units := rfl
@[simp] theorem hostDeliver_codec : (s.hostDeliver addr len data skip poison).codec = s.codec := rfl
@[simp] theorem hostDeliver_eng : (s.hostDeliver addr len data skip poison).eng = s.eng := rfl
@[simp] theorem hostDeliver_mov : (s.hostDeliver addr len data skip poison).mov = s.mov := rfl
@[simp] theorem hostDeliver_lnk : (s.hostDeliver addr len data skip poison).lnk = s.lnk := rfl
@[simp] theorem hostDeliver_vault : (s.hostDeliver addr len data skip poison).vault = s.vault := rfl
@[simp] theorem hostDeliver_groups : (s.hostDeliver addr len data skip poison).groups = s.groups := rfl
@[simp] theorem hostDeliver_forms : (s.hostDeliver addr len data skip poison).forms = s.forms := rfl
@[simp] theorem hostDeliver_syn : (s.hostDeliver addr len data skip poison).syn = s.syn := rfl
@[simp] theorem hostDeliver_rel : (s.hostDeliver addr len data skip poison).rel = s.rel := rfl
@[simp] theorem hostDeliver_pwr : (s.hostDeliver addr len data skip poison).pwr = s.pwr := rfl
@[simp] theorem hostDeliver_start : (s.hostDeliver addr len data skip poison).start = s.start := rfl
@[simp] theorem hostDeliver_fw : (s.hostDeliver addr len data skip poison).fw = s.fw := rfl
@[simp] theorem hostDeliver_evt : (s.hostDeliver addr len data skip poison).evt = s.evt := rfl
@[simp] theorem hostDeliver_regs : (s.hostDeliver addr len data skip poison).regs = s.regs := rfl

end

/-! ### setPeer -/

section

variable {p : Peer}

@[simp] theorem setPeer_pending : (s.setPeer p).pending = s.pending := rfl
@[simp] theorem setPeer_tick : (s.setPeer p).tick = s.tick := rfl
@[simp] theorem setPeer_freeCount : (s.setPeer p).freeCount = s.freeCount := rfl
@[simp] theorem setPeer_host : (s.setPeer p).host = s.host := rfl
@[simp] theorem setPeer_hs : (s.setPeer p).hs = s.hs := rfl
@[simp] theorem setPeer_rg : (s.setPeer p).rg = s.rg := rfl
@[simp] theorem setPeer_ctxs : (s.setPeer p).ctxs = s.ctxs := rfl
@[simp] theorem setPeer_units : (s.setPeer p).units = s.units := rfl
@[simp] theorem setPeer_codec : (s.setPeer p).codec = s.codec := rfl
@[simp] theorem setPeer_eng : (s.setPeer p).eng = s.eng := rfl
@[simp] theorem setPeer_mov : (s.setPeer p).mov = s.mov := rfl
@[simp] theorem setPeer_vault : (s.setPeer p).vault = s.vault := rfl
@[simp] theorem setPeer_groups : (s.setPeer p).groups = s.groups := rfl
@[simp] theorem setPeer_forms : (s.setPeer p).forms = s.forms := rfl
@[simp] theorem setPeer_syn : (s.setPeer p).syn = s.syn := rfl
@[simp] theorem setPeer_rel : (s.setPeer p).rel = s.rel := rfl
@[simp] theorem setPeer_pwr : (s.setPeer p).pwr = s.pwr := rfl
@[simp] theorem setPeer_start : (s.setPeer p).start = s.start := rfl
@[simp] theorem setPeer_fw : (s.setPeer p).fw = s.fw := rfl
@[simp] theorem setPeer_evt : (s.setPeer p).evt = s.evt := rfl
@[simp] theorem setPeer_regs : (s.setPeer p).regs = s.regs := rfl
@[simp] theorem setPeer_lnk_links : (s.setPeer p).lnk.links = s.lnk.links := rfl

end

/-! ### setChan -/

section

variable {h : Hub} {c : Nat} {x : Channel}

@[simp] theorem setChan_pending : (s.setChan h c x).pending = s.pending := rfl
@[simp] theorem setChan_tick : (s.setChan h c x).tick = s.tick := rfl
@[simp] theorem setChan_freeCount : (s.setChan h c x).freeCount = s.freeCount := rfl
@[simp] theorem setChan_host : (s.setChan h c x).host = s.host := rfl
@[simp] theorem setChan_hs : (s.setChan h c x).hs = s.hs := rfl
@[simp] theorem setChan_rg : (s.setChan h c x).rg = s.rg := rfl
@[simp] theorem setChan_ctxs : (s.setChan h c x).ctxs = s.ctxs := rfl
@[simp] theorem setChan_units : (s.setChan h c x).units = s.units := rfl
@[simp] theorem setChan_codec : (s.setChan h c x).codec = s.codec := rfl
@[simp] theorem setChan_eng : (s.setChan h c x).eng = s.eng := rfl
@[simp] theorem setChan_lnk : (s.setChan h c x).lnk = s.lnk := rfl
@[simp] theorem setChan_vault : (s.setChan h c x).vault = s.vault := rfl
@[simp] theorem setChan_groups : (s.setChan h c x).groups = s.groups := rfl
@[simp] theorem setChan_forms : (s.setChan h c x).forms = s.forms := rfl
@[simp] theorem setChan_syn : (s.setChan h c x).syn = s.syn := rfl
@[simp] theorem setChan_rel : (s.setChan h c x).rel = s.rel := rfl
@[simp] theorem setChan_pwr : (s.setChan h c x).pwr = s.pwr := rfl
@[simp] theorem setChan_start : (s.setChan h c x).start = s.start := rfl
@[simp] theorem setChan_fw : (s.setChan h c x).fw = s.fw := rfl
@[simp] theorem setChan_evt : (s.setChan h c x).evt = s.evt := rfl
@[simp] theorem setChan_regs : (s.setChan h c x).regs = s.regs := rfl

end

/-! ### setEngine -/

section

variable {h : Hub} {e : Nat} {g : Engine}

@[simp] theorem setEngine_pending : (s.setEngine h e g).pending = s.pending := rfl
@[simp] theorem setEngine_tick : (s.setEngine h e g).tick = s.tick := rfl
@[simp] theorem setEngine_freeCount : (s.setEngine h e g).freeCount = s.freeCount := rfl
@[simp] theorem setEngine_host : (s.setEngine h e g).host = s.host := rfl
@[simp] theorem setEngine_hs : (s.setEngine h e g).hs = s.hs := rfl
@[simp] theorem setEngine_rg : (s.setEngine h e g).rg = s.rg := rfl
@[simp] theorem setEngine_ctxs : (s.setEngine h e g).ctxs = s.ctxs := rfl
@[simp] theorem setEngine_units : (s.setEngine h e g).units = s.units := rfl
@[simp] theorem setEngine_codec : (s.setEngine h e g).codec = s.codec := rfl
@[simp] theorem setEngine_mov : (s.setEngine h e g).mov = s.mov := rfl
@[simp] theorem setEngine_lnk : (s.setEngine h e g).lnk = s.lnk := rfl
@[simp] theorem setEngine_vault : (s.setEngine h e g).vault = s.vault := rfl
@[simp] theorem setEngine_groups : (s.setEngine h e g).groups = s.groups := rfl
@[simp] theorem setEngine_forms : (s.setEngine h e g).forms = s.forms := rfl
@[simp] theorem setEngine_syn : (s.setEngine h e g).syn = s.syn := rfl
@[simp] theorem setEngine_rel : (s.setEngine h e g).rel = s.rel := rfl
@[simp] theorem setEngine_pwr : (s.setEngine h e g).pwr = s.pwr := rfl
@[simp] theorem setEngine_start : (s.setEngine h e g).start = s.start := rfl
@[simp] theorem setEngine_fw : (s.setEngine h e g).fw = s.fw := rfl
@[simp] theorem setEngine_evt : (s.setEngine h e g).evt = s.evt := rfl
@[simp] theorem setEngine_regs : (s.setEngine h e g).regs = s.regs := rfl
@[simp] theorem setEngine_eng_runs : (s.setEngine h e g).eng.runs = s.eng.runs := rfl

end

/-! ### setGlint -/

section

variable {g : Fin 256} {x : Glint}

@[simp] theorem setGlint_pending : (s.setGlint g x).pending = s.pending := rfl
@[simp] theorem setGlint_tick : (s.setGlint g x).tick = s.tick := rfl
@[simp] theorem setGlint_freeCount : (s.setGlint g x).freeCount = s.freeCount := rfl
@[simp] theorem setGlint_host : (s.setGlint g x).host = s.host := rfl
@[simp] theorem setGlint_hs : (s.setGlint g x).hs = s.hs := rfl
@[simp] theorem setGlint_rg : (s.setGlint g x).rg = s.rg := rfl
@[simp] theorem setGlint_ctxs : (s.setGlint g x).ctxs = s.ctxs := rfl
@[simp] theorem setGlint_units : (s.setGlint g x).units = s.units := rfl
@[simp] theorem setGlint_eng : (s.setGlint g x).eng = s.eng := rfl
@[simp] theorem setGlint_mov : (s.setGlint g x).mov = s.mov := rfl
@[simp] theorem setGlint_lnk : (s.setGlint g x).lnk = s.lnk := rfl
@[simp] theorem setGlint_vault : (s.setGlint g x).vault = s.vault := rfl
@[simp] theorem setGlint_groups : (s.setGlint g x).groups = s.groups := rfl
@[simp] theorem setGlint_forms : (s.setGlint g x).forms = s.forms := rfl
@[simp] theorem setGlint_syn : (s.setGlint g x).syn = s.syn := rfl
@[simp] theorem setGlint_rel : (s.setGlint g x).rel = s.rel := rfl
@[simp] theorem setGlint_pwr : (s.setGlint g x).pwr = s.pwr := rfl
@[simp] theorem setGlint_start : (s.setGlint g x).start = s.start := rfl
@[simp] theorem setGlint_fw : (s.setGlint g x).fw = s.fw := rfl
@[simp] theorem setGlint_evt : (s.setGlint g x).evt = s.evt := rfl
@[simp] theorem setGlint_regs : (s.setGlint g x).regs = s.regs := rfl
@[simp] theorem setGlint_codec_lanes : (s.setGlint g x).codec.lanes = s.codec.lanes := rfl
@[simp] theorem setGlint_codec_jobs : (s.setGlint g x).codec.jobs = s.codec.jobs := rfl

end

/-! ### setBist -/

section

variable {b : Bist}

@[simp] theorem setBist_pending : (s.setBist b).pending = s.pending := rfl
@[simp] theorem setBist_tick : (s.setBist b).tick = s.tick := rfl
@[simp] theorem setBist_freeCount : (s.setBist b).freeCount = s.freeCount := rfl
@[simp] theorem setBist_host : (s.setBist b).host = s.host := rfl
@[simp] theorem setBist_hs : (s.setBist b).hs = s.hs := rfl
@[simp] theorem setBist_rg : (s.setBist b).rg = s.rg := rfl
@[simp] theorem setBist_ctxs : (s.setBist b).ctxs = s.ctxs := rfl
@[simp] theorem setBist_units : (s.setBist b).units = s.units := rfl
@[simp] theorem setBist_codec : (s.setBist b).codec = s.codec := rfl
@[simp] theorem setBist_eng : (s.setBist b).eng = s.eng := rfl
@[simp] theorem setBist_mov : (s.setBist b).mov = s.mov := rfl
@[simp] theorem setBist_lnk : (s.setBist b).lnk = s.lnk := rfl
@[simp] theorem setBist_vault : (s.setBist b).vault = s.vault := rfl
@[simp] theorem setBist_groups : (s.setBist b).groups = s.groups := rfl
@[simp] theorem setBist_forms : (s.setBist b).forms = s.forms := rfl
@[simp] theorem setBist_syn : (s.setBist b).syn = s.syn := rfl
@[simp] theorem setBist_pwr : (s.setBist b).pwr = s.pwr := rfl
@[simp] theorem setBist_start : (s.setBist b).start = s.start := rfl
@[simp] theorem setBist_fw : (s.setBist b).fw = s.fw := rfl
@[simp] theorem setBist_evt : (s.setBist b).evt = s.evt := rfl
@[simp] theorem setBist_regs : (s.setBist b).regs = s.regs := rfl
@[simp] theorem setBist_rel_self : (s.setBist b).rel.bist = b := rfl
@[simp] theorem setBist_rel_hubs : (s.setBist b).rel.hubs = s.rel.hubs := rfl

end

/-! ### setPins -/

section

variable {p : Pins}

@[simp] theorem setPins_pending : (s.setPins p).pending = s.pending := rfl
@[simp] theorem setPins_tick : (s.setPins p).tick = s.tick := rfl
@[simp] theorem setPins_freeCount : (s.setPins p).freeCount = s.freeCount := rfl
@[simp] theorem setPins_host : (s.setPins p).host = s.host := rfl
@[simp] theorem setPins_hs : (s.setPins p).hs = s.hs := rfl
@[simp] theorem setPins_rg : (s.setPins p).rg = s.rg := rfl
@[simp] theorem setPins_ctxs : (s.setPins p).ctxs = s.ctxs := rfl
@[simp] theorem setPins_units : (s.setPins p).units = s.units := rfl
@[simp] theorem setPins_codec : (s.setPins p).codec = s.codec := rfl
@[simp] theorem setPins_eng : (s.setPins p).eng = s.eng := rfl
@[simp] theorem setPins_mov : (s.setPins p).mov = s.mov := rfl
@[simp] theorem setPins_lnk : (s.setPins p).lnk = s.lnk := rfl
@[simp] theorem setPins_vault : (s.setPins p).vault = s.vault := rfl
@[simp] theorem setPins_groups : (s.setPins p).groups = s.groups := rfl
@[simp] theorem setPins_forms : (s.setPins p).forms = s.forms := rfl
@[simp] theorem setPins_syn : (s.setPins p).syn = s.syn := rfl
@[simp] theorem setPins_rel : (s.setPins p).rel = s.rel := rfl
@[simp] theorem setPins_pwr : (s.setPins p).pwr = s.pwr := rfl
@[simp] theorem setPins_fw : (s.setPins p).fw = s.fw := rfl
@[simp] theorem setPins_evt : (s.setPins p).evt = s.evt := rfl
@[simp] theorem setPins_regs : (s.setPins p).regs = s.regs := rfl
@[simp] theorem setPins_start_self : (s.setPins p).start.pins = p := rfl
@[simp] theorem setPins_start_level : (s.setPins p).start.level = s.start.level := rfl
@[simp] theorem setPins_start_quench : (s.setPins p).start.quench = s.start.quench := rfl

end

/-! ### setStore -/

section

variable {st : Store}

@[simp] theorem setStore_pending : (s.setStore st).pending = s.pending := rfl
@[simp] theorem setStore_tick : (s.setStore st).tick = s.tick := rfl
@[simp] theorem setStore_freeCount : (s.setStore st).freeCount = s.freeCount := rfl
@[simp] theorem setStore_host : (s.setStore st).host = s.host := rfl
@[simp] theorem setStore_hs : (s.setStore st).hs = s.hs := rfl
@[simp] theorem setStore_rg : (s.setStore st).rg = s.rg := rfl
@[simp] theorem setStore_ctxs : (s.setStore st).ctxs = s.ctxs := rfl
@[simp] theorem setStore_units : (s.setStore st).units = s.units := rfl
@[simp] theorem setStore_codec : (s.setStore st).codec = s.codec := rfl
@[simp] theorem setStore_eng : (s.setStore st).eng = s.eng := rfl
@[simp] theorem setStore_mov : (s.setStore st).mov = s.mov := rfl
@[simp] theorem setStore_lnk : (s.setStore st).lnk = s.lnk := rfl
@[simp] theorem setStore_vault : (s.setStore st).vault = s.vault := rfl
@[simp] theorem setStore_groups : (s.setStore st).groups = s.groups := rfl
@[simp] theorem setStore_forms : (s.setStore st).forms = s.forms := rfl
@[simp] theorem setStore_syn : (s.setStore st).syn = s.syn := rfl
@[simp] theorem setStore_rel : (s.setStore st).rel = s.rel := rfl
@[simp] theorem setStore_pwr : (s.setStore st).pwr = s.pwr := rfl
@[simp] theorem setStore_start : (s.setStore st).start = s.start := rfl
@[simp] theorem setStore_fw : (s.setStore st).fw = s.fw := rfl
@[simp] theorem setStore_regs : (s.setStore st).regs = s.regs := rfl
@[simp] theorem setStore_evt_self : (s.setStore st).evt.store = st := rfl
@[simp] theorem setStore_evt_hubs : (s.setStore st).evt.hubs = s.evt.hubs := rfl

end

/-! ### A free value -/

@[simp] theorem fresh_pending {w : Nat} : (s.fresh w).2.pending = s.pending := rfl
@[simp] theorem fresh_tick {w : Nat} : (s.fresh w).2.tick = s.tick := rfl
@[simp] theorem fresh_host {w : Nat} : (s.fresh w).2.host = s.host := rfl
@[simp] theorem fresh_hs {w : Nat} : (s.fresh w).2.hs = s.hs := rfl
@[simp] theorem fresh_rg {w : Nat} : (s.fresh w).2.rg = s.rg := rfl
@[simp] theorem fresh_ctxs {w : Nat} : (s.fresh w).2.ctxs = s.ctxs := rfl
@[simp] theorem fresh_units {w : Nat} : (s.fresh w).2.units = s.units := rfl
@[simp] theorem fresh_codec {w : Nat} : (s.fresh w).2.codec = s.codec := rfl
@[simp] theorem fresh_eng {w : Nat} : (s.fresh w).2.eng = s.eng := rfl
@[simp] theorem fresh_mov {w : Nat} : (s.fresh w).2.mov = s.mov := rfl
@[simp] theorem fresh_lnk {w : Nat} : (s.fresh w).2.lnk = s.lnk := rfl
@[simp] theorem fresh_vault {w : Nat} : (s.fresh w).2.vault = s.vault := rfl
@[simp] theorem fresh_groups {w : Nat} : (s.fresh w).2.groups = s.groups := rfl
@[simp] theorem fresh_forms {w : Nat} : (s.fresh w).2.forms = s.forms := rfl
@[simp] theorem fresh_syn {w : Nat} : (s.fresh w).2.syn = s.syn := rfl
@[simp] theorem fresh_rel {w : Nat} : (s.fresh w).2.rel = s.rel := rfl
@[simp] theorem fresh_pwr {w : Nat} : (s.fresh w).2.pwr = s.pwr := rfl
@[simp] theorem fresh_start {w : Nat} : (s.fresh w).2.start = s.start := rfl
@[simp] theorem fresh_fw {w : Nat} : (s.fresh w).2.fw = s.fw := rfl
@[simp] theorem fresh_evt {w : Nat} : (s.fresh w).2.evt = s.evt := rfl
@[simp] theorem fresh_regs {w : Nat} : (s.fresh w).2.regs = s.regs := rfl
@[simp] theorem fresh_freeCount {w : Nat} : (s.fresh w).2.freeCount = s.freeCount + 1 := rfl

end Sys2Proof.Machine
end

