-- ==== Sys2Proof/Laws/Ops.lean ====
section
/-!
SUPPORT. What each shared operation of Machine/Ops.lean can do, said once: the cases of a descriptor's start, of an event, of
a completion and of a read of a unit just replaced, and that every operation keeps what `Keeps` names.
-/
namespace Sys2Proof.Machine

variable {a s : State}

/-! ### What was replaced is what is found -/

theorem find_replaced {α κ : Type} [DecidableEq κ] {key : α → κ} {x : α} {k : κ} {l : List α} (hx : key x = k)
    (h : (l.find? (fun y => key y == k)).isSome = true) :
    (l.map (fun y => if key y = k then x else y)).find? (fun y => key y == k) = some x := by
  induction l with
  | nil => simp at h
  | cons y l ih =>
    by_cases hy : key y = k
    · simp [hy, hx]
    · have hb : (key y == k) = false := by simpa using hy
      simp only [List.find?_cons, hb] at h
      simp only [List.map_cons, if_neg hy, List.find?_cons, hb]
      exact ih h

theorem find_other {α κ : Type} [DecidableEq κ] {key : α → κ} {x : α} {k j : κ} {l : List α} (hx : key x = k) (hj : j ≠ k) :
    (l.map (fun y => if key y = k then x else y)).find? (fun y => key y == j) = l.find? (fun y => key y == j) := by
  induction l with
  | nil => rfl
  | cons y l ih =>
    by_cases hy : key y = k
    · have hb : (k == j) = false := by simpa using Ne.symm hj
      simp only [List.map_cons, hy, if_true, List.find?_cons, hx, hb, ih]
    · simp only [List.map_cons, hy, if_false, List.find?_cons, ih]

/-- A handle replaced is the one found under its key; every other is found as before. -/
theorem handle_setHandle {h : Handle} (e : (s.handle? h.key).isSome = true) : (s.setHandle h).handle? h.key = some h :=
  find_replaced (key := Handle.key) rfl e
theorem handle_setHandle_ne {h : Handle} {k : HKey} (e : k ≠ h.key) : (s.setHandle h).handle? k = s.handle? k :=
  find_other (key := Handle.key) rfl e

/-- The same for a ring, a context and a group. -/
theorem ring_setRing {r : Ring} (e : (s.ring? r.id).isSome = true) : (s.setRing r).ring? r.id = some r :=
  find_replaced (key := Ring.id) rfl e
theorem ring_setRing_ne {r : Ring} {n : Nat} (e : n ≠ r.id) : (s.setRing r).ring? n = s.ring? n :=
  find_other (key := Ring.id) rfl e
theorem ctx_setCtx {c : Ctx} (e : (s.ctx? c.id).isSome = true) : (s.setCtx c).ctx? c.id = some c :=
  find_replaced (key := Ctx.id) rfl e
theorem ctx_setCtx_ne {c : Ctx} {n : Nat} (e : n ≠ c.id) : (s.setCtx c).ctx? n = s.ctx? n :=
  find_other (key := Ctx.id) rfl e
theorem group_setGroup {g : Group} (e : (s.group? g.slot).isSome = true) : (s.setGroup g).group? g.slot = some g :=
  find_replaced (key := Group.slot) rfl e
theorem group_setGroup_ne {g : Group} {n : Nat} (e : n ≠ g.slot) : (s.setGroup g).group? n = s.group? n :=
  find_other (key := Group.slot) rfl e

/-! ### The start of a descriptor (R33, R313, R327, R606, R621) -/

/-- A descriptor waits, ends with the first check it fails, or is acted on. -/
theorem withDesc_cases (s : State) (d : Desc) (x : DescSpec) (act : Ticket → State → State) :
    s.withDesc d x act = s
    ∨ (∃ r e, s.ring? d.ring.toNat = some r ∧ descCheck r.sqOrder d x = some e
        ∧ s.withDesc d x act = s.complete { d.ticket with xres := false } { status := e })
    ∨ (∃ r, s.ring? d.ring.toNat = some r ∧ s.serves d.ring.toNat = true ∧ r.mayStart d = true ∧ s.writeWaits r d = false
        ∧ descCheck r.sqOrder d x = none ∧ s.withDesc d x act = act d.ticket s) := by
  unfold State.withDesc
  split
  · exact .inl rfl
  · rename_i r hr
    split
    · exact .inl rfl
    · rename_i hw
      simp only [Bool.or_eq_true, Bool.not_eq_true', not_or, Bool.not_eq_false, Bool.not_eq_true] at hw
      split
      · rename_i e he
        exact .inr (.inl ⟨r, e, hr, he, rfl⟩)
      · rename_i he
        split
        · exact .inl rfl
        · exact .inr (.inr ⟨r, hr, hw.1.1, hw.1.2, hw.2, he, rfl⟩)

/-! ### What every operation keeps -/

theorem setRing_keeps {r : Ring} (h : Keeps a s) : Keeps a (s.setRing r) := h
theorem setWindow_keeps {n : Hub} {w : List Written} (h : Keeps a s) : Keeps a (s.setWindow n w) := h
theorem setPort_keeps {n : Hub} {p : HostPort} (h : Keeps a s) : Keeps a (s.setPort n p) := h
theorem setSync_keeps {n : Hub} {y : Sync} (h : Keeps a s) : Keeps a (s.setSync n y) := h
theorem setRecorder_keeps {n : Hub} {r : Recorder} (h : Keeps a s) : Keeps a (s.setRecorder n r) := h
theorem setHandle_keeps {x : Handle} (h : Keeps a s) : Keeps a (s.setHandle x) := h
theorem setCtx_keeps {x : Ctx} (h : Keeps a s) : Keeps a (s.setCtx x) := h
theorem setGroup_keeps {x : Group} (h : Keeps a s) : Keeps a (s.setGroup x) := h

theorem event_keeps {n : Hub} {e : Event} (h : Keeps a s) : Keeps a (s.event n e) := by
  unfold State.event
  exact ite_keeps h (ite_keeps h h)

theorem eventAll_keeps {e : Event} (h : Keeps a s) : Keeps a (s.eventAll e) :=
  event_keeps (event_keeps (event_keeps (event_keeps h)))

theorem interrupt_keeps {was : Bool} (h : Keeps a s) : Keeps a (s.interrupt was) := by
  unfold State.interrupt
  exact ite_keeps h h

theorem alert_keeps {b : Fin 8} (h : Keeps a s) : Keeps a (s.alert b) := interrupt_keeps h

theorem journal_keeps {typ key hub : Nat} {rs : List EvRecord} {p : List Byte} (h : Keeps a s) :
    Keeps a (s.journal typ key hub rs p) := h

theorem bumpEpoch_keeps {u : UnitName} (h : Keeps a s) : Keeps a (s.bumpEpoch u) := h

theorem cqWrite_keeps {r : Ring} {e : BitVec 128} (h : Keeps a s) : Keeps a (s.cqWrite r e) := by
  unfold State.cqWrite
  exact setRing_keeps (setWindow_keeps (hostWrite_keeps (hostWrite_keeps h)))

theorem post_keeps {ring ssl kind : Nat} {uns xres : Bool} {st : BitVec 8} {fl : BitVec 3} {res : BitVec 64} (h : Keeps a s) :
    Keeps a (s.post ring uns ssl st fl xres kind res) := by
  unfold State.post
  split
  · exact h
  · exact ite_keeps (cqWrite_keeps h) (ite_keeps (ite_keeps h (event_keeps h)) h)

theorem answer_keeps {t : Ticket} {d : Done} (h : Keeps a s) : Keeps a (s.answer t d) := by
  unfold State.answer
  have k : Keeps a (if t.xres then s.hostWrite t.resultAddr d.xbytes else s) := ite_keeps (hostWrite_keeps h) h
  exact ite_keeps k (post_keeps k)

theorem endDestroy_keeps {ring : Nat} (h : Keeps a s) : Keeps a (s.endDestroy ring) := by
  unfold State.endDestroy
  split
  · split
    · split
      · refine answer_keeps ?_
        split <;> exact h
      · exact h
    · exact h
  · exact h

/-- A completion changes no more than its ring, host memory and the recorder. -/
theorem complete_keeps {t : Ticket} {d : Done} (h : Keeps a s) : Keeps a (s.complete t d) := by
  unfold State.complete
  split
  · exact h
  · exact endDestroy_keeps (answer_keeps h)

theorem sendFence_keeps {n : Hub} (h : Keeps a s) : Keeps a (s.sendFence n) := h

theorem behind_keeps {ports : List Hub} {w : FenceWait} (h : Keeps a s) : Keeps a (s.behind ports w) :=
  Keeps.trans (foldl_keeps (fun _ _ => sendFence_keeps) h) (Keeps.refl _)

theorem sendRead_keeps {n : Hub} {addr len : Nat} {use : ReadUse} (h : Keeps a s) : Keeps a (s.sendRead n addr len use) := h

theorem completeVia_keeps {t : Ticket} {ports : List Hub} {d : Done} (h : Keeps a s) : Keeps a (s.completeVia t ports d) := by
  unfold State.completeVia
  exact ite_keeps (complete_keeps h) (behind_keeps h)

theorem notice_keeps {code detail : Nat} (h : Keeps a s) : Keeps a (s.notice code detail) := by
  unfold State.notice
  exact ite_keeps (post_keeps h) h

theorem syndrome_keeps {u : UnitName} (h : Keeps a s) : Keeps a (s.syndrome u).2 := by
  unfold State.syndrome
  split
  · exact fresh_keeps (w := 64) h
  · exact fresh_keeps (w := 128) h

theorem charge_keeps {ctx tier : Nat} {n : Int} (h : Keeps a s) : Keeps a (s.charge ctx tier n) := by
  unfold State.charge
  split <;> exact h

theorem wakeOut_keeps {n : Hub} (h : Keeps a s) : Keeps a (s.wakeOut n) := by
  unfold State.wakeOut
  exact ite_keeps h h

theorem setHostCtr_keeps {n : Hub} {c : Nat} {v : BitVec 32} (h : Keeps a s) : Keeps a (s.setHostCtr n c v) := by
  have k : Keeps a (if (s.ctrCfg n c).getLsbD 29 then s.wakeOut n else s) := ite_keeps (wakeOut_keeps h) h
  exact k

theorem markRaise_keeps {n : Hub} {c : Nat} (h : Keeps a s) : Keeps a (s.markRaise n c) := h

theorem raiseHost_keeps {n : Hub} {c : Nat} {v : BitVec 32} (h : Keeps a s) : Keeps a (s.raiseHost n c v) :=
  markRaise_keeps (setHostCtr_keeps h)

theorem withRel_keeps {r : Reliability} (h : Keeps a s) : Keeps a { s with rel := r } := h

theorem cper_keeps {sev cls code handle dec test fin spares hist pack : Nat} {u : UnitName} {ver : BitVec 32} (h : Keeps a s) :
    Keeps a (s.cper sev cls u code handle dec test fin spares hist pack ver) := by
  have k1 : Keeps a (if cls = 2 ∧ u.kind = 0 then s.fresh 56 else (0, s)).2 := by
    split
    · exact fresh_keeps (w := 56) h
    · exact h
  have k2 : Keeps a (if (cls = 2 ∧ u.kind = 0) ∨ isStorage u.kind = true then
      (if cls = 2 ∧ u.kind = 0 then s.fresh 56 else (0, s)).2.fresh 64
      else (0, (if cls = 2 ∧ u.kind = 0 then s.fresh 56 else (0, s)).2)).2 := by
    split
    · exact fresh_keeps (w := 64) k1
    · exact k1
  have k3 := syndrome_keeps (u := u) k2
  unfold State.cper
  dsimp only
  exact notice_keeps (event_keeps (journal_keeps (withRel_keeps k3)))

theorem poisonCreated_keeps {n : Hub} {handle : Nat} (h : Keeps a s) : Keeps a (s.poisonCreated n handle) := by
  unfold State.poisonCreated
  exact cper_keeps (event_keeps h)

/-- A descriptor keeps what its action keeps. -/
theorem withDesc_keeps {d : Desc} {x : DescSpec} {act : Ticket → State → State} (h : Keeps a s)
    (ha : ∀ t u, Keeps a u → Keeps a (act t u)) : Keeps a (s.withDesc d x act) := by
  rcases withDesc_cases s d x act with e | ⟨r, c, _, _, e⟩ | ⟨r, _, _, _, _, _, e⟩ <;> rw [e]
  · exact h
  · exact complete_keeps h
  · exact ha _ _ h

end Sys2Proof.Machine
end

