-- ==== Sys2Proof/WellFormed.lean ====
section
/-!
DEFINITION. Which commands are well formed: the lists they carry have the lengths the spec's messages and registers
give them. No meaning rests on it: a short list reads as zeros and no state is refused for it.
-/
namespace Sys2Proof

/-- Every codec, link and power sample names as many values as the spec gives the block (R572, R577, Table 11-2). -/
def Instr.wf : Instr → Bool
  | .pnWr _ m => m.data.length == 4096
  | .pnRdData _ m => if m.block then m.data.length == 4096 else m.data.length % 256 == 0
  | .paceWindowEnd samples => samples.length == 4 && samples.all (fun m => m.silicon.length == 6
      && m.power.length == 10 && m.demand.length == 10)
  | .align positions _ => positions.length == 4
  | .telemetrySnapshot _ sample => sample.sensors.length == 16 && sample.stackTemps.length == 2
  | .remoteSignal _ _ _ marks => decide (marks.length ≤ 32)
  | .i3cPrivateWrite _ bytes => decide (bytes.length ≤ 34)
  | .courseCompress _ _ fails => decide (fails ≤ 2)
  | _ => true

end Sys2Proof
end

