-- ==== Sys2Proof/Tests/Slice0.lean ====
section
/-!
SUPPORT. Tests: for every obligation a state and operands that meet the hypotheses of its clauses, a command that is not
well formed for each check of WellFormed, and small checks of single operations.
-/
set_option Elab.async false
set_option maxRecDepth 8000
set_option exponentiation.threshold 2000

namespace Sys2Proof.Tests
open Sys2Proof.Machine Sys2Proof.Claims

/-! ### Small states and operands -/

/-- A host port with one module and no traffic. -/
def port : HostPort := { HostPort.reset 0 with modules := 1 }

/-- A ring of a context, with its structures at a base. -/
def ringAt (id ctx base : Nat) : Ring := { Ring.admin base with id := id, ctx := ctx }

/-- A ledger with room. -/
def ledger : Ledger := { quota := 2 ^ 30, charge := 0, peak := 0 }

/-- A context with room in every ledger. -/
def ctxOf (id : Nat) : Ctx :=
  { id := id, seedLo := 0, seedHi := 0, shade := ledger, umbra := ledger, penumbra := ledger, spills := 0, active := none
    staged := none, planRing := 0, rules := [], step := none, counts := StepCounts.zero, exhausted := [], streams := []
    binding := none, mark := 0, lastStep := none }

/-- Level RING with UMBRA and LINKS, the admin ring, and ring 1 of context 5. -/
def up : State :=
  { State.reset with
    start := { State.reset.start with level := .ring, umbra := true, links := true }
    ctxs := [ctxOf 5]
    units := { State.reset.units with shade := Vector.replicate 64 .inService, stack := Vector.replicate 8 .inService }
    rg := { State.reset.rg with list := [ringAt 0 0 0x1000000, ringAt 1 5 0x2000000], ports := Vector.replicate 4 port
                                adminReg := 0x1000000, adminUsed := 0x1000000 } }

/-- The number whose bits `[hi:lo]` hold the values listed. -/
def fields (l : List (Nat × Nat × Nat)) : Nat := (l.map (fun x => x.2.2 % 2 ^ (x.1 + 1 - x.2.1) * 2 ^ x.2.1)).sum

/-- A descriptor of a ring with these operand fields. -/
def cmd (ring : BitVec 16) (l : List (Nat × Nat × Nat)) : Desc :=
  { ring := ring, sseq := 0, context := 0, rsvd := 0, prio := 0, xres := false, quiet := false, order := false, ext := false
    ops := BitVec.ofNat 384 (fields l / 2 ^ 64), resultAddr := 0, payload := 0 }

/-- The same with an extended result at 0x3000000. -/
def cmdX (ring : BitVec 16) (l : List (Nat × Nat × Nat)) : Desc :=
  { cmd ring l with xres := true, resultAddr := 0x3000000 }

/-- The object of context 5 that the tests use. -/
def key7 : HKey := { ctx := 5, obj := 7 }

/-- Its handle word, with generation 1. -/
def word7 : Nat := handleWord key7 1

/-- A RESIDENT STASH handle of one 4 KiB block in Shade bank 3. -/
def handle : Handle :=
  { key := key7, gen := 1
    shape := { size := 4096, format := 0, rows := 1, rowLen := 4096, tag := 0, set := 3 }
    fate := .stash
    perms := { narrow := false, tolerant := false, mutable := true, producer := false, adaptNarrow := false
               pinTier := false, noSwap := false, planned := false, narrowFormat := 0, errorBound := 0, widenBudget := 0 }
    place := { tier := 2, hubMask := 15, stackMask := 0, peer := 0 }, keepAddr := 0, state := .resident, readers := 0
    updates := 0, homes := [{ unit := .shade 0 3, form := .plain, epoch := 0 }], recipe := none, marks := Marks.none
    chargeShade := 4096, chargeUmbra := 0, chargePenumbra := 0, report := NarrowReport.none, content := [], frames := []
    fill := none, mig := none, waiting := [], pendingValue := none }

/-- The state that holds a handle. -/
def withHandle (h : Handle) : State := { up with hs := { list := [h], gens := [(h.key, h.gen)] } }

/-- A ticket of ring 1. -/
def tick1 : Ticket := { ring := 1, sseq := 0, quiet := false, xres := false, resultAddr := 0 }

/-- A peer with nothing granted. -/
def peer9 : Peer := Peer.fresh 9 0

/-- Every link UP, with package 9 at its other end. -/
def withPeer : State :=
  { up with lnk := { up.lnk with peers := [peer9], links := Vector.replicate 32 { Link.reset with
      state := .up, peer := some { pkg := 9, hub := 0, link := 0, major := 1, compat := 1, minorMax := 0, minorCap := 0, epoch := 0
                                   session := 0, slot := 0, patch := 0 } } } }

/-- Ring 1 STOPPED. -/
def stopped : Ring := { ringAt 1 5 0x2000000 with state := .stopped }

/-- Ring 1 with a descriptor to fetch. -/
def ready : Ring := { ringAt 1 5 0x2000000 with sqTail := 1 }

/-- Ring 1 with SQ_TAIL one past what its queue holds. -/
def far : Ring := { ringAt 1 5 0x2000000 with sqTail := 257 }

/-- Ring 1 with a completion held. -/
def holding : Ring := { ringAt 1 5 0x2000000 with held := [0] }

/-- WATCH messages are taken. -/
def watching : State :=
  { up with regs := { up.regs with hubs := Vector.replicate 4 { HubRegs.reset with watchEn := true } } }

/-- A request for a summary word, and one for a block of a fill's source. -/
def askSummary : PortReq := { tag := 4, addr := 0x1001FF8, len := 8, since := 0, use := .summary 1023 }
def askBlock : PortReq := { tag := 4, addr := 0x7000000, len := 4096, since := 0, use := .readyBlock key7 0 }

/-- A whole flit with nothing in it. -/
def flit : HostFlit :=
  { seq := 0, ack := 0xFFFF, nak := false, slots := 0, dataFlits := 0, creditMsgs := 0, creditData := 0, fcrcOk := true, dcrcOk := true }

/-- A completion that waits for a fence of hub 1. -/
def waitFence : FenceWait :=
  { ticket := tick1, status := 0, flags := 0, kind := 0, result := 0, xbytes := [], fences := [(1, 2)], writes := [] }

/-- What an answer that is not an error gives. -/
theorem okOf {ε α : Type} {x : Except ε α} (h : x.toOption.isSome = true) : ∃ a, x = .ok a := by
  cases x with
  | ok a => exact ⟨a, rfl⟩
  | error e => simp [Except.toOption] at h

/-- What is found, with a test it passes. -/
theorem someOf {α : Type} {x : Option α} {p : α → Bool} (h : x.any p = true) : ∃ a, x = some a ∧ p a = true := by
  cases x with
  | none => simp at h
  | some a => exact ⟨a, rfl, by simpa using h⟩

/-- The handle not filled yet, as its registration left it. -/
def fresh7 : Handle := { handle with state := .registered, homes := [], chargeShade := 0 }

/-- A fill of it. -/
def fill7 : Fill :=
  { ticket := tick1, prio := 0, ringCtx := 5, source := 0x7000000, readyBlocks := 0, readyBase := 0, readyHub := 0
    readyCtr := 0, nextBlock := 0, blocksIn := 1, run := none, op := none }

/-- The handle FILLING with every block in. -/
def filling7 : Handle := { handle with state := .filling, fill := some fill7 }

/-- A migration of it, with its one stripe in copy to bank 4. -/
def mig7 : Mig :=
  { order := 0, fate := .stash, place := handle.place, prio := 0, ticket := some tick1, drain := false, byController := false
    todo := [], copies := [{ stripe := 0, target := { unit := .shade 0 4, form := .plain, epoch := 0 } }], committed := 0
    old := [], ending := none }

/-- The handle MIGRATING. -/
def migrating7 : Handle := { handle with state := .migrating, mig := some mig7 }

/-- The handle whose old location is still read. -/
def leaving7 : Handle :=
  { handle with state := .migrating, mig := some { mig7 with copies := [], old := [(0, { unit := .shade 0 3, form := .plain, epoch := 0 })] } }

/-- A plan that lists nothing. -/
def plan : Plan :=
  { planId := 1, stepTicks := 1000, markCounter := none, basePrio := 2, prioMax := 6, controllerEn := true, guardTicks := 1
    fillTicks := 0, migrateBudget := 0, imageBytes := 64, tensors := [], recipes := [], batches := [], streams := [], rules := [] }

/-- One batch with nothing to restore. -/
def batch : PlanBatch :=
  { deadline := 100, openTicks := 100, openMax := 100, afterMark := 0, look := 1, lookMax := 1, restores := [] }

/-- A step of that plan. -/
def run : StepRun := { number := 1, start := 0, batches := [], calm := 0, ending := none }

/-- Context 5 with a plan and its step. -/
def stepping (p : Plan) (r : StepRun) : State := { up with ctxs := [{ ctxOf 5 with active := some p, step := some r }] }
def steppingCtx (p : Plan) (r : StepRun) : Ctx := { ctxOf 5 with active := some p, step := some r }

/-- A plan image of one header record for context 5, with its CRC. -/
def image : List Byte :=
  let h := leBytes 60 (fields [(63, 56, 1), (75, 64, 5), (95, 88, 1), (127, 96, 0x4145504C), (191, 128, 1), (223, 192, 1),
    (287, 256, 1000), (310, 308, 6), (351, 320, 1)])
  h ++ leBytes 4 (crc32c (h ++ [0, 0, 0, 0])).toNat

/-- The state whose host memory holds it, or bytes that differ, at 0x8000000. -/
def withImage (b : List Byte) : State :=
  { up with host := { mem := (b.zipIdx.map (fun x => (0x8000000 + x.2, x.1))).filter (fun e => e.2 != 0), poison := [] } }

/-- The image of a plan for another context. -/
def image6 : List Byte :=
  let h := leBytes 60 (fields [(63, 56, 1), (75, 64, 6), (95, 88, 1), (127, 96, 0x4145504C), (191, 128, 1), (223, 192, 1),
    (287, 256, 1000), (310, 308, 6), (351, 320, 1)])
  h ++ leBytes 4 (crc32c (h ++ [0, 0, 0, 0])).toNat

/-- A handle with a recipe whose input is null. -/
def made7 : Handle :=
  { handle with perms := { handle.perms with mutable := false, producer := true },
                recipe := some { number := 1, ops := [], outputs := 1, inputs := [{ handle := 0, updates := 0 }], outIdx := 0
                                 tiles := 1, key0 := 0, key1 := 0 } }

/-- A stream of one slot. -/
def stream : Stream :=
  { spec := { number := 3, kind := 0, hubMask := 1, depth := 1, chain := false, prio := 0, layerBlocks := 1, layers := 1 }
    queue := [], nextSerial := 0, slots := [] }

/-- An arm entry for one layer of the handle, not fetched. -/
def arm : ArmEntry :=
  { ticket := tick1, sourceObject := 7, objectStride := 0, sourceOffset := 0, sourceStride := 0, dest := 0, destStride := 0
    destSlots := 1, length := 4096, count := 1, glint := false, stepEn := false, stepLow := 0, perLayer := false, signal := none
    deliverMark := 0, markStride := 0, releaseMark := 0, releaseStride := 0, afterUpdate := 0, serial := 0, fetched := 0
    started := [], ended := [], delivered := 0, flushed := false, gateOpen := true }

/-- A slot in a state, for the layer of that entry. -/
def slotIn (st : SlotState) : StreamSlot :=
  { state := st, entry := 0, layer := 0, source := some key7, offset := 0, size := 4096, format := 0, press := false, ports := []
    data := [], poison := [], releaseMark := 0, flushed := false }

/-- The stream in context 5, with the handle live. -/
def streaming (x : Stream) : State := { withHandle handle with ctxs := [{ ctxOf 5 with streams := [x] }] }

/-- The stream with an entry and a slot. -/
def streamWith (es : List ArmEntry) (st : SlotState) : Stream := { stream with queue := es, slots := [slotIn st] }

/-- A unit of each tier in a state. -/
def unitsIn (st : UnitState) : State :=
  { up with units := { up.units with shade := Vector.replicate 64 st, stack := Vector.replicate 8 st } }

/-- A lane job of the handle's stripe. -/
def job7 (compress : Bool) : LaneJob :=
  { hub := 0, key := key7, stripe := 0, firstBlock := 0, blocks := 1, compress := compress, prio := 0, request := 4, restoring := !compress }

/-- The restore it expands for. -/
def request7 : LaneRequest :=
  { id := 4, key := key7, restore := { ticket := tick1, ringCtx := 5, offset := 0, length := 0, dest := 0x7000000, glint := false
                                       release := false, prio := 0, batch := none }, retries := 0 }

/-- Lane 17 of hub 0 with a job. -/
def lane17 (compress : Bool) : State :=
  let s := withHandle handle
  { s with codec := { s.codec with requests := [request7],
                                        lanes := Vector.set s.codec.lanes 0 (Vector.replicate 18 { retired := false, job := some (job7 compress) }) } }

/-- The same job alone on lane 17. -/
def alone17 : State :=
  let s := withHandle handle
  { s with codec := { s.codec with requests := [request7],
                                        lanes := Vector.set s.codec.lanes 0 (Vector.set s.codec.lanes[0] 17 { retired := false, job := some (job7 false) }) } }

/-- A recipe run with nothing to read. -/
def run3 : Run :=
  { id := 3, kind := .materialize, ticket := none, ctx := 5, prio := 0, number := 1, ops := [], key0 := 0, key1 := 0, inputs := []
    outputs := [], tiles := 1, tolerant := false, todo := [], standing := [], dups := [], disagreed := 0, sampled := 0, status := 0
    restore := none, target := none }

/-- Its tile on an engine. -/
def tile3 : TileRun :=
  { run := 3, tile := 0, role := .first, wave := 0, pc := 0, loops := [], outs := [], outFlags := [], checkWords := 0, check := 0
    signals := 0, skipSignals := 0, poisoned := false, waiting := none, sampled := false, startCtrs := [] }

/-- An engine with that tile. -/
def engine3 (t : TileRun) : Engine :=
  { regs := [], regFlags := [], acc := [], accFlags := [], work := [], workFlags := 0, param := [], panel0 := [], panel1 := []
    ctrs := [], tile := some t }

/-- Engine 12 of hub 3 with a tile, and the run. -/
def onEngine (r : Run) (t : TileRun) : State :=
  { up with eng := { up.eng with engines := [(51, engine3 t)], runs := [r] } }

/-- The digests of one of a tile's runs. -/
def digests (e : Nat) (c : BitVec 64) : TileDigests := { engine := e, outs := [], check := c, data := [], flags := [] }

/-- A run whose tile 0 has been run by these engines. -/
def dup3 (l : List TileDigests) : Run := { run3 with dups := [{ tile := 0, runs := l, poisoned := false }] }

/-- What package 9 said of itself. -/
def hello9 : PeerHello :=
  { pkg := 9, hub := 0, link := 0, major := 1, compat := 1, minorMax := 0, minorCap := 0, epoch := 0, session := 0, slot := 0, patch := 0 }

/-- A read of its Penumbra on link 31. -/
def request9 : PnReq :=
  { tag := 8, link := 31, write := false, addr := 0, len := 64, prio := 0, poison := false, data := [], since := 0, op := 0, again := false }

/-- A tile that waits for an engine of hub 0. -/
def waits3 : TileWait := { hub := 0, tile := 0, role := .rerun, notOn := [], skip := 0 }

/-- A run with that tile to start. -/
def waving : State := { up with eng := { up.eng with runs := [{ run3 with todo := [waits3] }] } }

/-- The source of a layer that passes its checks and is written by no PERMUTE. -/
theorem layer_found {s : State} {c : Nat} {x : Stream} {e : ArmEntry}
    (h : (match s.layerSource c x e with | some (.ok q) => !s.permuting q.1.key | _ => false) = true) :
    ∃ k off, s.layerSource c x e = some (.ok (k, off)) ∧ s.permuting k.key = false := by
  split at h
  · rename_i q hq
    exact ⟨q.1, q.2, hq, by simpa using h⟩
  · simp at h

/-- Engine 12 of hub 3 come to an op of opcode `n`, with an output to store to. -/
def atOp (n : Nat) (waiting : Option Nat) (ins : List RunInput) : State :=
  let o : RunOutput :=
    { key := key7, gen := 1, format := 0, rows := 1, rowLen := 4, dest := 0, data := [], poison := [], flags := Flags3.none }
  onEngine { run3 with ops := [BitVec.ofNat 256 (n + 8 * 2 ^ 40)], inputs := ins, outputs := [o] } { tile3 with waiting := waiting }

/-- An engine comes to an op of each of these opcodes. -/
def comesTo (l : List Nat) : Prop := ∀ n ∈ l, ∃ s hub e w g c, Pre.op s hub e w n g c

theorem comes_to {l : List Nat} (h : ∀ n ∈ l, ((atOp n none []).opAt 3 12 (BitVec.ofNat 256 (n + 8 * 2 ^ 40)) n).isSome = true) :
    comesTo l := fun n hn =>
  let ⟨x, hx⟩ := Option.isSome_iff_exists.mp (h n hn)
  ⟨_, _, _, _, x.1, x.2, hx⟩

/-- A WAIT for a counter of its own to reach 1, already waiting. -/
def waits : State := onEngine { run3 with ops := [BitVec.ofNat 256 (3 + 2 ^ 96)] } { tile3 with waiting := some 0 }

/-- A LOAD from an input that is read whole. -/
def whole : State := onEngine { run3 with ops := [BitVec.ofNat 256 (1 + 2 * 2 ^ 96), 8] } { tile3 with pc := 1 }

/-- A channel in a state, copying one byte from host memory to a Shade bank. -/
def chanIn (st : ChanState) : Channel := { Channel.reset with state := st, active := [(9, 0x10000000)] }

/-- Channel 63 of every hub in that state. -/
def moving (st : ChanState) : State :=
  { up with mov := { up.mov with hubs := Vector.replicate 4 { Movers.reset with chans := [(63, chanIn st)] } } }

/-- The counters of every hub as given. -/
def syncing (y : Sync) : State := { up with syn := { up.syn with hubs := Vector.replicate 4 y } }

/-- A counter owned by context 5 on every hub. -/
def owned (c : Nat) : Sync := { Sync.reset with cfg := [(c, 0x80000005)], dirty := [c], ctrl := 0x00140801 }

/-- Every barrier slot as given. -/
def barring (x : BarSlot) : State := { up with syn := { up.syn with bars := Vector.replicate 8 x } }

/-- A slot of hub 3 alone, or of group 15 as well, in a state with a beacon phase. -/
def bar (grouped : Bool) (st : BarState) (p : BeaconPhase) : BarSlot :=
  { BarSlot.reset with cfg := BitVec.ofNat 32 (fields [(31, 31, 1), (30, 30, if grouped then 1 else 0), (29, 26, 15), (25, 22, 8), (20, 13, 255)])
                       cfg2 := 0x1001, state := st, beacon := Vector.replicate 4 p }

/-- A READY group of three members in slot 15: rank 1 here, package 9 at rank 0. -/
def group15 : Group :=
  { slot := 15, state := .ready, ctx := 5, ticket := none, since := 0, timeoutMs := 1000, key := 3, d1 := 3, d2 := 1, split := 0
    seedLo := 0, seedHi := 0, members := [9, 4, 10], rank := 1, digest := 0, minor := 0, round1 := [], round2 := []
    sent1 := [], sent2 := [], seen := [], lastStarted := 0, colls := [], early := [], openStep := none, sealedSteps := []
    pend := [], aborted := [] }

/-- Every link in a state, with package 9 at its other end. -/
def linked (st : LState) : State :=
  { withPeer with lnk := { withPeer.lnk with links := Vector.replicate 32 { withPeer.lnk.links[0] with state := st } } }

/-- A whole frame with nothing in it. -/
def frame : LinkFrame :=
  { seq := 0, ack := 0xFFFF, nak := false, laneSwap := false, power := false, laneBad := 7, dataUsed := 0, credits := [], headers := []
    codewordsOk := true, failingLane := none, corrected := 0, uncorrectable := 0, fcrcOk := true, dcrcOk := true }

/-- A signal sent to package 9 with one mark. -/
def signal9 : TxSignal :=
  { number := 1, pkg := 9, addr := 0, increment := 1, marks := [0], link := 0, since := 0, ticket := some tick1 }

/-- One link UP, number 31, of the bundle of package 9. -/
def one31 : State :=
  { withPeer with lnk := { withPeer.lnk with links := Vector.set (Vector.replicate 32 Link.reset) 31 withPeer.lnk.links[0]
                                             txSignals := [signal9] } }

/-- The group with links to its members, and the handle. -/
def grouped (g : Group) : State := { withPeer with groups := [g], hs := (withHandle handle).hs }

/-- A collective of 4 bytes from host memory, of the group in slot 15. -/
def collCmd (more : List (Nat × Nat × Nat)) : Desc :=
  cmd 1 ([(131, 128, 15), (167, 160, 1), (175, 168, 1), (215, 176, 3), (255, 224, 1), (383, 320, 0x7000000), (447, 384, 0x7100000)] ++ more)

/-- The same for REDUCE_UPDATE: handles and algorithm in the payload. -/
def updateCmd : Desc :=
  { cmd 1 [(131, 128, 15), (167, 160, 1), (175, 168, 1), (215, 176, 8191), (255, 224, 1), (319, 288, 4), (383, 320, 0x7000000), (447, 384, 0x7100000)] with
    ext := true, payload := BitVec.ofNat 1536 (fields [(63, 0, word7), (127, 64, handleWord { ctx := 5, obj := 8 } 1), (391, 384, 1)]) }

/-- Two BF16 handles. -/
def bf16 (o : Nat) : Handle :=
  { handle with key := { ctx := 5, obj := o }, shape := { handle.shape with format := 2, rowLen := 2048 } }

/-- The group with those handles. -/
def updating (g : Group) : State := { withPeer with groups := [g], hs := { list := [bf16 7, bf16 8], gens := [] } }

/-- A message of a collective. -/
def msg (kind : BitVec 4) : CollMsg :=
  { chk := 0, group := 15, kind := kind, reason := 0, seq := 1, addr := 0, prio := 0, poison := false, data := [] }

/-- A collective that has started. -/
def coll (opcode : Nat) : Coll :=
  { collOf (collCmd []) opcode tick1 5 with started := true }

/-- A seal record of a rank. -/
def sealOf (r : Nat) : SealRecord := { rank := r, nf := false, failed := false, count := 0, digests := 0 }

/-- A group still forming. -/
def forming : Group := { group15 with state := .forming, ticket := some tick1 }

/-- A request of package 9 to the vault. -/
def vreq (op : Nat) : VaultReq := { op := op, kind := 0, retain := 0, rank := 0, key := 3, ckptNo := 1, frames := 1, slot := 255 }

/-- The image it names. -/
def imageOf (kind : Nat) (st : ImgState) : Image :=
  { slot := 255, state := st, kind := kind, key := 3, rank := 0, ckptNo := 1, frames := 1, incomplete := false, orphan := false
    poison := [], creator := 9, lastBlock := 0, order := 0, data := [] }

/-- The vault with that request and these images; package 9 is granted one frame. -/
def vaulting (op : Nat) (is : List Image) : State :=
  { withPeer with vault := { up.vault with requests := [((31, 15), vreq op)], images := is },
                  lnk := { withPeer.lnk with peers := [{ peer9 with grantGiven := 4194304, frames := [0], frameStacks := [(0, 7)] }] } }

/-- A read or write of the window of package 9. -/
def pn (addr : BitVec 48) : PnMsg :=
  { addr := addr, lenM1 := 63, tag := 0, prio := 0, poison := true, wseq := 1, bcrc := 0, data := [] }

/-- An answer to a request. -/
def reply : PnReply := { tag := 8, status := 1, poison := false, arg := 0, bcrc := 0, block := false, data := [] }

/-- A request out on link 31. -/
def asking (w : Bool) : State := { withPeer with lnk := { withPeer.lnk with reqs := [{ request9 with write := w }] } }

/-- Context 5 bound to key 3 and rank 0, with the handle, listed at 0x7000000. -/
def binding : State :=
  { withPeer with ctxs := [{ ctxOf 5 with binding := some (3, 0) }], hs := (withHandle handle).hs
                  host := { mem := ((leBytes 8 word7).zipIdx.map (fun x => (0x7000000 + x.2, x.1))).filter (fun e => e.2 != 0), poison := [] } }

/-- A manifest of one segment: object 7, 4,096 bytes, one whole stripe in frame 1. -/
def snapBytes : Tab Byte := [(18, 1), (64, 7), (72, 0xFF), (73, 0x0F), (92, 1), (116, 1)]

/-- An image of one segment, one whole block of an object. -/
def snap : Image :=
  { imageOf 1 .sealed with data := snapBytes }

/-- A context bound to its key, and the vault that holds it. -/
def snapped : State :=
  { up with ctxs := [{ ctxOf 5 with binding := some (3, 0) }], vault := { up.vault with images := [snap] } }

/-- The self-test as given. -/
def testing (b : Bist) : State := { up with rel := { up.rel with bist := b } }

/-- No run yet, and the registers at their reset values. -/
def bist : Bist := { Bist.reset with run := 0 }

/-- A run summary. -/
def summary : RunSummary :=
  { run := 1, kind := 0, endCause := 0, budgetMs := 0, usedMs := 0, slices := 0, passes := 0, fails := 0, timeouts := 0, left := 0, dueRun := 0
    hubCursors := [], stackCursors := [], coverage := [] }

/-- Lane 17 of hub 3, core 6 of hub 3, and frame 0 of stack 7, under their names in records. -/
def laneUnit : UnitName := { hub := 3, kind := 3, index := 17, sub := 0 }
def coreUnit : UnitName := { hub := 3, kind := 1, index := 6, sub := 0 }
def frameUnit : UnitName := { hub := 3, kind := 7, index := 7, sub := 0 }

/-- A unit under test. -/
def under (u : UnitName) (field : Bool) : UnderTest := { unit := u, field := field, since := 0, pack := 0, packVersion := 0, cls := 1 }

/-- Every hub's reliability state as given. -/
def healthy (x : HubHealth) : State := { up with rel := { up.rel with hubs := Vector.replicate 4 x } }

/-- A unit due for its in-field test. -/
def dueIs (u : UnitName) : HubHealth := { HubHealth.reset with due := [{ unit := u, since := 0 }] }

/-- A slice running. -/
def slice0 : RunningSlice := { slice := { hub := 0, row := 0, unit := 0 }, since := 0, pace := 256, asDue := false }

/-- Every domain of every hub in a state. -/
def powered (st : DState) : State :=
  { up with pwr := { up.pwr with hubs := Vector.replicate 4 { HubPower.reset with domains := List.replicate 10 { Domain.reset with state := st } } } }

/-- The quench logic as given. -/
def quenched (q : Quench) : State := { up with start := { up.start with quench := q } }

/-- Both channels high, and a quench from the pins. -/
def lasting : Quench := { up.start.quench with state := 2, cause := 1, aHigh := true, bHigh := true }

/-- The firmware as given. -/
def flashed (f : Firmware) : State := { up with fw := f }

/-- The start level and store as given. -/
def starting (lv : Level) (st : Store) : State :=
  { up with start := { up.start with level := lv, umbra := false, links := false }, evt := { up.evt with store := st } }

/-- The history store ready. -/
def storeUp : Store := { Store.blank with valid := true, ready := true, erased := 16 }

/-- The store with a token. -/
def tokened : State := { up with evt := { up.evt with store := { storeUp with token := some 1 } } }

/-- An event, a record of it and a recorder with that record. -/
def event1 : Event := { code := 1, cls := 1, kind := 0, index := 0, detail := 0 }
def record1 : EvRecord := { seq := 1, event := event1, hub := 0, repeats := 0, first := 0, last := 0 }
def recorder1 : Recorder := { Recorder.reset with slots := [(1, record1)], newest := 1, newestSlot := 1, count := 1 }

/-- A journal entry that waits. -/
def entry1 : JEntry := { typ := 3, jseq := 0, epoch := 0, block := 0, torn := false, key := 0, hub := 0, records := [], payload := [] }

/-- The shut-down as given. -/
def ending (x : ShutState) : State := { up with start := { up.start with shut := x } }

/-- A queue of one event on hub 3. -/
def queued (q : Queued) : State := { up with evt := { up.evt with hubs := Vector.replicate 4 { Recorder.reset with queue := [q] } } }


/-- A slot whose payload is one section, for core 6 on hub 3. -/
def patched : FwSlot :=
  { FwSlot.none with state := .active, image := List.replicate 16 0 ++ leBytes 4 16 ++ List.replicate 300 0 ++ [1, 0x40, 8] ++ List.replicate 13 0 }

/-- Level RING on every hub with its mailbox enabled. -/
def boxed : State := { up with regs := { up.regs with hubs := Vector.replicate 4 { HubRegs.reset with mboxEn := true } } }

/-- A whole request line in hub 3's mailbox: SEQ 1, nothing to do. -/
def posted : State :=
  let h := leBytes 4 1 ++ List.replicate 56 0
  { boxed with host := { mem := ((h ++ leBytes 4 (crc32c h).toNat).zipIdx.map (fun x => (0x1008300 + x.2, x.1))).filter (fun e => e.2 != 0)
                         poison := [] } }

/-- Hub 0's ring attached anew at CQ_HEAD 1, its one free queue slot all ones. -/
def attaching : State :=
  { up with rg := { up.rg with attaching := some 1, list := [{ ringAt 0 0 0x1000000 with cqTail := 256 }] }
            host := { mem := (0x1002008, 1) :: (List.range 16).map (fun i => (0x1007000 + i, 0xFF)), poison := [] } }

/-- A ring that waits, one in use with a WATCH signal not yet fetched, and the fetched ORDER descriptor before it. -/
def fetched0 : Fetched := { sseq := 0, slot := BitVec.ofNat 512 (2 ^ 54), payload := 0 }
def ordered : State :=
  { up with rg := { up.rg with list := [{ ringAt 1 5 0x2000000 with inflight := [fetched0] }] } }

/-- A completion queue with no room. -/
def full : Ring := { ringAt 1 5 0x2000000 with cqTail := 4096 }
def fullRing : State := { up with rg := { up.rg with list := [full] } }

/-- A ring with all the completions held that may be. -/
def crowded : Ring := { ringAt 1 5 0x2000000 with held := List.replicate 65536 0 }

/-- A restore that waits for the fill. -/
def waiting7 : WaitingRestore :=
  { ticket := tick1, ringCtx := 5, offset := 0, length := 0, dest := 0x7000000, glint := false, release := false, prio := 0, batch := none }

/-- What a number's bytes spell. -/
theorem leValue_leBytes (n v : Nat) : leValue (leBytes n v) = v % 256 ^ n := by
  induction n generalizing v with
  | zero => simp [leBytes, leValue, Nat.mod_one]
  | succ n ih =>
    simp only [leBytes, leValue, ih, BitVec.toNat_ofNat]
    rw [show (2 : Nat) ^ 8 = 256 from rfl, Nat.pow_succ, Nat.mul_comm (256 ^ n) 256, Nat.mod_mul]

/-- A PACKAGE_ID that is not this Aedvos's. -/
def other : Nat := if Config.packageId = 1 then 2 else 1

/-- A member table for the two of them, in a line of one, at 0x7000000. -/
def table : State :=
  { up with host := { poison := [], mem := [(0x7000008, 2), (0x700000A, 1), (0x700000E, 1)]
      ++ (leBytes 8 Config.packageId.toNat ++ leBytes 1 other).zipIdx.map (fun x => (0x7000040 + x.2, x.1)) } }
def tableCmd : Desc := cmd 0 [(67, 64, 15), (91, 80, 5), (191, 128, 0x7000000)]

theorem package_ne_zero : Config.packageId ≠ 0 := by
  have h := Config.packageIdLess1.isLt
  intro e
  have e := congrArg BitVec.toNat e
  simp only [Config.packageId, BitVec.toNat_ofNat] at e
  rw [Nat.mod_eq_of_lt (by omega)] at e
  simp at e

theorem table_ok : tableOk table tableCmd = true := by
  have ha : tableCmd.f 191 128 = 0x7000000 := by decide
  have h0 : table.hostNum (0x7000000 + 64 + 8 * 0) 8 = Config.packageId.toNat :=
    (leValue_leBytes 8 Config.packageId.toNat).trans (Nat.mod_eq_of_lt Config.packageId.isLt)
  have h1 : table.hostNum (0x7000000 + 64 + 8 * 1) 8 = other :=
    (leValue_leBytes 1 other).trans (by unfold other; split <;> rfl)
  have d1 : table.hostNum (0x7000000 + 8) 2 = 2 := rfl
  have d2 : table.hostNum (0x7000000 + 10) 2 = 1 := rfl
  have sp : table.hostNum (0x7000000 + 12) 4 = 65536 := rfl
  have hn := package_ne_zero
  have ho : BitVec.ofNat 64 other ≠ Config.packageId ∧ BitVec.ofNat 64 other ≠ 0 := by
    unfold other
    split
    · rename_i h; rw [h]; decide
    · rename_i h; exact ⟨fun e => h e.symm, by decide⟩
  simp only [tableOk, ha, d1, d2, sp, List.range, List.range.loop, List.map, h0, h1, BitVec.ofNat_toNat, BitVec.setWidth_eq]
  simp [tableBad, List.dedup_cons_of_notMem, ho.1.symm]
  exact ⟨hn, ho.2⟩

/-- A second handle, the output of a recipe, and the plan that holds it. -/
def fresh8 : Handle := { fresh7 with key := { ctx := 5, obj := 8 } }
def recipe0 : PlanRecipe := { number := 0, inputs := 1, outputs := 1, cost := 0, ops := [] }
def producing : State :=
  { up with ctxs := [{ ctxOf 5 with active := some { plan with recipes := [recipe0] } }]
            hs := { list := [fresh7, fresh8], gens := [] } }
def produceCmd : Desc :=
  { cmd 1 [(127, 64, 0x7000000)] with ext := true, payload := BitVec.ofNat 1536 (word7 + handleWord { ctx := 5, obj := 8 } 1 * 2 ^ 512) }

/-! ### What meets the hypotheses: one theorem for an obligation, a part for each clause -/

theorem met_EmptyQueueCountsOneTick : ∃ s : State, s.pending = [] :=
  ⟨up, rfl⟩

theorem met_StepKeepsHostMemoryCanonical : ∃ s t, hostWf s = true ∧ step s = .next t :=
  ⟨up, _, by decide, rfl⟩

theorem met_StepNeverLowersTheFuses :
    (∃ s t, step s = .next t ∧ s.pending ≠ [])
    ∧ (∃ s t, step s = .next t) :=
  ⟨(⟨{ up with pending := [.shdnReq] }, _, rfl, by decide⟩),
   (⟨up, _, rfl⟩)⟩

theorem met_CommandsAlwaysAnswer : ∃ i u, Pre.noSuchUnit i u :=
  ⟨.targetedTest { laneUnit with index := 18 } 0, { laneUnit with index := 18 }, by decide, .inl ⟨0, rfl⟩⟩

theorem met_DescriptorChecksInOrder :
    (∃ s i d x r e, Pre.checkFails s i d x r e)
    ∧ (∃ (n : Nat) (d : Desc) (x : DescSpec), ¬((d.ring = 0 ∧ x.admin = false) ∨ (d.ring ≠ 0 ∧ x.job = false)) ∧
  ¬(d.ext ≠ x.ext ∨ (d.ext = true ∧ ringSize n < d.sseq.toNat % ringSize n + 4)) ∧ reservedSet d x = false ∧
  ¬(6 < d.prio.toNat ∨ x.range = false ∨ (x.needX = true ∧ d.xres = false)) ∧
  ¬((∃ a ∈ x.addrs, a.1 % a.2 ≠ 0 ∨ 2 ^ 57 ≤ a.1)
    ∨ (d.xres = true ∧ (d.resultAddr = 0 ∨ d.resultAddr.toNat % 64 ≠ 0 ∨ 2 ^ 57 ≤ d.resultAddr.toNat))))
    ∧ (∃ s i d x r, Pre.writeWaits s i d x r)
    ∧ (∃ s ring r, Pre.fetchOpcode s ring r) :=
  ⟨(⟨up, .nop { cmd 1 [] with ext := true }, { cmd 1 [] with ext := true }, nopSpec, ringAt 1 5 0x2000000, 6, rfl, by decide, by decide, by decide, by decide, by decide⟩),
   (⟨0, { cmd 1 [] with ext := true, sseq := 60, prio := 6 }, { job := true, admin := true, ext := true, moves := true }, by decide⟩),
   (⟨{ up with start := { up.start with quench := { up.start.quench with state := 2 } } }, .offload (cmd 1 [(127, 64, word7)]),
    cmd 1 [(127, 64, word7)], offloadSpec (cmd 1 [(127, 64, word7)]), ringAt 1 5 0x2000000, rfl, by decide, by decide⟩),
   (⟨{ up with rg := { up.rg with list := [ringAt 0 0 0x1000000, ready] }, host := { mem := [(0x2003007, 255)], poison := [] } }, 1,
      ready, by decide +kernel⟩)⟩

theorem met_OrderFlagHoldsDescriptorsBack : ∃ s i d x r f, Pre.orderWaits s i d x r f :=
  ⟨ordered, .nop { cmd 1 [] with sseq := 1 }, { cmd 1 [] with sseq := 1 }, nopSpec, { ringAt 1 5 0x2000000 with inflight := [fetched0] }, fetched0,
    rfl, by decide, by decide, by simp [earlier, fetched0], by decide⟩

theorem met_CompletionEntriesOfCommands :
    (∃ s t d r, Pre.completionWritten s t d r)
    ∧ (∃ s t d r, Pre.completionQuiet s t d r)
    ∧ (∃ s t d r, Pre.completionHeld s t d r)
    ∧ (∃ s ring r, Pre.unsolicitedLost s ring r) :=
  ⟨(⟨up, tick1, { status := 0 }, ringAt 1 5 0x2000000, by decide⟩),
   (⟨up, { tick1 with quiet := true }, { status := 0 }, ringAt 1 5 0x2000000, by decide⟩),
   (⟨fullRing, { tick1 with quiet := true }, { status := 3 }, full, by decide⟩),
   (⟨{ up with rg := { up.rg with list := [crowded] } }, 1, crowded, rfl, .inl (Nat.le_of_eq (List.length_replicate ..).symm)⟩)⟩

theorem met_DescriptorsAreFetched :
    (∃ s ring r, Pre.descriptorFetch s ring r)
    ∧ (∃ s ring r, Pre.fetchHeld s ring r)
    ∧ (∃ s ring r named, Pre.seqGap s ring r named)
    ∧ (∃ s ring r, Pre.cqHeadReread s ring r) :=
  ⟨(⟨{ up with rg := { up.rg with list := [ringAt 0 0 0x1000000, ready] }, host := { mem := [(0x2003007, 1)], poison := [] } }, 1,
      ready, by decide +kernel⟩),
   (⟨{ up with rg := { up.rg with list := [holding] } }, 1, holding, by decide⟩),
   (⟨{ up with rg := { up.rg with list := [ringAt 0 0 0x1000000, far] } }, 1, far, 257, by decide, by decide, by decide, .inr (by decide)⟩),
   (⟨{ up with rg := { up.rg with list := [ringAt 0 0 0x1000000, holding] } }, 1, holding, by decide⟩)⟩

theorem met_DoorbellBitsNameRings :
    (∃ n, n < 65536)
    ∧ (∃ s hub, Pre.summaryPoll s hub)
    ∧ (∃ s hub line, Pre.watch s hub line)
    ∧ (∃ s hub tag q word, Pre.swapData s hub tag q word) :=
  ⟨(⟨65535, by decide⟩),
   (⟨up, 3, by decide⟩),
   (⟨watching, 3, 127, by decide⟩),
   (⟨{ up with rg := { up.rg with ports := Vector.replicate 4 { port with swaps := [askSummary] } } }, 1, 4, askSummary, 1023,
      by decide⟩)⟩

theorem met_HostPortFlitsAndModules :
    (∃ s hub f, Pre.hostFlitReceive s hub f)
    ∧ (∃ (s : State) (hub : Hub) (f : HostFlit), s.rg.ports[hub].retraining = false ∧ (f.fcrcOk = false ∨ f.dcrcOk = false))
    ∧ (∃ s hub, Pre.hostPortResend s hub)
    ∧ (∃ s hub module, Pre.hostPortRetrained s hub module)
    ∧ (∃ s hub, Pre.hostPortRetrained s hub none)
    ∧ (∃ s hub module, Pre.hostModuleLeftOut s hub module) :=
  ⟨(⟨up, 2, flit, by decide⟩),
   (⟨up, 2, { flit with dcrcOk := false }, by decide⟩),
   (⟨{ up with rg := { up.rg with ports := Vector.replicate 4 { port with nakSeen := true } } }, 0, by decide⟩),
   (⟨up, 0, some 15, by decide⟩),
   (⟨{ up with rg := { up.rg with ports := Vector.replicate 4 { port with retraining := true } } }, 0, by decide⟩),
   (⟨up, 3, 0, by decide⟩)⟩

theorem met_HostPortAnswersAndTimeouts :
    (∃ s hub tag q k b, Pre.rdData s hub tag q k b)
    ∧ (∃ s hub tag w, Pre.wrErr s hub tag w)
    ∧ (∃ s hub number w, Pre.fenceAck s hub number w)
    ∧ (∃ s hub number f, Pre.fenceTimeout s hub number f)
    ∧ (∃ s hub tag q, Pre.hostPortTimeout s hub tag q) :=
  ⟨(⟨{ up with rg := { up.rg with ports := Vector.replicate 4 { port with reads := [askBlock] } } }, 1, 4, askBlock, key7, 0,
      by decide⟩),
   (⟨{ up with rg := { up.rg with ports := Vector.replicate 4 { port with writes := [{ tag := 9, ch := 63, late := true }] } } }, 1, 9,
      { tag := 9, ch := 63, late := true }, by decide⟩),
   (⟨{ up with rg := { up.rg with ports := Vector.replicate 4 { port with fences := [{ number := 2, since := 0 }] },
                                                                fenceWaits := [waitFence] } }, 1, 2, waitFence, by decide⟩),
   (⟨{ up with tick := 1562500, rg := { up.rg with ports := Vector.replicate 4 { port with fences := [{ number := 2, since := 0 }] } } },
      1, 2, { number := 2, since := 0 }, by decide⟩),
   (⟨{ up with tick := 1562500, rg := { up.rg with ports := Vector.replicate 4 { port with reads := [askBlock] } } }, 1, 4, askBlock,
      by decide⟩)⟩

theorem met_ContextsQuotasAndSeeds :
    (∃ s d, Pre.nop s d)
    ∧ (∃ s d, Pre.contextCreate s d)
    ∧ (∃ s d c, Pre.contextDestroy s d c)
    ∧ (∃ s d c, Pre.setQuota s d c)
    ∧ (∃ s d pkg p, Pre.setExport s d pkg p)
    ∧ (∃ s d c, Pre.setSeed s d c) :=
  ⟨(⟨up, cmd 0 [], by decide⟩),
   (⟨up, cmd 0 [(91, 80, 4095)], by decide⟩),
   (⟨{ up with ctxs := [ctxOf 5, ctxOf 6] }, cmd 0 [(91, 80, 6)], ctxOf 6, by decide⟩),
   (⟨up, cmd 0 [(67, 64, 2), (91, 80, 5), (191, 128, 65536)], ctxOf 5, by decide⟩),
   (⟨withPeer, cmd 0 [(69, 64, 31), (191, 128, 0)], 9, peer9, by decide⟩),
   (⟨up, cmd 0 [(91, 80, 5), (255, 128, 77)], ctxOf 5, by decide⟩)⟩

theorem met_RingsAreCreatedAndAttached :
    (∃ s d, Pre.ringCreate s d)
    ∧ (∃ s d r, Pre.ringDestroy s d r)
    ∧ (∃ s d, Pre.getRingState s d)
    ∧ (∃ s d r, Pre.ringAttach s d r)
    ∧ (∃ s d r, Pre.ringResume s d r) :=
  ⟨(⟨up, cmd 0 [(79, 64, 65535), (91, 80, 5), (112, 100, 4096), (191, 128, 0x4000000), (255, 192, 0x5000000),
      (319, 256, 0x6000000)], by decide⟩),
   (⟨up, cmd 0 [(79, 64, 1)], ringAt 1 5 0x2000000, by decide⟩),
   (⟨up, cmdX 0 [(79, 64, 65280)], by decide⟩),
   (⟨up, cmd 0 [(79, 64, 1), (112, 100, 64), (191, 128, 0x4000000), (255, 192, 0x5000000), (319, 256, 0x6000000)],
      ringAt 1 5 0x2000000, by decide⟩),
   (⟨{ up with rg := { up.rg with list := [ringAt 0 0 0x1000000, stopped] } }, cmd 0 [(79, 64, 1)], stopped, by decide⟩)⟩

theorem met_RegistrationsTakeGenerations : ∃ s d c g f tie, Pre.register s d c g f tie :=
  ⟨up, cmd 1 [(103, 64, 7), (106, 104, 1), (127, 120, 1), (167, 128, 4095), (223, 192, 4), (255, 224, 256), (323, 320, 2), (339, 336, 15)], ctxOf 5, _, _,
      false, by decide, by decide, rfl, by decide, by decide, by decide, by decide, by decide⟩

theorem met_HandlesAreFreed :
    (∃ s d h, Pre.free s d h)
    ∧ (∃ s d, Pre.freeSet s d)
    ∧ (∃ s d h, Pre.free s d h)
    ∧ (∃ s k h, Pre.handleFreed s k h) :=
  ⟨(⟨withHandle handle, cmd 1 [(127, 64, word7)], handle, by decide, rfl⟩),
   (⟨withHandle handle, cmd 1 [(67, 64, 3)], by decide⟩),
   (⟨withHandle handle, cmd 1 [(127, 64, word7)], handle, by decide, rfl⟩),
   (⟨withHandle { handle with state := .freeing }, key7, { handle with state := .freeing }, by decide⟩)⟩

theorem met_KeptRangesUpdatesAndQueries :
    (∃ s d h r, Pre.restoreKeep s d h r)
    ∧ (∃ s d h, Pre.update s d h)
    ∧ (∃ s d h, Pre.queryHandle s d h) :=
  ⟨(⟨withHandle { handle with fate := .keep, keepAddr := 0x7000000, homes := [] }, { cmd 0 [(127, 64, word7), (319, 256, 0x9000000)] with context := 5 },
      { handle with fate := .keep, keepAddr := 0x7000000, homes := [] }, ringAt 0 0 0x1000000, by decide⟩),
   (⟨withHandle handle, cmd 1 [(127, 64, word7), (319, 256, 0x7000000)], handle, by decide, rfl, by decide⟩),
   (⟨withHandle handle, cmdX 1 [(127, 64, word7)], handle, by decide, rfl⟩)⟩

theorem met_FillsBegin :
    (∃ s d h u, Pre.offload s d h u)
    ∧ (∃ s h x f p c, Pre.beginFill s h x f p c)
    ∧ (∃ (s : State) (d : Desc) (h : Handle), accepts s d (offloadSpec d) = true ∧ d.f 193 192 = 0 ∧
    s.named (s.descCtx d) (d.f 127 64) = .ok h ∧ h.fate.stored = true ∧ h.state = .registered ∧ s.foreignReady d = false ∧
    s.placeWaits h = false ∧ s.ledgerTakes h.key.ctx h.place.tier (chargeFor h.place.tier h.shape.size) = false)
    ∧ (∃ s d hs i0 r u, Pre.offloadFwd s d hs i0 r u)
    ∧ (∃ s k h f, Pre.readyBlockRead s k h f) :=
  ⟨(let ⟨u, hu⟩ := okOf (x := (withHandle fresh7).beginFill _ _) (by decide +kernel);
   ⟨withHandle fresh7, cmd 1 [(127, 64, word7), (191, 128, 0x7000000)], fresh7, u, by decide, by decide, rfl, by decide, by decide, by decide, by decide, by decide, by decide, hu⟩),
   (⟨withHandle fresh7, fresh7, fresh7, fill7, _, ctxOf 5, by decide, by decide, by decide, by decide, rfl⟩),
   (⟨{ withHandle fresh7 with ctxs := [{ ctxOf 5 with shade := { quota := 0, charge := 0, peak := 0 } }] }, cmd 1 [(127, 64, word7)], fresh7,
      by decide, by decide, rfl, by decide, by decide, by decide, by decide, by decide⟩),
   (let ⟨u, hu⟩ := okOf (x := producing.forward produceCmd produceCmd.ticket
      { recipe := recipe0, inputs := some fresh7 :: List.replicate 7 none, layers := List.replicate 8 none
        outputs := some fresh8 :: List.replicate 3 none } fresh7 [(0, fresh8)]) (by decide +kernel);
   ⟨producing, produceCmd, some fresh7 :: List.replicate 7 none ++ some fresh8 :: List.replicate 3 none, fresh7, recipe0, u,
    by decide, by rfl, by decide, by decide, by decide, by decide, by decide, by decide, by decide, by decide, by decide, by decide, by decide, by decide, hu⟩),
   (⟨withHandle { filling7 with fill := some { fill7 with readyBlocks := 1, readyBase := 0xFFFFFFFF, blocksIn := 0 } }, key7,
      { filling7 with fill := some { fill7 with readyBlocks := 1, readyBase := 0xFFFFFFFF, blocksIn := 0 } },
      { fill7 with readyBlocks := 1, readyBase := 0xFFFFFFFF, blocksIn := 0 }, by decide⟩)⟩

theorem met_FillsEndAndRestoresWait :
    (∃ s d h, Pre.restore s d h)
    ∧ (∃ s k h f, Pre.fillComplete s k h f)
    ∧ (∃ s h x, Pre.endFill s h x)
    ∧ (∃ (s : State) (k : HKey) (h : Handle) (f : Fill) (r : HopEnd), s.stalled = false ∧ s.handle? k = some h ∧ h.fill = some f ∧
    h.state = .filling ∧ r ≠ HopEnd.ok ∧ f.run = none ∧ f.op = none ∧ h.waiting = [])
    ∧ (∃ s k h f w r, Pre.waitingFails s k h f w r) :=
  ⟨(⟨withHandle handle, cmd 1 [(127, 64, word7), (167, 128, 4095), (231, 192, 1), (319, 256, 0x7000000)], handle, by decide, rfl, by decide, by decide, by decide, by decide⟩),
   (⟨withHandle filling7, key7, filling7, fill7, by decide⟩),
   (⟨withHandle filling7, filling7, filling7, by decide⟩),
   (⟨withHandle filling7, key7, filling7, fill7, .readOnly, by decide⟩),
   (⟨withHandle { filling7 with waiting := [waiting7] }, key7, { filling7 with waiting := [waiting7] }, fill7, waiting7, .checkFailed, by decide⟩)⟩

theorem met_MigrationsMoveStripes :
    (∃ s d h u, Pre.migrate s d h u)
    ∧ (∃ s h goal pl, Pre.startMigrate s h goal pl)
    ∧ (∃ s d h, Pre.migrateRecompute s d h)
    ∧ (∃ s k stripe h m x rest, Pre.stripeCommit s k stripe h m x rest)
    ∧ (∃ s k stripe h m x rest, Pre.stripeCommit s k stripe h m x rest)
    ∧ (∃ s k stripe h m, Pre.oldLocationRelease s k stripe h m)
    ∧ (∃ s hub core k h m, Pre.migrationStopped s hub core k h m) :=
  ⟨(let ⟨u, hu⟩ := okOf (x := (withHandle handle).startMigrate handle .stash { tier := 3, hubMask := 0, stackMask := 1, peer := 0 } 0 (some tick1)) (by decide +kernel);
   ⟨withHandle handle, cmd 1 [(127, 64, word7), (130, 128, 1), (323, 320, 3), (351, 344, 1)], handle, u, by decide, rfl, by decide, by decide,
      by decide, by decide, by decide, by decide, by decide, by decide, by decide, by decide, by decide, hu⟩),
   (⟨withHandle handle, handle, .stash, { tier := 3, hubMask := 0, stackMask := 1, peer := 0 }, by decide⟩),
   (⟨withHandle made7, cmd 1 [(127, 64, word7), (130, 128, 4)], made7, by decide, rfl, by decide, by decide, by decide, by decide, by decide⟩),
   (⟨withHandle migrating7, key7, 0, migrating7, mig7, _, [], by decide, by decide, by decide, rfl, by decide, by decide, by decide, by decide, by decide, by decide⟩),
   (⟨withHandle migrating7, key7, 0, migrating7, mig7, _, [], by decide, by decide, by decide, rfl, by decide, by decide, by decide, by decide, by decide, by decide⟩),
   (⟨withHandle leaving7, key7, 0, leaving7, _, by decide, rfl, by decide⟩),
   (⟨withHandle migrating7, 0, .c3, key7, migrating7, mig7, by decide⟩)⟩

theorem met_PlansAndSteps :
    (∃ s d c img, Pre.loadPlan s d c img)
    ∧ (∃ (s : State) (d : Desc) (c : Ctx) (img : Image9) (e : BitVec 8) (i : Nat), accepts s d (loadPlanSpec d) = true ∧
    s.ctx? (s.descCtx d) = some c ∧ c.staged = none ∧ s.readImage (d.f 127 64) (d.f 159 128) = some img ∧
    imageCheck img (s.descCtx d) = some (e, i))
    ∧ (∃ s d c, Pre.stepBegin s d c)
    ∧ (∃ s d c r, Pre.mark s d c r)
    ∧ (∃ s d c r, Pre.stepEnd s d c r)
    ∧ (∃ s ctx c r t n, Pre.stepEndComplete s ctx c r t n) :=
  ⟨(let ⟨img, hi, hc⟩ := someOf (x := (withImage image).readImage 0x8000000 64)
      (p := fun img => (imageCheck img 5).isNone && (withImage image).ledgerTakes 5 2 ((ctxOf 5).planCharge (planOf img))) (by decide +kernel);
   ⟨withImage image, cmd 1 [(127, 64, 0x8000000), (159, 128, 64)], ctxOf 5, img, by decide, by decide, by decide, hi,
      Option.isNone_iff_eq_none.mp ((Bool.and_eq_true _ _).mp hc).1, ((Bool.and_eq_true _ _).mp hc).2⟩),
   (let ⟨img, hi, hc⟩ := someOf (x := (withImage image6).readImage 0x8000000 64) (p := fun img => decide (imageCheck img 5 = some (0x12, 0))) (by decide +kernel);
   ⟨withImage image6, cmd 1 [(127, 64, 0x8000000), (159, 128, 64)], ctxOf 5, img, _, _, by decide, by decide, by decide, hi, of_decide_eq_true hc⟩),
   (⟨up, cmd 1 [(95, 64, 0xFFFFFFFF)], ctxOf 5, by decide, by decide, by decide, trivial⟩),
   (⟨stepping plan run, cmd 1 [(95, 64, 1)], steppingCtx plan run, run, by decide⟩),
   (⟨stepping plan run, cmd 1 [], steppingCtx plan run, run, by decide⟩),
   (⟨stepping plan { run with ending := some (tick1, 0) }, 5, steppingCtx plan { run with ending := some (tick1, 0) },
      { run with ending := some (tick1, 0) }, tick1, 0, by decide⟩)⟩

theorem met_BatchesAndTheController :
    (∃ s ctx b c r a p x, Pre.batchIssue s ctx b c r a p x)
    ∧ (∃ s ctx b c r a p x, Pre.batchComplete s ctx b c r a p x)
    ∧ (∃ s ctx c r p, Pre.controllerEvaluate s ctx c r p)
    ∧ (∃ (s : State) (c : Ctx) (r : StepRun) (p : Plan) (w : Proj), s.stepOf c.id = some (c, r) ∧ w.stage ≠ 6 ∧ w.low = true ∧
    ((r.batches[w.batch]?).map BatchRun.prio).getD 0 < p.prioMax) :=
  ⟨(⟨stepping { plan with batches := [batch] } { run with batches := [BatchRun.fresh 2] }, 5, 0,
      steppingCtx { plan with batches := [batch] } { run with batches := [BatchRun.fresh 2] }, { run with batches := [BatchRun.fresh 2] },
      { plan with batches := [batch] }, batch, BatchRun.fresh 2, by decide⟩),
   (⟨stepping { plan with batches := [batch] } { run with batches := [{ BatchRun.fresh 2 with issued := true }] }, 5, 0,
      steppingCtx { plan with batches := [batch] } { run with batches := [{ BatchRun.fresh 2 with issued := true }] },
      { run with batches := [{ BatchRun.fresh 2 with issued := true }] }, { plan with batches := [batch] }, batch,
      { BatchRun.fresh 2 with issued := true }, by decide⟩),
   (⟨stepping plan run, 5, steppingCtx plan run, run, plan, by decide⟩),
   (⟨stepping { plan with batches := [batch] } { run with batches := [BatchRun.fresh 2] },
      steppingCtx { plan with batches := [batch] } { run with batches := [BatchRun.fresh 2] }, { run with batches := [BatchRun.fresh 2] },
      { plan with batches := [batch] }, { batch := 0, start := 0, proj := 0, stage := 1, margin := 0, low := true }, by decide⟩)⟩

theorem met_WeightStreams :
    (∃ s d x, Pre.streamArm s d x)
    ∧ (∃ s d x, Pre.streamFlush s d x)
    ∧ (∃ s ctx stream x e i h off, Pre.streamFetchStart s ctx stream x e i h off)
    ∧ (∃ s ctx stream slot x y k e, Pre.streamFetchDone s ctx stream slot x y k e)
    ∧ (∃ s ctx stream x c e n i y, Pre.streamDeliver s ctx stream x c e n i y)
    ∧ (∃ s ctx stream slot x y e, Pre.streamDeliveryDone s ctx stream slot x y e)
    ∧ (∃ s ctx stream slot x c y, Pre.slotRelease s ctx stream slot x c y) :=
  ⟨(⟨streaming stream, { cmd 1 [(69, 64, 3)] with ext := true, payload := BitVec.ofNat 1536 (fields
      [(63, 0, 7), (415, 384, 4096), (431, 416, 1), (439, 432, 1)]) }, stream, by decide +kernel, by decide +kernel, by decide +kernel, by decide +kernel, trivial⟩),
   (⟨streaming stream, cmd 1 [(69, 64, 3)], stream, by decide⟩),
   (let ⟨h, off, hy, hp⟩ := layer_found (s := streaming (streamWith [arm] .empty)) (c := 5) (x := streamWith [arm] .empty) (e := arm) (by decide +kernel);
   ⟨streaming (streamWith [arm] .empty), 5, 3, streamWith [arm] .empty, arm, 0, h, off, by decide, by decide, by decide, by decide +kernel, hy, hp⟩),
   (⟨streaming (streamWith [{ arm with fetched := 1 }] .fetching), 5, 3, 0, streamWith [{ arm with fetched := 1 }] .fetching, slotIn .fetching, key7,
      { arm with fetched := 1 }, by decide⟩),
   (⟨streaming (streamWith [{ arm with fetched := 1 }] .ready), 5, 3, streamWith [{ arm with fetched := 1 }] .ready,
      { ctxOf 5 with streams := [streamWith [{ arm with fetched := 1 }] .ready] }, { arm with fetched := 1 }, 0, 0, slotIn .ready, by decide⟩),
   (⟨streaming (streamWith [{ arm with fetched := 1, started := [0] }] .delivering), 5, 3, 0,
      streamWith [{ arm with fetched := 1, started := [0] }] .delivering, slotIn .delivering, { arm with fetched := 1, started := [0] }, by decide⟩),
   (⟨streaming (streamWith [] .held), 5, 3, 0, streamWith [] .held, { ctxOf 5 with streams := [streamWith [] .held] }, slotIn .held, by decide⟩)⟩

theorem met_UnitsOfTheTiers :
    (∃ s u, Pre.unitReduced s u)
    ∧ (∃ s u, Pre.unitFreeze s u)
    ∧ (∃ s u, Pre.drainStart s u)
    ∧ (∃ s u, Pre.unitEmptied s u)
    ∧ (∃ s u, Pre.unitReturn s u)
    ∧ (∃ s u h, Pre.unitOut s u h)
    ∧ (∃ s l p t, Pre.penumbraOut s l p t)
    ∧ (∃ s l p t, Pre.penumbraWaits s l p t)
    ∧ (∃ s link tag q p l, Pre.penumbraResend s link tag q p l) :=
  ⟨(⟨unitsIn .inService, .shade 3 15, by decide⟩),
   (⟨unitsIn .reduced, .umbra 7, by decide⟩),
   (⟨unitsIn .frozen, .umbra 0, by decide⟩),
   (⟨unitsIn .frozen, .shade 0 0, by decide⟩),
   (⟨unitsIn .out, .umbra 0, by decide⟩),
   (⟨withHandle handle, .shade 0 3, handle, by decide⟩),
   (⟨{ withPeer with tick := 15625000, lnk := { withPeer.lnk with peers := [{ peer9 with downSince := some 0 }] } }, 31, { peer9 with downSince := some 0 }, 0,
      by decide⟩),
   (⟨{ withPeer with lnk := { withPeer.lnk with peers := [{ peer9 with downSince := some 0 }] } }, 31, { peer9 with downSince := some 0 }, 0, by decide⟩),
   (⟨{ withPeer with tick := 156250, lnk := { withPeer.lnk with reqs := [request9] } }, 31, 8, request9, hello9, 0, by decide +kernel⟩)⟩

theorem met_CodecLanesAndGlints :
    (∃ s hub lane j, Pre.laneJob s hub lane j)
    ∧ (∃ s hub lane j x, Pre.courseCompress s hub lane j x)
    ∧ (∃ s hub lane j q, Pre.blockExpand s hub lane j q)
    ∧ (∃ s q h, Pre.endLaneRequest s q h)
    ∧ (∃ s hub lane, Pre.laneRetired s hub lane)
    ∧ (∃ s g, Pre.glintRequest s g)
    ∧ (∃ s g q rest, Pre.glintMemData s g q rest) :=
  ⟨(⟨{ withHandle handle with codec := { up.codec with jobs := [job7 true] } }, 0, 17, job7 true, by decide⟩),
   (⟨lane17 true, 0, 17, job7 true, handle, by decide +kernel⟩),
   (⟨alone17, 0, 17, job7 false, request7, by decide +kernel⟩),
   (⟨lane17 false, request7, handle, by decide⟩),
   (⟨up, 3, 0, by decide⟩),
   (⟨up, 255, by decide⟩),
   (⟨{ up with codec := { up.codec with glints := [(255, { queue := [{ base := 0, offset := 0, len := 1, tag := 0 }], cache := none, replies := [],
                                                           err := none })] } }, 255, { base := 0, offset := 0, len := 1, tag := 0 }, [], by decide⟩)⟩

theorem met_TilesOfRecipeRuns :
    (∃ s hub r w p e, Pre.waveStart s hub r w p e)
    ∧ (∃ s hub e t r, Pre.tileEnd s hub e t r)
    ∧ (∃ s run tile r x a b, Pre.duplicateCompare s run tile r x a b)
    ∧ (∃ s run tile r x a b c, Pre.duplicateThird s run tile r x a b c)
    ∧ (∃ s hub e, Pre.engineRetired s hub e)
    ∧ (∃ s hub e, Pre.chainSplice s hub e)
    ∧ (∃ s hub e t since r, Pre.recipeStall s hub e t since r)
    ∧ (∃ s hub e t r w since, Pre.waitReevaluate s hub e t r w since) :=
  ⟨(⟨waving, 0, { run3 with todo := [waits3] }, waits3, 0, 0, by decide, by decide, by simp [waving, waits3, run3, State.waveOrder, TileWait.special], by decide, by decide⟩),
   (⟨onEngine run3 tile3, 3, 12, tile3, run3, by decide⟩),
   (⟨{ up with eng := { up.eng with runs := [dup3 [digests 0 0, digests 1 1]] } }, 3, 0, dup3 [digests 0 0, digests 1 1], _, digests 0 0, digests 1 1,
      by decide, rfl, by decide, by decide, rfl⟩),
   (⟨{ up with eng := { up.eng with runs := [dup3 [digests 0 0, digests 1 1, digests 2 1]] } }, 3, 0, dup3 [digests 0 0, digests 1 1, digests 2 1], _,
      digests 0 0, digests 1 1, digests 2 1, by decide, rfl, by decide, by decide, rfl, by decide⟩),
   (⟨up, 3, 12, by decide⟩),
   (⟨{ up with rel := { up.rel with hubs := Vector.replicate 4 { HubHealth.reset with splice := some 11 } } }, 2, 11, by decide⟩),
   (⟨{ onEngine run3 { tile3 with waiting := some 0 } with tick := 15625000 }, 3, 12, { tile3 with waiting := some 0 }, 0, run3, by decide⟩),
   (⟨onEngine { run3 with ops := [3] } { tile3 with waiting := some 0 }, 3, 12, { tile3 with waiting := some 0 }, { run3 with ops := [3] }, 3, 0, by decide⟩)⟩

theorem met_OpsOfControlAndMovement :
    (comesTo [0x01, 0x02, 0x04, 0x0A, 0x0B, 0x0C, 0x09, 0x3C])
    ∧ (∃ s hub e w g c, Pre.op s hub e w 0x03 g c ∧ c.tile.waiting = none)
    ∧ (∃ s hub e w g c n, Pre.op s hub e w 0x03 g c ∧ c.tile.waiting = some n ∧ s.waitMet hub e.val c = false)
    ∧ (∃ s hub e w g c, Pre.op s hub e w 0x08 g c ∧ inMode c.run.ops c.op.port ≠ 2)
    ∧ (∃ s hub e w g c, Pre.op s hub e w 0x08 g c ∧ inMode c.run.ops c.op.port = 2)
    ∧ (∃ s hub e w g c i o, Pre.op s hub e w 0x0D g c ∧ c.output c.op.port = some (i, o)) :=
  ⟨(comes_to (by decide)),
   (let ⟨x, h, hp⟩ := someOf (x := (atOp 3 none []).opAt 3 12 (BitVec.ofNat 256 (3 + 8 * 2 ^ 40)) 3) (p := fun x => x.2.tile.waiting.isNone) (by decide);
   ⟨_, _, _, _, x.1, x.2, h, Option.isNone_iff_eq_none.mp hp⟩),
   (let ⟨x, h, hp⟩ := someOf (x := waits.opAt 3 12 (BitVec.ofNat 256 (3 + 2 ^ 96)) 3) (p := fun x => decide (x.2.tile.waiting = some 0) && !waits.waitMet 3 12 x.2) (by decide);
   ⟨_, _, _, _, x.1, x.2, 0, h, of_decide_eq_true ((Bool.and_eq_true _ _).mp hp).1, (Bool.not_eq_true' _).mp ((Bool.and_eq_true _ _).mp hp).2⟩),
   (let ⟨x, h, hp⟩ := someOf (x := (atOp 8 none []).opAt 3 12 (BitVec.ofNat 256 (8 + 8 * 2 ^ 40)) 8) (p := fun x => inMode x.2.run.ops x.2.op.port != 2) (by decide);
   ⟨_, _, _, _, x.1, x.2, h, by simpa using hp⟩),
   (let ⟨x, h, hp⟩ := someOf (x := whole.opAt 3 12 8 8) (p := fun x => inMode x.2.run.ops x.2.op.port == 2) (by decide);
   ⟨_, _, _, _, x.1, x.2, h, by simpa using hp⟩),
   (let ⟨x, h, hp⟩ := someOf (x := (atOp 0x0D none []).opAt 3 12 (BitVec.ofNat 256 (0x0D + 8 * 2 ^ 40)) 0x0D) (p := fun x => (x.2.output x.2.op.port).isSome) (by decide);
   let ⟨y, hy⟩ := Option.isSome_iff_exists.mp hp;
   ⟨_, _, _, _, x.1, x.2, y.1, y.2, h, hy⟩)⟩

theorem met_OpsOnElements : comesTo [0x10, 0x11, 0x12, 0x13, 0x14, 0x15, 0x16, 0x17, 0x18, 0x19, 0x1A, 0x1B, 0x1C, 0x1D, 0x34, 0x35, 0x36, 0x37] :=
  comes_to (by decide)

theorem met_OpsOnVectorsAndAccumulators : comesTo [0x20, 0x21, 0x24, 0x25, 0x26, 0x27, 0x28, 0x2C, 0x2D, 0x30, 0x31, 0x38, 0x39, 0x3A] :=
  comes_to (by decide)

theorem met_MoverChannels :
    (∃ s hub ch by_, Pre.movLoad s hub ch by_)
    ∧ (∃ s hub ch, Pre.movLoad s hub ch .host)
    ∧ (∃ s hub ch by_, Pre.movAbort s hub ch by_)
    ∧ (∃ s hub ch by_, Pre.movResume s hub ch by_)
    ∧ (∃ s port h c, Pre.burstGrant s port h c)
    ∧ (∃ s h c, Pre.burstMoves s h c)
    ∧ (∃ s hub ch, Pre.transferComplete s hub ch)
    ∧ (∃ s hub ch, Pre.busError s hub ch)
    ∧ (∃ s hub n, Pre.directGrant s hub n) :=
  ⟨(⟨up, 3, 63, .firmware .empty, by decide⟩),
   (⟨{ up with mov := { up.mov with hubs := Vector.replicate 4 { Movers.reset with directGranted := 8 } } }, 3, 56, by decide⟩),
   (⟨up, 3, 63, .firmware .empty, by decide⟩),
   (⟨moving .halted, 3, 63, .firmware .empty, by decide⟩),
   (⟨moving .running, .hostRead 0, 0, 63, by decide +kernel⟩),
   (⟨moving .running, 0, 63, by decide⟩),
   (⟨moving .waiting, 3, 63, by decide⟩),
   (⟨moving .waiting, 3, 63, by decide⟩),
   (⟨{ up with mov := { up.mov with hubs := Vector.replicate 4 { Movers.reset with directWanted := some 8 } } }, 0, 8, by decide⟩)⟩

theorem met_ShadowWritesOfChannels :
    (∃ s hub p off c w, Pre.shadowLate s hub p off c w)
    ∧ (∃ s hub p off c r, Pre.notDirect s hub p off c r)
    ∧ (∃ (hub : Hub) (off c : Nat) (r : MovReg), regHere hub off = some (.mov c r)) :=
  ⟨(⟨{ up with mov := { up.mov with hubs := Vector.replicate 4 { Movers.reset with directGranted := 1, chans := [(63, { Channel.reset with shadowValid := true })] } } },
    3, .i3c, 0xCF00, 63, 0, by decide⟩),
   (⟨up, 3, .i3c, 0xCFFC, 63, .prio, by decide, by decide, by decide, by decide, .inr (.inr rfl)⟩),
   (⟨3, 0xCFFC, 63, .prio, by decide⟩)⟩

theorem met_CountersAreRaised :
    (∃ s h, Pre.raises s h)
    ∧ (∃ s hub c, Pre.mirrorWrite s hub c)
    ∧ (∃ s hub c, Pre.takePost s hub c)
    ∧ (∃ s d, Pre.longWait s d)
    ∧ (∃ s hub, Pre.synCtrCfgWrite s hub) :=
  ⟨(⟨up, 3, by decide⟩),
   (⟨syncing (owned 255), 3, 255, by decide⟩),
   (⟨syncing (owned 255), 3, 255, by decide⟩),
   (⟨{ up with pwr := { up.pwr with hubs := Vector.replicate 4 { HubPower.reset with domains := List.replicate 10 { Domain.reset with state := .on } } } },
      39, by decide⟩),
   (⟨up, 3, by decide⟩)⟩

theorem met_BarriersOfTheSyncBlock :
    (∃ s m g, Pre.barrier s m g)
    ∧ (∃ s hub b, Pre.barrierArrive s hub b)
    ∧ (∃ s b, Pre.beaconComplete s b)
    ∧ (∃ s hub b, Pre.beaconHoldEnd s hub b)
    ∧ (∃ s b, Pre.barrierComplete s b)
    ∧ (∃ s x h, Pre.barDone s x h)
    ∧ (∃ s b, Pre.barrierTimeout s b)
    ∧ ((∃ v : BitVec 32, v.getLsbD 31 = false) ∧ ∃ (s : State) (b : Fin 8) (v : BitVec 32), v.getLsbD 31 = true ∧ s.syn.bars[b].cfg.getLsbD 31 = false) :=
  ⟨(⟨{ withPeer with groups := [group15], syn := { up.syn with bars := Vector.replicate 8 (bar true .waiting .out) } },
      { generation := 1, lineDone := false, group := 15, slot := 7, rank := 0 }, group15, by decide +kernel⟩),
   (⟨{ barring (bar false .waiting .asserting) with syn := { hubs := Vector.replicate 4 { Sync.reset with ctrs := [(255, 1)] },
                                                                        bars := Vector.replicate 8 (bar false .waiting .asserting) } }, 3, 7, by decide⟩),
   (⟨barring (bar false .waiting .released), 7, by decide⟩),
   (⟨{ barring (bar false .waiting .hold) with tick := 10000000 }, 3, 7, by decide⟩),
   (⟨barring (bar false .arrived .hold), 7, by decide⟩),
   (⟨up, bar false .arrived .hold, 0, by decide⟩),
   (⟨{ barring (bar true .arrived .hold) with tick := 156250, groups := [group15] }, 7, by decide⟩),
   (⟨⟨0, by decide⟩, up, 7, 0xFFFFFFFF, by decide⟩)⟩

theorem met_LocksOfTheSyncBlock :
    (∃ (s : State) (hub : Hub) (l : Fin 64) (b : BitVec 8), s.lock hub l.val = .held b)
    ∧ (∃ (s : State) (hub : Hub) (l : Fin 64), ∀ b, s.lock hub l.val ≠ .held b)
    ∧ (∃ (s : State) (hub : Hub) (l : Fin 64) (q : BitVec 8), s.lock hub l.val = .held q)
    ∧ (∃ (s : State) (hub : Hub) (l : Fin 64) (q : BitVec 8), s.lock hub l.val ≠ .held q)
    ∧ (∃ (s : State) (hub : Hub) (l : Fin 64) (b : BitVec 8), s.lock hub l.val = .held b) :=
  ⟨(⟨syncing { Sync.reset with locks := [(63, .held 7)] }, 3, 63, 7, by decide⟩),
   (⟨up, 3, 63, fun b h => by cases h⟩),
   (⟨syncing { Sync.reset with locks := [(63, .held 7)] }, 3, 63, 7, by decide⟩),
   (⟨syncing { Sync.reset with locks := [(63, .held 7)] }, 3, 63, 8, by decide⟩),
   (⟨syncing { Sync.reset with locks := [(0, .held 7)] }, 0, 0, 7, by decide⟩)⟩

theorem met_LinkFramesAndLanes :
    (∃ s l f, Pre.linkFrameReceive s l f)
    ∧ (∃ s l, s.lnk.links[(l : LinkNo)].state = .downVersion ∧ Pre.linkFrameReceive s l frame)
    ∧ (∃ s l f, Pre.linkFrameBad s l f)
    ∧ (∃ s l f, Pre.linkFrameOther s l f)
    ∧ (∃ s l, Pre.linkResend s l)
    ∧ (∃ s l, Pre.linkRetrainDone s l)
    ∧ (∃ s l lane lost, Pre.laneBad s l lane lost)
    ∧ (∃ s l lane lost, Pre.laneBad s l lane lost ∧ lane.val ∈ s.lnk.links[(l : LinkNo)].map)
    ∧ (∃ s l lane, Pre.laneBer s l lane)
    ∧ (∃ s l arg, Pre.laneCtrl s l arg)
    ∧ (∃ s l, Pre.spareLaneTrained s l)
    ∧ (∃ s l lanes, Pre.linkTrained s l lanes)
    ∧ (∃ s l, Pre.trainingRetry s l) :=
  ⟨(⟨withPeer, 31, frame, by decide, ⟨rfl, rfl, rfl⟩, by decide⟩),
   (⟨linked .downVersion, 0, by decide, by decide, ⟨rfl, rfl, rfl⟩, by decide⟩),
   (⟨withPeer, 31, { frame with fcrcOk := false }, by decide, fun h => by cases h.2.1⟩),
   (⟨withPeer, 31, { frame with seq := 0xFFFF }, by decide, ⟨rfl, rfl, rfl⟩, by decide⟩),
   (⟨{ withPeer with lnk := { withPeer.lnk with links := Vector.replicate 32 { withPeer.lnk.links[0] with nakSeen := true } } }, 31, by decide⟩),
   (⟨linked .retrain, 31, by decide⟩),
   (⟨withPeer, 31, 4, true, by decide⟩),
   (⟨withPeer, 31, 3, true, by decide⟩),
   (⟨withPeer, 31, 3, by decide +kernel⟩),
   (⟨withPeer, 31, 4, by decide⟩),
   (⟨{ withPeer with lnk := { withPeer.lnk with links := Vector.replicate 32 { withPeer.lnk.links[0] with spareState := 1 } } }, 31, by decide⟩),
   (⟨linked .training, 31, 0x15, by decide⟩),
   (⟨{ linked .training with tick := 1562500000 }, 31, by decide⟩)⟩

theorem met_PeersGrantsAndSignals :
    (∃ s l data, Pre.hello s l data)
    ∧ (∃ p : PeerHello, 2 ≤ p.major.toNat ∧ p.compat.toNat ≤ 1)
    ∧ (∃ p : PeerHello, 2 ≤ p.major.toNat ∧ 2 ≤ p.compat.toNat)
    ∧ (∃ p q : PeerHello, p.major = 0 ∧ q.major = 1)
    ∧ (∃ s l p, Pre.grant s l p)
    ∧ (∃ s l addr arg p, Pre.remoteSignal s l addr arg p)
    ∧ (∃ s l arg p, Pre.remoteSignalOnce s l arg p)
    ∧ (∃ s x d l0, Pre.signalResend s x d l0)
    ∧ (∃ s x t, Pre.signalTimeout s x t)
    ∧ (∃ s l, Pre.linkL1Entry s l)
    ∧ (∃ s l, Pre.linkL1Wake s l) :=
  ⟨(⟨linked .hello, 31, 1#512 <<< 160, by decide⟩),
   (⟨{ hello9 with major := 2, compat := 1 }, by decide⟩),
   (⟨{ hello9 with major := 2, compat := 2 }, by decide⟩),
   (⟨{ hello9 with major := 0 }, hello9, by decide⟩),
   (⟨withPeer, 31, peer9, by decide⟩),
   (⟨{ withPeer with syn := { up.syn with hubs := Vector.replicate 4 { Sync.reset with cfg := [(255, 0xC0000005)] } } }, 31, 0x3FF, 0, hello9, by decide⟩),
   (⟨{ withPeer with lnk := { withPeer.lnk with raised := [(9, 0)] } }, 31, 0, hello9, by decide⟩),
   (⟨one31, signal9, 0, 31, by decide +kernel⟩),
   (⟨{ one31 with tick := 15625000 }, signal9, tick1, by decide⟩),
   (⟨{ withPeer with tick := 157, lnk := { withPeer.lnk with links := Vector.replicate 32 { withPeer.lnk.links[0] with minor := 2, l1Us := 1 } } }, 31,
      by decide⟩),
   (⟨linked .l1, 31, by decide⟩)⟩

theorem met_LinkAdminCommands :
    (∃ s d, Pre.linkQuery s d)
    ∧ (∃ s d, Pre.linkSetCap s d)
    ∧ (∃ s d, Pre.linkAdmin s d) :=
  ⟨(⟨up, cmdX 0 [(69, 64, 31), (133, 128, 1)], by decide⟩),
   (⟨up, cmd 0 [(143, 136, 255)], by decide +kernel⟩),
   (⟨up, cmd 0 [(69, 64, 31)], by decide⟩)⟩

theorem met_GroupsAndSlabCollectives :
    (∃ s d, Pre.groupCreate s d)
    ∧ (∃ s d g, Pre.groupDestroy s d g)
    ∧ (∃ s d, Pre.groupQuery s d)
    ∧ (∃ s d c g, Pre.allReduce s d c g)
    ∧ (∃ s d c g, Pre.reduceScatter s d c g)
    ∧ (∃ s d c g, Pre.allGather s d c g)
    ∧ (∃ s d c g, Pre.updateSeal s d c g)
    ∧ (∃ s g c, Pre.joinColl s g c)
    ∧ (∃ (g : Group) (c : Coll), g.next = some c)
    ∧ (∃ s d g hs, Pre.permute s d g hs) :=
  ⟨(⟨table, tableCmd, by decide, by decide, table_ok, by decide⟩),
   (⟨grouped group15, cmd 0 [(67, 64, 15)], group15, by decide⟩),
   (⟨up, cmdX 0 [(67, 64, 15)], by decide⟩),
   (⟨grouped group15, collCmd [(159, 152, 63)], collOf (collCmd [(159, 152, 63)]) 0x40 tick1 5, group15, by decide, by decide, rfl, rfl⟩),
   (⟨grouped group15, collCmd [(159, 152, 192)], collOf (collCmd [(159, 152, 192)]) 0x41 tick1 5, group15, by decide, by decide, rfl, rfl⟩),
   (⟨grouped group15, collCmd [], collOf (collCmd []) 0x42 tick1 5, group15, by decide, by decide, rfl, rfl⟩),
   (⟨grouped group15, cmd 1 [(131, 128, 15), (151, 136, 1), (255, 224, 1)], collOf (cmd 1 [(131, 128, 15), (151, 136, 1), (255, 224, 1)]) 0x45 tick1 5, group15,
      by decide, by decide, rfl, rfl⟩),
   (⟨{ grouped group15 with start := { up.start with shut := .testing false false } }, group15, coll 0x40, by decide⟩),
   (⟨{ group15 with colls := [{ coll 0x45 with started := false }] }, { coll 0x45 with started := false }, by decide⟩),
   (⟨grouped group15, { cmd 1 [(131, 128, 15), (255, 224, 1), (383, 320, 0x7000000)] with ext := true, payload := BitVec.ofNat 1536 word7 }, group15,
      [some handle, none, none, none, none, none, none, none], by decide +kernel, rfl, rfl, by decide⟩)⟩

theorem met_ReductionsAndSeals :
    (∃ s d c g hs, Pre.reduceUpdate s d c g hs)
    ∧ (∃ s d c g, Pre.reduceUpdateStep s d c g)
    ∧ (∃ s d c g, Pre.reduceUpdateStep s d c g ∧ g.openStep = none)
    ∧ (∃ (g : Group) (c : Coll) (j : Nat) (ls : List (List Nat)) (poison : Bool), g.owner (g.slab c.slabs j) = g.rank ∧ j ∉ c.totals ∧
    c.heldAll 1 j ((List.range (g.dims (g.slab c.slabs j).partA).2).map (fun b => g.at_ (g.slab c.slabs j).partA (g.slab c.slabs j).o1 b)) = some (ls, poison))
    ∧ (∃ s l m g r, Pre.collData s l m g r)
    ∧ (∃ s l m g r, Pre.collSeal s l m g r)
    ∧ (∃ s slot e g c, Pre.collTake s slot e g c)
    ∧ (∃ s l m pkg g k, Pre.collForm s l m pkg g k)
    ∧ (∃ s l m g r, Pre.collAbort s l m g r)
    ∧ (∃ s k g t, Pre.formationTimeout s k g t)
    ∧ (∃ s k g, Pre.groupBroken s k g)
    ∧ (∃ s k g c, Pre.sealDecide s k g c)
    ∧ (∃ s k g c, Pre.sealTimeout s k g c) :=
  ⟨(⟨updating group15, updateCmd, collOf updateCmd 0x44 tick1 5, group15, [some (bf16 7), some (bf16 8), none], by decide +kernel, ⟨by decide, rfl, rfl⟩, by decide,
      by decide, rfl, by decide, by decide⟩),
   (⟨updating { group15 with openStep := some 3 }, updateCmd, collOf updateCmd 0x44 tick1 5, { group15 with openStep := some 3 }, by decide +kernel,
      ⟨by decide, rfl, rfl⟩, .inl ⟨3, by decide⟩⟩),
   (⟨updating { group15 with sealedSteps := [4] }, updateCmd, collOf updateCmd 0x44 tick1 5, { group15 with sealedSteps := [4] },
      ⟨by decide +kernel, ⟨by decide, rfl, rfl⟩, .inr (by decide)⟩, rfl⟩),
   (let q : Group := { group15 with split := 65536, rank := 2 };
   ⟨q, { coll 0x40 with bufs := [{ kind := 1, rank := 2, elems := [(0, 0)], poison := [] }] }, 0, [[0]], false, by decide, by decide, by decide⟩),
   (⟨grouped group15, 31, msg 5, group15, 0, by decide⟩),
   (⟨grouped group15, 31, msg 7, group15, 0, by decide⟩),
   (⟨grouped { group15 with colls := [coll 0x40] }, 15, { rank := 0, msg := msg 0, record := none }, { group15 with colls := [coll 0x40] }, coll 0x40, by decide⟩),
   (⟨grouped forming, 31, msg 8, 9, forming, 0, by decide⟩),
   (⟨grouped group15, 31, msg 10, group15, 0, by decide⟩),
   (⟨{ grouped forming with tick := 156250000 }, 15, forming, tick1, by decide⟩),
   (⟨{ grouped group15 with lnk := { up.lnk with peers := [] } }, 15, group15, by decide, by decide, 0, by decide, by decide⟩),
   (⟨grouped { group15 with colls := [{ coll 0x45 with seals := [sealOf 0, sealOf 1, sealOf 2] }] }, 15,
      { group15 with colls := [{ coll 0x45 with seals := [sealOf 0, sealOf 1, sealOf 2] }] }, { coll 0x45 with seals := [sealOf 0, sealOf 1, sealOf 2] }, by decide⟩),
   (⟨grouped { group15 with colls := [coll 0x45] }, 15, { group15 with colls := [coll 0x45] }, coll 0x45, by decide⟩)⟩

theorem met_VaultImages :
    (∃ s l tag q p slot, Pre.vaultCreate s l tag q p slot)
    ∧ (∃ s l tag q i, Pre.vaultCreateTwice s l tag q i)
    ∧ (∃ s l tag q i, Pre.vaultSeal s l tag q i)
    ∧ (∃ s l tag q i, Pre.vaultDrop s l tag q i)
    ∧ (∃ s l tag q, Pre.vaultList s l tag q)
    ∧ (∃ s l tag q, Pre.vaultStatus s l tag q)
    ∧ (∃ s n i, Pre.writingImageExpiry s n i)
    ∧ (∃ s d, Pre.vaultQuery s d)
    ∧ (∃ s d i, Pre.vaultRelease s d i)
    ∧ (∃ s d c, Pre.ckptBind s d c) :=
  ⟨(⟨vaulting 1 [], 31, 15, vreq 1, { peer9 with grantGiven := 4194304, frames := [0], frameStacks := [(0, 7)] }, 0, by decide, by decide, by decide,
      by decide, by decide⟩),
   (⟨vaulting 1 [imageOf 0 .writing], 31, 15, vreq 1, imageOf 0 .writing, by decide⟩),
   (⟨vaulting 2 [imageOf 0 .writing], 31, 15, vreq 2, imageOf 0 .writing, by decide⟩),
   (⟨vaulting 3 [imageOf 0 .sealed], 31, 15, vreq 3, imageOf 0 .sealed, by decide⟩),
   (⟨vaulting 4 [imageOf 0 .sealed], 31, 15, vreq 4, by decide⟩),
   (⟨vaulting 5 [imageOf 0 .sealed], 31, 15, vreq 5, by decide⟩),
   (⟨vaulting 5 [imageOf 0 .writing], 255, imageOf 0 .writing, by decide⟩),
   (⟨up, cmdX 0 [(71, 64, 255), (79, 72, 1)], by decide⟩),
   (⟨vaulting 5 [imageOf 0 .sealed], cmd 0 [(71, 64, 255)], imageOf 0 .sealed, by decide⟩),
   (⟨up, cmd 0 [(91, 80, 5), (191, 128, 3)], ctxOf 5, by decide⟩)⟩

theorem met_PeerWindowTraffic :
    (∃ s l m p, Pre.pnRd s l m p)
    ∧ (∃ s l m i, Pre.pnRdImage s l m i)
    ∧ (∃ s l m p k, Pre.pnWr s l m p k)
    ∧ (∃ s l m, Pre.pnWrBad s l m)
    ∧ (∃ s l m, Pre.pnWrRequest s l m)
    ∧ (∃ s l m q, Pre.pnRdData s l m q)
    ∧ (∃ s l m q, Pre.pnWrAck s l m q)
    ∧ (∃ s l m, Pre.answerLate s l m)
    ∧ (∃ s l m q, Pre.pnCheckAgain s l m q) :=
  ⟨(⟨vaulting 5 [], 31, pn 0, { peer9 with grantGiven := 4194304, frames := [0], frameStacks := [(0, 7)] }, by decide⟩),
   (⟨vaulting 5 [imageOf 0 .sealed], 31, pn 0xAFF000000000, imageOf 0 .sealed, by decide⟩),
   (⟨vaulting 5 [], 31, pn 0x1FF000, { peer9 with grantGiven := 4194304, frames := [0], frameStacks := [(0, 7)] }, 7, by decide⟩),
   (⟨withPeer, 31, { pn 0 with poison := false, bcrc := 1 }, by decide⟩),
   (⟨withPeer, 31, pn 0x80000000F000, by decide⟩),
   (⟨asking false, 31, reply, request9, by decide⟩),
   (⟨asking true, 31, reply, { request9 with write := true }, by decide⟩),
   (⟨withPeer, 31, reply, by decide⟩),
   (⟨asking false, 31, { reply with status := 0, block := true, bcrc := 1 }, request9, by decide⟩)⟩

theorem met_CheckpointCommands :
    (∃ s d key rank pkg tag, Pre.ckptRestore s d key rank pkg tag)
    ∧ (∃ s d key rank pkg tag, Pre.ckptDrop s d key rank pkg tag)
    ∧ (∃ s d key rank pkg tag, Pre.ckptList s d key rank pkg tag)
    ∧ (∃ s d key rank pkg tag hs, Pre.checkpoint s d key rank pkg tag hs)
    ∧ (∃ s d key rank pkg tag hs, Pre.snapshotSend s d key rank pkg tag hs)
    ∧ (∃ s d key i g data poison fr, Pre.snapshotRead s d key i g data poison fr)
    ∧ (∃ s hub, Pre.ownImagePoll s hub)
    ∧ (∃ s w l tag, Pre.ownImageAsked s w l tag) :=
  ⟨(⟨binding, cmd 1 [(69, 64, 31)], 3, 0, 9, 0, by decide⟩),
   (⟨binding, cmd 1 [(69, 64, 31)], 3, 0, 9, 0, by decide⟩),
   (⟨binding, cmdX 1 [(69, 64, 31), (159, 148, 256), (447, 384, 0x8000000)], 3, 0, 9, 0, by decide⟩),
   (⟨binding, cmd 1 [(69, 64, 31), (159, 148, 1), (447, 384, 0x7000000)], 3, 0, 9, 0, [handle], by decide, by decide, rfl, by decide⟩),
   (⟨binding, cmd 1 [(69, 64, 31), (159, 148, 1), (447, 384, 0x7000000)], 3, 0, 9, 0, [handle], by decide, by decide, rfl, by decide⟩),
   (let ⟨x, hx⟩ := Option.isSome_iff_exists.mp (show (segmentBack snapBytes [] (segmentOf snapBytes 0)).isSome = true by decide +kernel);
   ⟨snapped, cmd 1 [(135, 128, 255), (359, 320, 7), (447, 384, 0x8000000)], 3, snap, segmentOf snapBytes 0, x.1, x.2.1, x.2.2, by decide, by decide, by decide, by decide,
      by decide, by decide, rfl, by decide, by decide, hx⟩),
   (⟨up, 3, by decide⟩),
   (⟨{ withPeer with vault := { up.vault with own := [{ pkg := 9, ctx := 5, slot := 255, ckptNo := 1, reported := false }] } },
      { pkg := 9, ctx := 5, slot := 255, ckptNo := 1, reported := false }, 0, 0, by decide +kernel⟩)⟩

theorem met_FaultsRepairsAndScrubbing :
    (∃ s hub bank row, Pre.rowRetire s hub bank row)
    ∧ (∃ s hub bank, Pre.rowRetireNone s hub bank)
    ∧ (∃ s hub bank slice, Pre.sliceReplace s hub bank slice)
    ∧ (∃ s k f, Pre.pageRetire s k f)
    ∧ (∃ s u cls, Pre.targetedTest s u cls)
    ∧ (∃ s u t, Pre.testDecision s u t)
    ∧ (∀ k ∈ [1, 2, 3, 4, 5, 6, 7], ∃ u : UnitName, u.kind = k)
    ∧ (∃ s hub u, Pre.scrubPass s hub u)
    ∧ (∃ s k b h, Pre.poisonHome s k b h) :=
  ⟨(⟨up, 3, 15, 2047, by decide⟩),
   (⟨{ up with rel := { up.rel with repair := { up.rel.repair with rowMap := (List.range 32).map (fun i => (63, i, i)) } } }, 3, 15, by decide⟩),
   (⟨up, 3, 15, 15, by decide⟩),
   (⟨up, 7, 32767, by decide⟩),
   (⟨up, frameUnit, 6, by decide⟩),
   (⟨healthy { HubHealth.reset with testing := [under laneUnit false] }, laneUnit, under laneUnit false, by decide⟩),
   (fun k _ => ⟨{ kind := k, hub := 3, index := 0, sub := 0 }, rfl⟩),
   (⟨powered .on, 3, frameUnit, by decide⟩),
   (⟨withHandle handle, key7, 0, handle, by decide⟩)⟩

theorem met_SelfTestRuns :
    (∃ s d, Pre.bistGrant s d)
    ∧ (∃ s d r, Pre.bistResults s d r)
    ∧ (∃ s d, Pre.bistFailView s d)
    ∧ (∃ s, Pre.bistStart s)
    ∧ (∃ s, Pre.bistStartRefused s)
    ∧ (∃ s hub warm, Pre.shutdownTest s hub warm)
    ∧ (∃ s hub row unit asDue, Pre.sliceStart s hub row unit asDue)
    ∧ (∃ s hub row unit y, Pre.sliceEnd s hub row unit y)
    ∧ (∃ s r, Pre.endSlice s r) :=
  ⟨(⟨up, cmd 0 [(79, 64, 60000)], by decide⟩),
   (⟨testing { bist with summaries := [summary] }, cmdX 0 [(127, 112, 4096)], summary, by decide⟩),
   (⟨up, cmdX 0 [(127, 112, 4096)], by decide⟩),
   (⟨{ up with ctxs := [] }, by decide⟩),
   (⟨up, by decide⟩),
   (⟨{ up with start := { up.start with shut := .testing true true } }, 3, true, by decide⟩),
   (⟨testing { bist with state := 1, runBudgetMs := 60000 }, 0, 0, 0, false, by decide +kernel⟩),
   (⟨testing { bist with running := [slice0] }, 0, 0, 0, slice0, by decide⟩),
   (⟨healthy { HubHealth.reset with lost := true }, slice0, by decide⟩)⟩

theorem met_FieldTestsAndCalibration :
    (∃ s d, Pre.bistFieldNow s d)
    ∧ (∃ s u b, Pre.fieldTestDue s u b)
    ∧ (∃ s u, Pre.fieldTestStart s u)
    ∧ (∃ s u t, Pre.fieldTestEnd s u t)
    ∧ (∃ s u d, Pre.deferTimeout s u d)
    ∧ (∃ s n, Pre.calibrationRecheck s n)
    ∧ (∃ s k, Pre.driftCheck s k)
    ∧ (∃ s k, Pre.recalibrationDone s k) :=
  ⟨(⟨up, cmd 0 [(65, 64, 3), (79, 72, 3), (95, 80, 17)], by decide⟩),
   (⟨{ up with tick := 13500000000000 }, laneUnit, 1, by decide⟩),
   (⟨healthy (dueIs coreUnit), coreUnit, by decide⟩),
   (⟨healthy { HubHealth.reset with testing := [under laneUnit true] }, laneUnit, under laneUnit true, by decide⟩),
   (⟨{ healthy (dueIs coreUnit) with tick := 3125000 }, coreUnit, { unit := coreUnit, since := 0 }, by decide⟩),
   (⟨{ up with pwr := { up.pwr with cal := [(0xFFFF, .provisional)] } }, 0xFFFF, by decide⟩),
   (⟨unitsIn .inService, 7, by decide⟩),
   (⟨unitsIn .reduced, 7, by decide⟩)⟩

theorem met_PowerPaceAndTiming :
    (∃ s h d t, Pre.retainEntry s h d t)
    ∧ (∃ s h d, Pre.wakeRequest s h d)
    ∧ (∃ s h d, Pre.rampDone s h d)
    ∧ (∃ s h d, Pre.domainOn s h d)
    ∧ (∃ s, Pre.alignRetry s)
    ∧ (∃ s h, Pre.pllLockTimeout s h)
    ∧ (∃ s : State, s.tick % 1250 = 0 ∧ 0 < s.tick)
    ∧ (∃ p : HubPower, p.status = 2) :=
  ⟨(⟨{ up with tick := 1000000000, pwr := { up.pwr with hubs := Vector.replicate 4 { HubPower.reset with domains := List.replicate 10 { Domain.reset with
      state := .on, idleSince := some 0 } } } }, 3, 5, 0, by decide⟩),
   (⟨powered .retain, 3, 7, by decide⟩),
   (⟨{ up with pwr := { up.pwr with hubs := Vector.replicate 4 { HubPower.reset with hubSlot := [7] } } }, 3, 7, by decide⟩),
   (⟨{ up with pwr := { up.pwr with hubs := Vector.replicate 4 { HubPower.reset with domains := List.replicate 10 { Domain.reset with
      state := .ramping, restoring := true } } } }, 3, 9, by decide⟩),
   (⟨up, by decide⟩),
   (⟨healthy { HubHealth.reset with lost := true }, 3, by decide⟩),
   (⟨{ up with tick := 1250 }, by decide⟩),
   (⟨{ HubPower.reset with status := 2, clean := 4 }, rfl⟩)⟩

theorem met_AlertAndQuench :
    (∃ s b high, Pre.quenchChannel s b high)
    ∧ (∃ s t, Pre.discrepancyExpiry s t)
    ∧ (∃ s, Pre.quench s)
    ∧ (∃ s, Pre.quenchAgain s)
    ∧ (∃ s, Pre.clearReady s)
    ∧ (∃ q : Quench, q.state = 2 ∧ q.cause = 4)
    ∧ (∃ s : State, s.start.quench.clearReady = true) :=
  ⟨(⟨up, true, true, by decide⟩),
   (⟨{ quenched { up.start.quench with state := 1, aHigh := true, timerFrom := some 0 } with tick := 781250 }, 0, by decide⟩),
   (⟨up, by decide⟩),
   (⟨quenched lasting, by decide⟩),
   (⟨quenched lasting, by decide⟩),
   (⟨{ lasting with cause := 4 }, by decide⟩),
   (⟨quenched { lasting with clearReady := true }, by decide⟩)⟩

theorem met_FirmwareSlotsAndImages :
    (∃ s d, Pre.imageLoad s d)
    ∧ (∃ s d, Pre.imageLoadActive s d)
    ∧ (∃ (s : State) (b : List Byte), fieldAt b 12 2 < s.fw.svnFuse.toNat)
    ∧ (∃ s d, Pre.slotQuery s d)
    ∧ (∃ s d, Pre.slotActivate s d)
    ∧ (∃ s d, Pre.slotConfirm s d)
    ∧ (∃ s hub core i, Pre.patchBankSwitch s hub core i) :=
  ⟨(⟨up, cmd 0 [(65, 64, 1), (191, 128, 0x7000000), (223, 192, 320)], by decide⟩),
   (⟨flashed { up.fw with slotB := { FwSlot.none with state := .active } }, cmd 0 [(65, 64, 1), (191, 128, 0x7000000)], by decide⟩),
   (⟨flashed { up.fw with svnFuse := 1 }, [], by decide⟩),
   (⟨up, cmdX 0 [], by decide⟩),
   (⟨flashed { up.fw with slotB := { FwSlot.none with state := .valid } }, cmd 0 [(64, 64, 1)], by decide⟩),
   (⟨flashed { up.fw with slotA := { FwSlot.none with state := .activeTrial } }, cmd 0 [], by decide⟩),
   (⟨flashed { up.fw with inUse := some 0, slotA := patched }, 3, 6, 0, by decide +kernel⟩)⟩

theorem met_StartLevels :
    (∃ s, Pre.ringLevel s)
    ∧ (∃ s, Pre.umbraReady s)
    ∧ (∃ s, Pre.linksReady s)
    ∧ (∃ s, Pre.journalReadAtStart s)
    ∧ (∃ s, Pre.storeBlank s) :=
  ⟨(⟨{ starting .core Store.blank with tick := 46875 }, by decide⟩),
   (⟨starting .ring storeUp, by decide⟩),
   (⟨{ starting .ring storeUp with lnk := { up.lnk with links := Vector.replicate 32 { Link.reset with state := .up } } }, by decide +kernel⟩),
   (⟨starting .core { Store.blank with valid := true }, by decide⟩),
   (⟨starting .core Store.blank, by decide⟩)⟩

theorem met_ResetShutDownAndPins :
    (∃ s, Pre.rstNAssert s)
    ∧ (∃ s, Pre.pgoodFall s)
    ∧ (∃ s, Pre.shdnReq s)
    ∧ (∃ s t, Pre.graceExpiry s t)
    ∧ (∃ s d, Pre.shutdown s d)
    ∧ (∃ s : State, s.rel.bist.state = 2 ∧ s.rel.bist.stopCause = 0)
    ∧ (∃ s warm n t, Pre.drainExpiry s warm n t)
    ∧ (∃ (s : State) (k : Stack), (s.afterDrain true none).units.stack[k] ≠ .out)
    ∧ (∃ s warm, Pre.offReady s warm)
    ∧ (∃ (s : State) (p : Pins), ∃ n < 8, bitsOf p.mfSel.toNat (4 * n + 3) (4 * n) ≠ bitsOf s.start.pins.mfSel.toNat (4 * n + 3) (4 * n)) :=
  ⟨(⟨{ up with start := { up.start with pins := { up.start.pins with rstN := true } } }, by decide⟩),
   (⟨up, by decide⟩),
   (⟨up, by decide⟩),
   (⟨ending (.grace 5), 5, by decide⟩),
   (⟨up, cmd 0 [(64, 64, 1), (95, 80, 65535)], by decide⟩),
   (⟨{ up with rel := { up.rel with bist := { up.rel.bist with state := 2 } } }, by decide⟩),
   (⟨ending (.draining true 5 none), true, 5, none, by decide⟩),
   (⟨up, 7, by decide +kernel⟩),
   (⟨ending (.testing true false), true, by decide⟩),
   (⟨up, { up.start.pins with mfSel := 0x60000000 }, 7, by decide⟩)⟩

theorem met_EventsAreRecorded :
    (∃ s h q rest, Pre.eventRecord s h q rest)
    ∧ (∃ r e tick, Pre.recordNew r e tick)
    ∧ (∃ r e tick, Pre.recordMerge r e tick)
    ∧ (∃ s h e, Pre.eventQueue s h e)
    ∧ (∃ s h q rest, Pre.eventDropped s h q rest) :=
  ⟨(⟨queued { drops := 0, tick := 0, event := event1 }, 3, { drops := 0, tick := 0, event := event1 }, [], by decide⟩),
   (⟨Recorder.reset, event1, 0, by decide⟩),
   (⟨recorder1, event1, 0, by decide⟩),
   (⟨up, 3, event1, by decide⟩),
   (⟨queued { drops := 1, tick := 0, event := event1 }, 3, { drops := 1, tick := 0, event := event1 }, [], by decide⟩)⟩

theorem met_RecorderReadsAndClears :
    (∃ s d, Pre.evrRead s d)
    ∧ (∃ s d, Pre.evrCperRead s d)
    ∧ (∃ s d, Pre.evrNonce s d)
    ∧ (∃ s d tok n, Pre.evrClear s d tok n)
    ∧ (∃ s d, Pre.evrClearNoToken s d)
    ∧ (∃ s t, Pre.nonceLockoutEnd s t) :=
  ⟨(⟨up, cmdX 0 [(65, 64, 3), (95, 80, 4095), (111, 96, 4096)], by decide⟩),
   (⟨up, cmdX 0 [(103, 96, 64)], by decide⟩),
   (⟨up, cmd 0 [], by decide⟩),
   (⟨{ tokened with evt := { tokened.evt with auth := { nonce := some (7, 0), fails := [], lockedAt := none } } },
      { cmd 0 [] with ext := true }, 1, 7, by decide +kernel⟩),
   (⟨up, { cmd 0 [] with ext := true }, by decide +kernel⟩),
   (⟨{ up with evt := { up.evt with auth := { nonce := none, fails := [], lockedAt := some 0 } } }, 0, by decide⟩)⟩

theorem met_TokenIsProvisioned :
    (∃ s d, Pre.evrProvision s d)
    ∧ (∃ s d tok, Pre.provisionReplaces s d tok) :=
  ⟨(⟨up, { cmd 0 [] with ext := true }, by decide +kernel⟩),
   (⟨tokened, { cmd 0 [] with ext := true }, 1, by decide⟩)⟩

theorem met_JournalOfTheHistoryStore :
    (∃ s e rest, Pre.journalWrite s e rest)
    ∧ (∃ s, Pre.journalHeld s)
    ∧ (∃ s, Pre.journalCompact s)
    ∧ (∃ s, Pre.storeFault s)
    ∧ (∃ s, Pre.storeStops s) :=
  ⟨(⟨{ up with evt := { up.evt with store := storeUp, waiting := [entry1] } }, entry1, [], by decide⟩),
   (⟨up, by decide⟩),
   (⟨{ up with evt := { up.evt with store := { storeUp with erased := 15 } } }, by decide⟩),
   (⟨up, by decide⟩),
   (⟨{ up with evt := { up.evt with store := { storeUp with faults := 2 } } }, by decide⟩)⟩

theorem met_TelemetryPages :
    (∃ s, Pre.telemetrySnapshot s)
    ∧ (∃ s d y, Pre.telemRead s d y)
    ∧ (∃ s d c, Pre.telemPage3 s d c)
    ∧ (∃ s d r, Pre.telemRange s d r) :=
  ⟨(⟨up, by decide⟩),
   (⟨{ up with evt := { up.evt with snaps := Vector.replicate 4 [{ page := 2, index := 31, bytes := [] }] } },
    cmdX 0 [(67, 64, 2), (95, 80, 31)], { page := 2, index := 31, bytes := [] }, by decide⟩),
   (⟨up, cmdX 0 [(67, 64, 3), (95, 80, 5)], ctxOf 5, by decide⟩),
   (⟨up, cmdX 0 [(67, 64, 2), (95, 80, 32)], ringAt 0 0 0x1000000, by decide⟩)⟩

theorem met_RegistersOfTheWindow :
    (∃ s hub p off r, Pre.registerWrite s hub p off r)
    ∧ (∃ s hub p off, Pre.registerMiss s hub p off)
    ∧ (∃ s p hub, Pre.pathClosed s p hub)
    ∧ (∃ h off r, Pre.registerRead h off r) :=
  ⟨(⟨up, 3, .i3c, 0x0014, .scratch, by decide⟩),
   (⟨up, 3, .i3c, 0x0040, by decide⟩),
   (⟨State.reset, .mailbox, 3, by decide⟩),
   (⟨3, 0xCFFC, .mov 63 .prio, by decide⟩)⟩

theorem met_AccessPathsAndAdminBase :
    (∃ s hub l, Pre.i3cPrivateWrite s hub l)
    ∧ (∃ s hub o, Pre.i3cPrivateRead s hub o)
    ∧ (∃ s hub, Pre.mailboxPoll s hub)
    ∧ (∃ s hub, Pre.mailboxBadCrc s hub)
    ∧ (∃ s v, Pre.hubAdminAttach s v)
    ∧ (∃ s n r, Pre.adminAttachDone s n r)
    ∧ (∃ s v r, Pre.adminBase s v r)
    ∧ (∃ s, Pre.jtagTap s)
    ∧ (∃ s : State, Pre.jtagIdcode s)
    ∧ (∃ s : State, Pre.jtagDark s) :=
  ⟨(⟨up, 3, [0x14, 0, 1, 0, 0, 0], by decide⟩),
   (⟨{ up with regs := { up.regs with hubs := Vector.replicate 4 { HubRegs.reset with i3cOffset := some 0xFFFC } } }, 3, 0xFFFC, by decide⟩),
   (⟨posted, 3, by decide +kernel⟩),
   (⟨boxed, 3, by decide +kernel⟩),
   (⟨up, 0xA7C40001, by decide⟩),
   (⟨attaching, 1, { ringAt 0 0 0x1000000 with cqTail := 256 }, by decide +kernel⟩),
   (⟨up, 0xA7C40001, ringAt 0 0 0x1000000, by decide⟩),
   (⟨{ up with start := { up.start with pins := { up.start.pins with pgood := true } } }, rfl⟩),
   (⟨{ up with start := { up.start with pins := { up.start.pins with pgood := true } },
               regs := { up.regs with taps := Vector.replicate 4 { ir := 1, boundary := [] } } }, by decide⟩),
   (⟨{ up with start := { up.start with pins := { up.start.pins with pgood := false } } }, rfl⟩)⟩

/-! ### A command that is not well formed, for each check -/

theorem wf_pnWr : Instr.wf (.pnWr 31 (pn 0)) = false := by decide
theorem wf_pnRdData_block : Instr.wf (.pnRdData 31 { reply with block := true }) = false := by decide
theorem wf_pnRdData : Instr.wf (.pnRdData 31 { reply with data := [0] }) = false := by decide
theorem wf_paceWindowEnd : Instr.wf (.paceWindowEnd []) = false := by decide
theorem wf_align : Instr.wf (.align [0, 1, 2] []) = false := by decide
theorem wf_telemetrySnapshot : Instr.wf (.telemetrySnapshot 3
    { hottest := 0, sensors := [], supplies := [], meanPower := 0, poolReceived := 0, poolLent := 0, stackTemps := [0, 0], laneErrors := [] })
    = false := by decide
theorem wf_remoteSignal : Instr.wf (.remoteSignal 31 0 0 (List.replicate 33 0)) = false := by decide
theorem wf_i3cPrivateWrite : Instr.wf (.i3cPrivateWrite 3 (List.replicate 35 0)) = false := by decide
theorem wf_courseCompress : Instr.wf (.courseCompress 3 17 3) = false := by decide
theorem wf_whole : Instr.wf (.remoteSignal 31 0 0 (List.replicate 32 0)) = true ∧ Instr.wf (.courseCompress 3 17 2) = true := by decide

/-! ### Small checks by hand calculation from the manual -/

/-- The check values of the nine digits and of no bytes, as chapter 05 gives them. -/
theorem test_crc_digits : crc32c [0x31, 0x32, 0x33, 0x34, 0x35, 0x36, 0x37, 0x38, 0x39] = 0xE3069283 ∧ crc32c [] = 0 := by decide +kernel

/-- 1.5 in BF16 and FP16; a half between two BF16 values goes to the even one (R91). -/
theorem test_bf16 : (roundVal fmtBF16 (decodeFloat fmtFP32 0x3FC00000) none).bits = 0x3FC0
    ∧ (roundVal fmtBF16 (decodeFloat fmtFP32 0x3F808000) none).bits = 0x3F80
    ∧ (roundVal fmtBF16 (decodeFloat fmtFP32 0x3F818000) none).bits = 0x3F82 := by decide +kernel
theorem test_fp16 : (roundVal fmtFP16 (decodeFloat fmtFP32 0x3FC00000) none).bits = 0x3E00 := by decide +kernel

/-- 1 + 2 = 3 and 1.5 × 2 = 3 in FP32. -/
theorem test_add_mul : (roundVal fmtFP32 (vAdd (decodeFloat fmtFP32 0x3F800000) (decodeFloat fmtFP32 0x40000000)) none).bits = 0x40400000
    ∧ (roundVal fmtFP32 (vMul (decodeFloat fmtFP32 0x3FC00000) (decodeFloat fmtFP32 0x40000000)) none).bits = 0x40400000 := by decide +kernel

/-- The widest float formats of one byte (Table 4-1): 448, 57,344 and 6. -/
theorem test_max_finite : maxFinite fmtE4M3 = 0x7E ∧ maxFinite fmtE5M2 = 0x7B ∧ maxFinite fmtE2M1 = 7 := by decide

/-- The quotient of 1 and 3, and the square root of 4, in FP32. -/
theorem test_div_sqrt : (roundVal fmtFP32 (div32 (decodeFloat fmtFP32 0x3F800000) (decodeFloat fmtFP32 0x40400000)) none).bits = 0x3EAAAAAB
    ∧ (roundVal fmtFP32 (sqrt32 (decodeFloat fmtFP32 0x40800000)) none).bits = 0x40000000 := by decide +kernel

/-- A range of zeros adds nothing to a digest but its positions; a row of 32 BF16 elements is 64 bytes. -/
theorem test_row_bytes : rowBytes 2 32 = some 64 ∧ rowBytes 1 32 = some 128 := by decide

/-- A NOP on ring 1 completes: its entry is at the queue's head, with phase and status. -/
theorem test_nop : (match step { up with pending := [.nop (cmd 1 [])] } with
    | .next t => decide (t.pending = []) && ((t.ring? 1).map (fun r => r.cqTail)) == some 1
    | _ => false) = true := by decide +kernel

/-- A job ring may not send SLOT_QUERY: it completes OPCODE_NOT_HERE (0x04). -/
theorem test_admin_only : descCheck 0 (cmdX 1 []) slotQuerySpec = some 0x04 := by decide

/-- FREE takes the handle to FREEING, which ends later. -/
theorem test_free : (match exec (.free (cmd 1 [(127, 64, word7)])) (withHandle handle) with
    | .next t => decide (t.hs.list.map Handle.state = [.freeing])
    | _ => false) = true := by decide +kernel

/-- REG_SCRATCH keeps what the I3C path writes to it, least significant byte first. -/
theorem test_scratch : (match exec (.i3cPrivateWrite 3 [0x14, 0, 4, 3, 2, 1]) up with
    | .next t => decide (t.regs.hubs[3].scratch = 0x01020304)
    | _ => false) = true := by decide +kernel

/-- No word spells a command: the table gives no row bits. -/
theorem test_decode : decodeTableWord 64 0 = none := by decide

end Sys2Proof.Tests
end

section
/-!
PROOF. What every step keeps: the statements of the scope. For each operation of the machine one lemma says that it
`Keeps` what no operation undoes; a command keeps what the operations it calls keep, and a step what its command keeps.
The lemmas stand in the order of the model's files. Each proof follows its definition: `ite_keeps` and `split` for the
branches, `foldl_keeps` for a fold, `h.of` for a state of which other parts are replaced, and a `have` for each state
that a `let` of the definition names.
-/
namespace Sys2Proof.Machine

variable {a s : State}

/-! ### Choices, pairs and folds -/

theorem ite_exKeeps {x y : Except (BitVec 8) State} {c : Prop} [Decidable c] (hx : ExKeeps a x) (hy : ExKeeps a y) :
    ExKeeps a (if c then x else y) := by
  split <;> assumption

theorem ite_keeps_fst {β : Type} {x y : State × β} {c : Prop} [Decidable c] (hx : Keeps a x.1) (hy : Keeps a y.1) :
    Keeps a (if c then x else y).1 := by
  split <;> assumption

theorem ite_keeps_snd {β : Type} {x y : β × State} {c : Prop} [Decidable c] (hx : Keeps a x.2) (hy : Keeps a y.2) :
    Keeps a (if c then x else y).2 := by
  split <;> assumption

theorem ite_keeps_snd2 {β γ : Type} {x y : β × γ × State} {c : Prop} [Decidable c] (hx : Keeps a x.2.2)
    (hy : Keeps a y.2.2) : Keeps a (if c then x else y).2.2 := by
  split <;> assumption

/-- The state of a pair that has been taken apart, first or last in it. -/
theorem Keeps.of_fst {β : Type} {p : State × β} {x : β} (e : p = (s, x)) (h : Keeps a p.1) : Keeps a s := by
  rwa [e] at h
theorem Keeps.of_snd {β : Type} {p : β × State} {x : β} (e : p = (x, s)) (h : Keeps a p.2) : Keeps a s := by
  rwa [e] at h
theorem Keeps.of_snd2 {β γ : Type} {p : β × γ × State} {x : β} {y : γ} (e : p = (x, y, s)) (h : Keeps a p.2.2) :
    Keeps a s := by
  rwa [e] at h

/-- The state that an operation answered. -/
theorem ExKeeps.of_eq {x : Except (BitVec 8) State} (e : x = .ok s) (h : ExKeeps a x) : Keeps a s := by
  rwa [e] at h
theorem OptKeeps.of_eq {x : Option State} (e : x = .some s) (h : OptKeeps a x) : Keeps a s := by
  rwa [e] at h
theorem OutKeeps.of_eq {x : Out} (e : x = .next s) (h : OutKeeps a x) : Keeps a s := by
  rwa [e] at h

theorem OptKeeps.getD {x : Option State} (h : OptKeeps a x) (k : Keeps a s) : Keeps a (x.getD s) := by
  cases x with
  | none => exact k
  | some u => exact h

theorem OptKeeps.map {β : Type} {o : Option β} {f : β → State} (h : ∀ x, Keeps a (f x)) :
    OptKeeps a (o.map f) := by
  cases o with
  | none => trivial
  | some x => exact h x

/-- A fold that goes on while its steps succeed: a refusal stands from where it falls. -/
theorem foldl_exKeeps {β : Type} {f : Except (BitVec 8) State → β → Except (BitVec 8) State} {l : List β}
    {x : Except (BitVec 8) State} (hf : ∀ u b, Keeps a u → ExKeeps a (f (.ok u) b))
    (he : ∀ e b, f (.error e) b = .error e) (h : ExKeeps a x) : ExKeeps a (l.foldl f x) := by
  induction l generalizing x with
  | nil => exact h
  | cons b l ih =>
    refine ih ?_
    cases x with
    | error e => rw [he]; trivial
    | ok u => exact hf u b h

theorem foldl_optKeeps {β : Type} {f : Option State → β → Option State} {l : List β} {x : Option State}
    (hf : ∀ u b, Keeps a u → OptKeeps a (f (some u) b)) (hn : ∀ b, f none b = none) (h : OptKeeps a x) :
    OptKeeps a (l.foldl f x) := by
  induction l generalizing x with
  | nil => exact h
  | cons b l ih =>
    refine ih ?_
    cases x with
    | none => rw [hn]; trivial
    | some u => exact hf u b h

/-! ### Host memory, free values and the fuses -/

/-- Poison marks set or cleared over a range of host memory. -/
theorem putMarks_keeps {addr n : Nat} {v : Bool} (h : Keeps a s) :
    Keeps a { s with host := { s.host with poison := putMarks s.host.poison addr n v } } :=
  Keeps.withHost (b := s) h fun w => ⟨w.1, putMarks_wf w.2⟩

/-- Bytes of host memory written one by one, each with its poison mark. -/
theorem putMarkedBytes_keeps {ws : List (Nat × Byte × Bool)} (h : Keeps a s) :
    Keeps a { s with host := { mem := ws.foldl (fun m w => tabPut 0 m w.1 w.2.1) s.host.mem,
                               poison := ws.foldl (fun m w => tabPut false m w.1 w.2.2) s.host.poison } } :=
  Keeps.withHost (b := s) h fun w =>
    ⟨foldl_wf (fun _ _ => tabPut_wf) ws w.1, foldl_wf (fun _ _ => tabPut_wf) ws w.2⟩

theorem freeCount_keeps (h : Keeps a s) : Keeps a { s with freeCount := s.freeCount + 1 } := fresh_keeps (w := 0) h

/-- Two states of firmware with the same fuses. -/
def SameFuses (x y : Firmware) : Prop := x.svnFuse = y.svnFuse ∧ x.packFuse = y.packFuse ∧ x.revoked = y.revoked

theorem SameFuses.refl (x : Firmware) : SameFuses x x := ⟨rfl, rfl, rfl⟩

theorem SameFuses.setSlot {x y : Firmware} {i : Nat} {w : FwSlot} (e : SameFuses x y) :
    SameFuses (x.setSlot i w) y := by
  unfold Firmware.setSlot
  split <;> exact e

theorem Keeps.setFw {fw : Firmware} (h : Keeps a s) (e : SameFuses fw s.fw) : Keeps a { s with fw := fw } :=
  h.withFw e.1 e.2.1 e.2.2

/-! ### Units replaced (Machine/Ops.lean) -/

theorem setLink_keeps {l : LinkNo} {k : Link} (h : Keeps a s) : Keeps a (s.setLink l k) := h.of

theorem setMovers_keeps {hub : Hub} {m : Movers} (h : Keeps a s) : Keeps a (s.setMovers hub m) := h.of

theorem setHealth_keeps {hub : Hub} {x : HubHealth} (h : Keeps a s) : Keeps a (s.setHealth hub x) := h.of

theorem setPower_keeps {hub : Hub} {x : HubPower} (h : Keeps a s) : Keeps a (s.setPower hub x) := h.of

theorem setRegs_keeps {hub : Hub} {x : HubRegs} (h : Keeps a s) : Keeps a (s.setRegs hub x) := h.of

theorem setBar_keeps {b : Fin 8} {x : BarSlot} (h : Keeps a s) : Keeps a (s.setBar b x) := h.of

theorem dropHandle_keeps {k : HKey} (h : Keeps a s) : Keeps a (s.dropHandle k) := h.of

/-! ### NOP (Machine/Basic.lean) -/

theorem execNop_keeps {d : Desc} (h : Keeps a s) : OutKeeps a (execNop d s) :=
  withDesc_keeps h (fun _ _ k1 => complete_keeps k1)

/-! ### Links, bundles and peers (Machine/LinkOps.lean) -/

theorem setPeer_keeps {p : Peer} (h : Keeps a s) : Keeps a (s.setPeer p) := h.of

theorem peerUp_keeps {pkg : BitVec 64} (h : Keeps a s) : Keeps a (s.peerUp pkg) := by
  unfold State.peerUp
  split
  · exact h
  · exact ite_keeps (ite_keeps h (setPeer_keeps h.of)) (setPeer_keeps h)

theorem linkState_keeps {l : LinkNo} {st : LState} (h : Keeps a s) : Keeps a (s.linkState l st) := by
  unfold State.linkState
  extract_lets _ s1 s2
  have k1 : Keeps a s1 := setLink_keeps h
  have k2 : Keeps a s2 := event_keeps k1
  split
  · exact peerUp_keeps k2
  · exact k2

theorem sendMsg_keeps {l : LinkNo} {m : LMsg} (h : Keeps a s) : Keeps a (s.sendMsg l m) := setLink_keeps h

theorem sendHello_keeps {l : LinkNo} (h : Keeps a s) : Keeps a (s.sendHello l) := sendMsg_keeps h

theorem linkHello_keeps {l : LinkNo} (h : Keeps a s) : Keeps a (s.linkHello l) :=
  sendHello_keeps (linkState_keeps (setLink_keeps h))

theorem linkTrain_keeps {l : LinkNo} (h : Keeps a s) : Keeps a (s.linkTrain l) := linkState_keeps (setLink_keeps h)

theorem linkRetrainNow_keeps {l : LinkNo} {cause : Nat} (h : Keeps a s) : Keeps a (s.linkRetrainNow l cause) :=
  linkState_keeps (event_keeps (setLink_keeps h))

theorem raiseSignals_keeps (h : Keeps a s) : Keeps a s.raiseSignals := by
  unfold State.raiseSignals
  refine foldl_keeps (fun _ _ k1 => ite_keeps ?_ k1) h
  extract_lets _ s1
  have k2 : Keeps a s1 := k1.of
  exact ite_keeps k2 (raiseHost_keeps k2.of)

theorem leaveSession_keeps {l : LinkNo} (h : Keeps a s) : Keeps a (s.leaveSession l) := h.of

/-! ### Groups (Machine/GroupOps.lean) -/

theorem sendPkg_keeps {pkg : BitVec 64} {i : Nat} {m : LMsg} (h : Keeps a s) : Keeps a (s.sendPkg pkg i m) := by
  unfold State.sendPkg
  extract_lets
  split
  · exact sendMsg_keeps h
  · exact h

theorem sendAbort_keeps {g : Group} {seq : BitVec 32} {reason : Nat} (h : Keeps a s) :
    Keeps a (s.sendAbort g seq reason) :=
  foldl_keeps (fun _ _ k1 => sendPkg_keeps k1) h

theorem freePending_keeps {k : HKey} (h : Keeps a s) : Keeps a (s.freePending k) := h.of

theorem barFault_keeps {b : Fin 8} {cause : BitVec 2} (h : Keeps a s) : Keeps a (s.barFault b cause) :=
  event_keeps (setBar_keeps h)

theorem barsBroken_keeps {slot : Nat} (h : Keeps a s) : Keeps a (s.barsBroken slot) :=
  foldl_keeps (fun _ _ k1 => ite_keeps (barFault_keeps k1) k1) h

/-! ### Placement in the tiers (Machine/Place.lean) -/

theorem setUnit_keeps {u : TierUnit} {st : UnitState} (h : Keeps a s) : Keeps a (s.setUnit u st) := by
  unfold State.setUnit
  extract_lets _ _ s1
  have k1 : Keeps a s1 := by
    unfold s1
    split
    · exact h.of
    · exact h.of
    · split
      · exact setPeer_keeps h
      · exact h
  exact event_keeps k1

theorem placed_keeps {ctx : Nat} {p : Placing} (h : Keeps a s) : Keeps a (s.placed ctx p) := by
  unfold State.placed
  extract_lets _ s1
  have k1 : Keeps a s1 := h.of
  split
  · exact setCtx_keeps k1
  · exact k1

theorem returnCharges_keeps {x : Handle} (h : Keeps a s) : Keeps a (s.returnCharges x) :=
  charge_keeps (charge_keeps (charge_keeps h))

theorem checkShrunk_keeps {tier before : Nat} {hub : Hub} (h : Keeps a s) :
    Keeps a (s.checkShrunk tier before hub) :=
  ite_keeps (ite_keeps (post_keeps (fresh_keeps (w := 64) (event_keeps h))) (fresh_keeps (w := 64)
    (event_keeps h))) h

/-! ### Work for codec lanes (Machine/LaneOps.lean) -/

theorem nextLaneRequest_keeps (h : Keeps a s) : Keeps a (s.nextLaneRequest).2 := h.of

theorem addJobs_keeps {js : List LaneJob} (h : Keeps a s) : Keeps a (s.addJobs js) := h.of

theorem dropJobs_keeps {p : LaneJob → Bool} (h : Keeps a s) : Keeps a (s.dropJobs p) := h.of

theorem dropLaneWork_keeps {k : HKey} (h : Keeps a s) : Keeps a (s.dropLaneWork k) := by
  unfold State.dropLaneWork
  extract_lets s1
  have k1 : Keeps a s1 := dropJobs_keeps h
  exact k1.of

/-! ### Handles, fills and migrations that end (Machine/Handles.lean) -/

theorem register_keeps {d : Desc} {t : Ticket} (h : Keeps a s) : Keeps a (s.register d t) := by
  unfold State.register
  extract_lets
  split
  · exact complete_keeps h
  · split
    · exact complete_keeps h
    · extract_lets _ s1 _ _ _ _ _ s2
      have k1 : Keeps a s1 := ite_keeps (setCtx_keeps h) h
      have k2 : Keeps a s2 := k1.of
      exact ite_keeps (complete_keeps k1) (ite_keeps (complete_keeps k1) (ite_keeps (complete_keeps k1)
        (ite_keeps (complete_keeps k1) (ite_keeps (complete_keeps k1) (complete_keeps k2)))))

theorem execRegister_keeps {d : Desc} (h : Keeps a s) : OutKeeps a (execRegister d s) :=
  withDesc_keeps h (fun _ _ k1 => register_keeps k1)

theorem batchEnded_keeps {ctx b i : Nat} {st : BitVec 8} (h : Keeps a s) : Keeps a (s.batchEnded ctx b i st) := by
  unfold State.batchEnded
  split
  · split
    · exact setCtx_keeps h
    · exact h
  · exact h

theorem endWaiting_keeps {ws : List WaitingRestore} {st : BitVec 8} (h : Keeps a s) :
    Keeps a (s.endWaiting ws st) := by
  unfold State.endWaiting
  refine foldl_keeps (fun _ _ k1 => ?_) h
  split
  · exact batchEnded_keeps k1
  · exact complete_keeps k1

theorem dropRun_keeps {id : Nat} (h : Keeps a s) : Keeps a (s.dropRun id) := h.of

theorem unfill_keeps {x : Handle} (h : Keeps a s) : Keeps a (s.unfill x) :=
  setHandle_keeps (returnCharges_keeps (dropLaneWork_keeps h))

theorem settleLatent_keeps {k : HKey} (h : Keeps a s) : Keeps a (s.settleLatent k) := by
  unfold State.settleLatent
  split
  · exact ite_keeps (setHandle_keeps h) h
  · exact h

theorem failFill_keeps {x : Handle} {st : BitVec 8} (h : Keeps a s) : Keeps a (s.failFill x st) := by
  unfold State.failFill
  split
  · exact h
  · extract_lets _ _ s1 s2 s3
    have k1 : Keeps a s1 := by
      unfold s1
      split
      · exact dropRun_keeps h
      · exact h.of
      · exact h
    have k2 : Keeps a s2 := by
      refine foldl_keeps (fun _ _ k3 => ?_) k1
      split
      · exact unfill_keeps k3
      · exact k3
    have k4 : Keeps a s3 := complete_keeps k2
    exact endWaiting_keeps k4

theorem finishMig_keeps {x : Handle} {m : Mig} (h : Keeps a s) : Keeps a (s.finishMig x m) := by
  unfold State.finishMig
  extract_lets _ _ _ s1 _ _ _ s2
  have k1 : Keeps a s1 := foldl_keeps (fun _ _ k2 => charge_keeps k2) h
  have k3 : Keeps a s2 := setHandle_keeps k1
  split
  · exact ite_keeps (complete_keeps k3) (complete_keeps k3)
  · exact ite_keeps (event_keeps k3) k3

theorem stopMig_keeps {x : Handle} {m : Mig} {st : BitVec 8} (h : Keeps a s) : Keeps a (s.stopMig x m st) :=
  ite_keeps (finishMig_keeps (dropLaneWork_keeps h)) (setHandle_keeps (dropLaneWork_keeps h))

theorem freeHandle_keeps {x : Handle} (h : Keeps a s) : Keeps a (s.freeHandle x) := by
  unfold State.freeHandle
  extract_lets _ s1 s2 s3 s4
  have k1 : Keeps a s1 := failFill_keeps (freePending_keeps h)
  have k2 : Keeps a s2 := dropLaneWork_keeps k1
  have k3 : Keeps a s3 := foldl_keeps (fun _ _ k4 => dropRun_keeps k4) k2
  have k5 : Keeps a s4 := by
    unfold s4
    split
    · split
      · exact complete_keeps k3
      · exact k3
    · exact k1
  split
  · exact setHandle_keeps k5
  · exact k5

theorem execFree_keeps {d : Desc} (h : Keeps a s) : OutKeeps a (execFree d s) := by
  unfold execFree
  refine withDesc_keeps h (fun _ _ k1 => ?_)
  split
  · exact complete_keeps k1
  · exact complete_keeps (freeHandle_keeps k1)

theorem execFreeSet_keeps {d : Desc} (h : Keeps a s) : OutKeeps a (execFreeSet d s) :=
  withDesc_keeps h (fun _ _ k1 => complete_keeps (foldl_keeps (fun _ _ k2 => freeHandle_keeps k2) k1))

theorem execHandleFreed_keeps {k : HKey} (h : Keeps a s) : OutKeeps a (execHandleFreed k s) := by
  unfold execHandleFreed
  split
  · exact ite_outKeeps (dropHandle_keeps (returnCharges_keeps h)) h
  · exact h

theorem laneWork_keeps {x : Handle} {m : Mig} {k : Nat} (h : Keeps a s) : Keeps a (s.laneWork x m k) :=
  ite_keeps h (ite_keeps (addJobs_keeps (nextLaneRequest_keeps h)) (ite_keeps (addJobs_keeps (nextLaneRequest_keeps
    h)) (nextLaneRequest_keeps h)))

theorem startCopy_keeps {x : Handle} {m : Mig} {k : Nat} (h : Keeps a s) : Keeps a (s.startCopy x m k) := by
  unfold State.startCopy
  extract_lets p0 src got
  cases got with
  | none => exact ite_keeps (setHandle_keeps h) (stopMig_keeps h)
  | some p =>
    dsimp only
    split
    · exact laneWork_keeps (placed_keeps (setHandle_keeps h))
    · exact h

theorem startCopies_keeps {n : Nat} {key : HKey} (h : Keeps a s) : Keeps a (State.startCopies n key s) := by
  induction n generalizing s with
  | zero => exact h
  | succ n ih =>
    unfold State.startCopies
    split
    · split
      · split
        · exact ite_keeps (ih (startCopy_keeps h)) h
        · exact h
      · exact h
    · exact h

theorem pumpMigs_keeps (h : Keeps a s) : Keeps a s.pumpMigs := by
  unfold State.pumpMigs
  refine foldl_keeps (fun _ _ k1 => ?_) h
  extract_lets s1
  have k2 : Keeps a s1 := startCopies_keeps k1
  split
  · split
    · exact ite_keeps (finishMig_keeps k2) k2
    · exact k2
  · exact k2

/-! ### Delivery and the narrow stage (Machine/Deliver.lean) -/

theorem exhaust_keeps {k : HKey} {cause : Nat} (h : Keeps a s) : Keeps a (s.exhaust k cause) := by
  unfold State.exhaust
  refine ite_keeps ?_ h
  split
  · exact event_keeps (setCtx_keeps h)
  · exact h

theorem narrowFill_keeps {x : Handle} (h : Keeps a s) : Keeps a (s.narrowFill x).1 := by
  unfold State.narrowFill
  extract_lets
  exact foldl_keeps_fst (fun _ _ k1 => (by split; exact exhaust_keeps k1)) h

theorem hostPut_keeps {addr : Nat} {bytes : List Byte} (h : Keeps a s) : Keeps a (s.hostPut addr bytes) :=
  hostWrite_keeps h

theorem deliverStream_keeps {press : Bool} {fmt size off len dest : Nat} {c : Tab Byte} {poison : List Nat}
    (h : Keeps a s) : Keeps a (s.deliverStream press fmt size off len dest c poison) :=
  (foldl_keeps (fun _ _ k1 => hostPut_keeps k1) (hostPut_keeps (hostPut_keeps h))).of

theorem deliverBytes_keeps {glint press : Bool} {fmt size off len dest : Nat} {data : Tab Byte} {poison : List Nat}
    (h : Keeps a s) : Keeps a (s.deliverBytes glint press fmt size off len dest data poison) :=
  ite_keeps (deliverStream_keeps h) (hostDeliver_keeps h)

theorem deliver_keeps {x : Handle} {off len dest : Nat} {glint : Bool} (h : Keeps a s) :
    Keeps a (s.deliver x off len dest glint).1 := by
  unfold State.deliver
  extract_lets _ _ _ _ _ _ _ s1 _ s2
  have k1 : Keeps a s1 := ite_keeps h (deliverBytes_keeps h)
  have k2 : Keeps a s2 := by
    refine ite_keeps ?_ k1
    split
    · exact setHandle_keeps k1
    · exact k1
  exact k2

/-! ### Collectives (Machine/CollOps.lean) -/

theorem sendSlab_keeps {g : Group} {c : Coll} {kind rank j : Nat} {codes : List Nat} {poison : Bool}
    (h : Keeps a s) : Keeps a (s.sendSlab g c kind rank j codes poison) :=
  foldl_keeps (fun _ _ k1 => sendPkg_keeps k1) h

theorem setColl_keeps {slot : Nat} {c : Coll} (h : Keeps a s) : Keeps a (s.setColl slot c) := by
  unfold State.setColl
  split
  · exact setGroup_keeps h
  · exact h

theorem deliverSlab_keeps {c : Coll} {j : Nat} {codes : List Nat} {poison : Bool} (h : Keeps a s) :
    Keeps a (s.deliverSlab c j codes poison) :=
  ite_keeps h (ite_keeps (putMarks_keeps (hostWrite_keeps h)) (hostWrite_keeps h))

theorem slabDone_keeps {slot j : Nat} {c : Coll} {codes : List Nat} {poison : Bool} (h : Keeps a s) :
    Keeps a (s.slabDone slot c j codes poison) :=
  ite_keeps h (setColl_keeps (deliverSlab_keeps h))

theorem sendResult_keeps {g : Group} {c : Coll} {j : Nat} {codes : List Nat} {poison : Bool} (h : Keeps a s) :
    Keeps a (s.sendResult g c j codes poison) := by
  unfold State.sendResult
  extract_lets
  split
  exact slabDone_keeps (ite_keeps (foldl_keeps (fun _ _ k1 => sendSlab_keeps k1) h) h)

theorem total_keeps {g : Group} {c : Coll} {j : Nat} (h : Keeps a s) : Keeps a (s.total g c j) := by
  unfold State.total
  extract_lets
  refine ite_keeps h ?_
  split
  · exact h
  · exact sendResult_keeps (setColl_keeps h)

theorem partial_keeps {g : Group} {c : Coll} {j : Nat} (h : Keeps a s) : Keeps a (s.partial_ g c j).1 := by
  unfold State.partial_
  extract_lets
  split
  refine ite_keeps_fst h ?_
  split
  · exact h
  · exact ite_keeps (setColl_keeps (fresh_keeps (w := 32768) h)) (sendSlab_keeps (setColl_keeps
      (fresh_keeps (w := 32768) h)))

theorem advance_keeps {slot j : Nat} {seq : BitVec 32} (h : Keeps a s) : Keeps a (s.advance slot seq j) := by
  unfold State.advance
  split
  · split
    · exact ite_keeps (total_keeps (partial_keeps h)) h
    · exact h
  · exact h

theorem endReads_keeps {c : Coll} (h : Keeps a s) : Keeps a (s.endReads c) := by
  unfold State.endReads
  refine foldl_keeps (fun _ _ k1 => ?_) h
  split
  · exact setHandle_keeps k1
  · exact k1

theorem dropColl_keeps {slot : Nat} {seq : BitVec 32} (h : Keeps a s) : Keeps a (s.dropColl slot seq) := by
  unfold State.dropColl
  split
  · exact setGroup_keeps h
  · exact h

theorem leave_keeps {slot : Nat} {p : PendUpdate} (h : Keeps a s) : Keeps a (s.leave slot p) := by
  unfold State.leave
  split
  · exact setGroup_keeps h
  · exact h

theorem failColl_keeps {slot : Nat} {c : Coll} {st : BitVec 8} (h : Keeps a s) : Keeps a (s.failColl slot c st) :=
  complete_keeps (ite_keeps (leave_keeps (dropColl_keeps (ite_keeps h (endReads_keeps h)))) (dropColl_keeps
    (ite_keeps h (endReads_keeps h))))

theorem endUpdate_keeps {g : Group} {c : Coll} (h : Keeps a s) : Keeps a (s.endUpdate g c) :=
  completeVia_keeps (leave_keeps (dropColl_keeps (ite_keeps
    (foldl_keeps (fun _ _ k => putMarks_keeps k) (ite_keeps h (hostDeliver_keeps h)))
    (ite_keeps h (hostDeliver_keeps h)))))

theorem endColl_keeps {slot : Nat} {seq : BitVec 32} (h : Keeps a s) : Keeps a (s.endColl slot seq) := by
  unfold State.endColl
  split
  · exact h
  · split
    · exact h
    · exact ite_keeps h (ite_keeps (endUpdate_keeps h) (completeVia_keeps (dropColl_keeps h)))

theorem breakGroup_keeps {slot : Nat} (h : Keeps a s) : Keeps a (s.breakGroup slot) := by
  unfold State.breakGroup
  split
  · exact h
  · exact ite_keeps h (barsBroken_keeps (sendAbort_keeps (foldl_keeps (fun _ _ k1 => failColl_keeps k1)
      (setGroup_keeps h))))

theorem land4_keeps {slot entry off : Nat} {c : Coll} {bytes : List Byte} {poison : Bool} (h : Keeps a s) :
    Keeps a (s.land4 slot c entry off bytes poison) := by
  unfold State.land4
  split
  · exact h
  · refine ite_keeps h (setColl_keeps ?_)
    split
    · exact setHandle_keeps h
    · exact h

theorem sendRecord_keeps {g : Group} {c : Coll} {kind : Nat} {r : SealRecord} {ranks : List Nat} (h : Keeps a s) :
    Keeps a (s.sendRecord g c kind r ranks) :=
  foldl_keeps (fun _ _ k1 => sendPkg_keeps k1) h

theorem permuteStep_keeps {slot : Nat} {seq : BitVec 32} (h : Keeps a s) : Keeps a (s.permuteStep slot seq) := by
  unfold State.permuteStep
  split
  · exact h
  · split
    · exact h
    · extract_lets _ _ s1 _ _ s2
      have k1 : Keeps a s1 := ite_keeps h (sendRecord_keeps h)
      have k2 : Keeps a s2 := by
        refine foldl_keeps (fun _ _ k3 => ?_) k1
        split
        · exact setHandle_keeps k3
        · exact k3
      exact ite_keeps h (ite_keeps (setColl_keeps k1) (complete_keeps (dropColl_keeps k2)))

theorem sendMoves_keeps {g : Group} {c : Coll} (h : Keeps a s) : Keeps a (s.sendMoves g c) := by
  unfold State.sendMoves
  refine foldl_keeps (fun _ _ k1 => foldl_keeps (fun _ _ k2 => ite_keeps ?_ (sendPkg_keeps k2)) k1) h
  split
  · exact land4_keeps k2
  · exact k2

theorem abortColl_keeps {slot : Nat} {seq : BitVec 32} {reason : BitVec 8} (h : Keeps a s) :
    Keeps a (s.abortColl slot seq reason) := by
  unfold State.abortColl
  split
  · exact h
  · refine ite_keeps h (sendAbort_keeps ?_)
    split
    · exact failColl_keeps (setGroup_keeps h)
    · exact setGroup_keeps h

theorem collData_keeps {g : Group} {c : Coll} {rank : Nat} {m : CollMsg} (h : Keeps a s) :
    Keeps a (s.collData g c rank m) := by
  unfold State.collData
  extract_lets _ _ _ _ _ _ _ _ s1
  have k1 : Keeps a s1 := setColl_keeps h
  refine ite_keeps (ite_keeps h ?_) (ite_keeps h (ite_keeps (endColl_keeps (advance_keeps (setColl_keeps h))) ?_))
  · split
    · exact h
    · exact ite_keeps (permuteStep_keeps (land4_keeps h)) (sendPkg_keeps h)
  · split
    extract_lets _ s2
    have k2 : Keeps a s2 := ite_keeps (foldl_keeps (fun _ _ k3 => sendPkg_keeps k3) k1) k1
    split
    · exact endColl_keeps (slabDone_keeps k2)
    · exact k2

theorem collRecord_keeps {g : Group} {c : Coll} {rank : Nat} {m : CollMsg} {r : SealRecord} (h : Keeps a s) :
    Keeps a (s.collRecord g c rank m r) :=
  ite_keeps (permuteStep_keeps (setColl_keeps (ite_keeps (sendRecord_keeps h) h))) (setColl_keeps
    (ite_keeps (sendRecord_keeps h) h))

theorem collTake_keeps {slot : Nat} {e : EarlyMsg} (h : Keeps a s) : Keeps a (s.collTake slot e) := by
  unfold State.collTake
  split
  · exact h
  · split
    · refine ite_keeps (setGroup_keeps h) (ite_keeps (abortColl_keeps h) ?_)
      split
      · exact collRecord_keeps h
      · exact collData_keeps h
    · exact ite_keeps h (setGroup_keeps h)

theorem startSlabs_keeps {g : Group} {c : Coll} (h : Keeps a s) : Keeps a (s.startSlabs g c) := by
  unfold State.startSlabs
  extract_lets
  split
  rename_i e1
  have k1 := Keeps.of_snd e1 (fresh_keeps (w := 32) h)
  extract_lets s1 _ s2 _ s3 s4
  have k2 : Keeps a s1 := endReads_keeps k1
  have k3 : Keeps a s2 := setColl_keeps k2
  have k4 : Keeps a s3 := setColl_keeps k2
  have k5 : Keeps a s4 := foldl_keeps (fun _ _ k6 => sendSlab_keeps k6) k4
  refine ite_keeps (foldl_keeps (fun _ _ k7 => ?_) k3) (foldl_keeps (fun _ _ k8 => advance_keeps k8) k5)
  split
  · exact sendResult_keeps k7
  · exact k7

theorem reservePending_keeps {g : Group} {c : Coll} (h : Keeps a s) : OptKeeps a (s.reservePending g c) := by
  refine foldl_optKeeps (fun u k0 k => ?_) (fun _ => rfl) (leave_keeps h)
  dsimp only [Option.bind]
  split
  · exact k
  · refine OptKeeps.map fun p => ?_
    split
    · exact setGroup_keeps k.of
    · exact k.of

theorem startPermute_keeps {g : Group} {c : Coll} (h : Keeps a s) : Keeps a (s.startPermute g c) := by
  unfold State.startPermute
  extract_lets _ _ _ _ s1
  have k1 : Keeps a s1 := setColl_keeps (endReads_keeps h)
  split
  · exact abortColl_keeps (failColl_keeps k1)
  · exact permuteStep_keeps (sendMoves_keeps k1)

theorem startSeal_keeps {g : Group} {c : Coll} (h : Keeps a s) : Keeps a (s.startSeal g c) :=
  sendRecord_keeps (setColl_keeps h)

theorem startColl_keeps {g : Group} {c : Coll} (h : Keeps a s) : Keeps a (s.startColl g c) := by
  unfold State.startColl
  extract_lets s1 s2 s3 _ s4 s5
  have k1 : Keeps a s1 := setGroup_keeps h
  have k2 : Keeps a s2 := setColl_keeps k1
  have k3 : Keeps a s3 := by
    refine ite_keeps (startSeal_keeps k2) (ite_keeps (ite_keeps (startPermute_keeps k2) (failColl_keeps k2))
      (ite_keeps ?_ (startSlabs_keeps k2)))
    split
    · rename_i e1
      have k4 := OptKeeps.of_eq e1 (reservePending_keeps k2)
      exact startSlabs_keeps k4
    · exact failColl_keeps k2
  have k5 : Keeps a s4 := by
    unfold s4
    split
    · exact setGroup_keeps k3
    · exact k3
  have k6 : Keeps a s5 := foldl_keeps (fun _ _ k7 => collTake_keeps k7) k5
  exact endColl_keeps k6

theorem pumpCollsN_keeps {n slot : Nat} (h : Keeps a s) : Keeps a (State.pumpCollsN n slot s) := by
  induction n generalizing s with
  | zero => exact h
  | succ n ih =>
    unfold State.pumpCollsN
    split
    · split
      · exact ih (startColl_keeps h)
      · exact h
    · exact h

theorem pumpColls_keeps {slot : Nat} (h : Keeps a s) : Keeps a (s.pumpColls slot) :=
  ite_keeps h (pumpCollsN_keeps h)

theorem endForming_keeps {g : Group} {st : BitVec 8} (h : Keeps a s) : Keeps a (s.endForming g st) := by
  unfold State.endForming
  extract_lets s1 s2
  have k1 : Keeps a s1 := foldl_keeps (fun _ _ k2 => failColl_keeps k2) h
  have k3 : Keeps a s2 := k1.of
  split
  · exact complete_keeps k3
  · exact k3

theorem sendForms_keeps {g : Group} (h : Keeps a s) : Keeps a (s.sendForms g) :=
  setGroup_keeps (foldl_keeps (fun _ _ k1 => sendPkg_keeps k1) (foldl_keeps (fun _ _ k2 => sendPkg_keeps k2) h))

theorem pumpForm_keeps {slot : Nat} (h : Keeps a s) : Keeps a (s.pumpForm slot) := by
  unfold State.pumpForm
  split
  · exact h
  · refine ite_keeps h (ite_keeps (endForming_keeps h) (ite_keeps (endForming_keeps h) (ite_keeps (sendForms_keeps
      h) ?_)))
    extract_lets
    split
    · exact sendForms_keeps h
    · extract_lets s1 s2
      have k1 : Keeps a s1 := setGroup_keeps (sendForms_keeps h)
      have k2 : Keeps a s2 := by
        unfold s2
        split
        · exact complete_keeps k1
        · exact k1
      exact pumpColls_keeps k2

theorem pumpForms_keeps (h : Keeps a s) : Keeps a s.pumpForms := foldl_keeps (fun _ _ k1 => pumpForm_keeps k1) h

/-! ### Power, domains and pace windows (Machine/Power.lean) -/

theorem touch_keeps {hub : Hub} {d : Nat} (h : Keeps a s) : Keeps a (s.touch hub d) := setPower_keeps h

theorem execRetainEntry_keeps {hub : Hub} {d : Fin 10} (h : Keeps a s) : OutKeeps a (execRetainEntry hub d s) := by
  unfold execRetainEntry
  extract_lets _ _ _ s1
  have k1 : Keeps a s1 := setPower_keeps h
  exact ite_outKeeps (ite_keeps k1.of k1) h

theorem execWakeRequest_keeps {hub : Hub} {d : Fin 10} (h : Keeps a s) : OutKeeps a (execWakeRequest hub d s) :=
  ite_outKeeps (ite_outKeeps (ite_outKeeps (setPower_keeps h) (setPower_keeps h)) (ite_outKeeps (setPower_keeps h)
    (setPower_keeps h))) (ite_outKeeps (setPower_keeps h) h)

theorem execRampDone_keeps {hub : Hub} {stackRail : Bool} (h : Keeps a s) :
    OutKeeps a (execRampDone hub stackRail s) := by
  unfold execRampDone
  extract_lets p q
  cases q with
  | nil => exact h
  | cons d rest => exact OutKeeps.next (setPower_keeps h)

theorem execDomainOn_keeps {hub : Hub} {d : Fin 10} (h : Keeps a s) : OutKeeps a (execDomainOn hub d s) := by
  unfold execDomainOn
  extract_lets _ s1
  have k1 : Keeps a s1 := setPower_keeps h
  exact ite_outKeeps (ite_keeps k1.of k1) h

theorem pwrModeWrite_keeps {v : BitVec 32} (h : Keeps a s) : Keeps a (s.pwrModeWrite v) := h.of

theorem pwrCapWrite_keeps {v : BitVec 32} (h : Keeps a s) : Keeps a (s.pwrCapWrite v) := h.of

theorem execPwrModeWrite_keeps {v : BitVec 32} (h : Keeps a s) : OutKeeps a (execPwrModeWrite v s) :=
  pwrModeWrite_keeps h

theorem execPwrCapWrite_keeps {v : BitVec 32} (h : Keeps a s) : OutKeeps a (execPwrCapWrite v s) :=
  pwrCapWrite_keeps h

/-! ### Quench, lost hubs and alignment (Machine/Quench.lean) -/

theorem setQuench_keeps {q : Quench} (h : Keeps a s) : Keeps a (s.setQuench q) := h.of

theorem linksQuenched_keeps (h : Keeps a s) : Keeps a s.linksQuenched :=
  foldl_keeps (fun _ _ k1 => linkState_keeps (leaveSession_keeps k1)) h

theorem quenchNow_keeps {c : QuenchCause} (h : Keeps a s) : Keeps a (s.quenchNow c) := by
  unfold State.quenchNow
  refine ite_keeps h ?_
  extract_lets _ _ s1 _ _ _ _ s2 _ _ s3 s4 s5 s6
  have k1 : Keeps a s1 := setQuench_keeps h
  have k2 : Keeps a s2 := k1.of
  have k3 : Keeps a s3 := ite_keeps k2.of k2
  have k4 : Keeps a s4 := linksQuenched_keeps k3
  have k5 : Keeps a s5 := alert_keeps k4
  have k6 : Keeps a s6 := ite_keeps (alert_keeps k5) k5
  exact notice_keeps (eventAll_keeps (interrupt_keeps k6))

theorem refreshClear_keeps (h : Keeps a s) : Keeps a s.refreshClear := ite_keeps (setQuench_keeps h) h

theorem execQuenchChannel_keeps {channelB high : Bool} (h : Keeps a s) :
    OutKeeps a (execQuenchChannel channelB high s) := by
  unfold execQuenchChannel
  extract_lets
  split
  · exact h
  · exact ite_outKeeps (setQuench_keeps h) (ite_outKeeps (refreshClear_keeps (setQuench_keeps h)) (ite_outKeeps
      (ite_outKeeps (quenchNow_keeps (setQuench_keeps h)) (setQuench_keeps h)) (ite_outKeeps
      (event_keeps (setQuench_keeps h)) (setQuench_keeps h))))

theorem execDiscrepancyExpiry_keeps (h : Keeps a s) : OutKeeps a (execDiscrepancyExpiry s) := by
  unfold execDiscrepancyExpiry
  extract_lets
  split
  · exact ite_outKeeps (quenchNow_keeps h) h
  · exact h

theorem execQuench_keeps {c : QuenchCause} (h : Keeps a s) : OutKeeps a (execQuench c s) := quenchNow_keeps h

theorem execClearReady_keeps (h : Keeps a s) : OutKeeps a (execClearReady s) := ite_outKeeps (setQuench_keeps h) h

theorem quenchClear_keeps (h : Keeps a s) : Keeps a s.quenchClear := by
  unfold State.quenchClear
  extract_lets _ s1 _ s2 _ _ _ s3
  have k1 : Keeps a s1 := setQuench_keeps h
  have k1 : Keeps a s2 := k1.of
  have k1 : Keeps a s3 := k1.of
  exact ite_keeps (notice_keeps k1) (setQuench_keeps h)

theorem execQuenchClear_keeps (h : Keeps a s) : OutKeeps a (execQuenchClear s) := quenchClear_keeps h

theorem loseHub_keeps {hub : Hub} (h : Keeps a s) : Keeps a (s.loseHub hub) := by
  unfold State.loseHub
  refine ite_keeps h ?_
  extract_lets _ s1 _ _ s2 _ _ _ s3 s4 s5 s6
  have k1 : Keeps a s1 := setHealth_keeps h
  have k2 : Keeps a s2 := k1.of
  have k3 : Keeps a s3 := k2.of
  have k4 : Keeps a s4 := foldl_keeps (fun _ _ k5 => ite_keeps (linkState_keeps (leaveSession_keeps k5)) k5) k3
  have k6 : Keeps a s5 := alert_keeps k4
  have k7 : Keeps a s6 := event_keeps k6
  exact cper_keeps k7

theorem execPllLockTimeout_keeps {hub : Hub} (h : Keeps a s) : OutKeeps a (execPllLockTimeout hub s) :=
  loseHub_keeps (event_keeps (setPower_keeps h))

theorem execTbclkLoss_keeps (h : Keeps a s) : OutKeeps a (execTbclkLoss s) := quenchNow_keeps h.of

theorem alignFail_keeps {bad : List Hub} {tries : Nat} (h : Keeps a s) : Keeps a (s.alignFail bad tries) :=
  alert_keeps (foldl_keeps (fun _ _ k1 => loseHub_keeps k1) (eventAll_keeps h))

theorem execAlign_keeps {positions : List (BitVec 2)} {latched : List Nat} (h : Keeps a s) :
    OutKeeps a (execAlign positions latched s) :=
  ite_outKeeps (alignFail_keeps h.of) (ite_outKeeps h.of (ite_outKeeps h.of (ite_outKeeps h.of (alignFail_keeps
    h.of))))

theorem hubWindow_keeps {samples : List HubSample} {al : List (List (Nat × Nat × Nat))} {wasPaced : Bool}
    {hub : Hub} (h : Keeps a s) : Keeps a (s.hubWindow samples al wasPaced hub) := by
  unfold State.hubWindow
  extract_lets
  split
  extract_lets s1 s2 s3
  have k1 : Keeps a s1 := setPower_keeps h
  have k2 : Keeps a s2 := ite_keeps (event_keeps k1) k1
  have k3 : Keeps a s3 := ite_keeps (alert_keeps (event_keeps k2)) k2
  exact ite_keeps (quenchNow_keeps k3) k3

theorem execPaceWindowEnd_keeps {samples : List HubSample} (h : Keeps a s) :
    OutKeeps a (execPaceWindowEnd samples s) := by
  unfold execPaceWindowEnd
  refine ite_outKeeps h ?_
  extract_lets _ _ _ _ _ _ _ s1 _ _ _ _ _ s2 s3 _ s4 _ s5
  have k1 : Keeps a s1 := foldl_keeps (fun _ _ k2 => hubWindow_keeps k2) h
  have k3 : Keeps a s2 := k1.of
  have k4 : Keeps a s3 := ite_keeps (eventAll_keeps k3) k3
  have k5 : Keeps a s4 := k4.of
  have k6 : Keeps a s5 := ite_keeps (notice_keeps (alert_keeps (event_keeps k5))) k4
  exact refreshClear_keeps k6

theorem execBudgetWithdraw_keeps {hub : Hub} {d : Fin 10} (h : Keeps a s) :
    OutKeeps a (execBudgetWithdraw hub d s) :=
  setPower_keeps h.of

/-! ### Spares, retirement and tests (Machine/Spares.lean) -/

theorem engineTake_keeps {hub : Hub} {e : Nat} (h : Keeps a s) : Keeps a (s.engineTake hub e) := by
  unfold State.engineTake
  extract_lets
  split
  · split
    · exact h.of
    · exact h
  · exact h

theorem engineSpareIn_keeps {hub : Hub} {e : Nat} (h : Keeps a s) : Keeps a (s.engineSpareIn hub e) :=
  ite_keeps (setHealth_keeps h.of) (setHealth_keeps h)

theorem laneTake_keeps {hub : Hub} {l : Fin 18} {retire : Bool} (h : Keeps a s) :
    Keeps a (s.laneTake hub l retire) :=
  h.of

theorem channelTake_keeps {hub : Hub} {ch : Nat} {retire : Bool} (h : Keeps a s) :
    Keeps a (s.channelTake hub ch retire) := by
  unfold State.channelTake
  extract_lets
  split
  · exact setMovers_keeps h
  · exact ite_keeps (setMovers_keeps h) h

theorem abandonWhere_keeps {hub : Hub} {p : BitVec 8 → Bool} (h : Keeps a s) : Keeps a (s.abandonWhere hub p) := by
  unfold State.abandonWhere
  extract_lets _ _ _ s1
  have k1 : Keeps a s1 := setSync_keeps h
  refine foldl_keeps (fun _ _ k2 => ?_) k1
  split
  · exact event_keeps k2
  · exact k2

theorem abandonAll_keeps {p : BitVec 8 → Bool} (h : Keeps a s) : Keeps a (s.abandonAll p) :=
  foldl_keeps (fun _ _ k1 => abandonWhere_keeps k1) h

theorem retireCore_keeps {hub : Hub} {c : Nat} (h : Keeps a s) : Keeps a (s.retireCore hub c) := by
  unfold State.retireCore
  extract_lets _ _ s1 _ _ s2 s3
  have k1 : Keeps a s1 := abandonAll_keeps h
  have k2 : Keeps a s2 := setHealth_keeps k1
  have k3 : Keeps a s3 := ite_keeps k2 (notice_keeps k2)
  exact ite_keeps h (ite_keeps (setHealth_keeps k1) (ite_keeps (loseHub_keeps k3) k3))

theorem substituted_keeps {u : UnitName} {left : Bool} (h : Keeps a s) : Keeps a (s.substituted u left) :=
  cper_keeps (event_keeps h)

theorem recordRetired_keeps {u : UnitName} (h : Keeps a s) : Keeps a (s.recordRetired u) :=
  cper_keeps (event_keeps (journal_keeps h.of))

theorem retireEngine_keeps {hub : Hub} {e : Nat} (h : Keeps a s) : Keeps a (s.retireEngine hub e) :=
  ite_keeps h (substituted_keeps (recordRetired_keeps (setHealth_keeps (engineTake_keeps (engineSpareIn_keeps h)))))

theorem retireLane_keeps {hub : Hub} {l : Fin 18} (h : Keeps a s) : Keeps a (s.retireLane hub l) :=
  ite_keeps h (substituted_keeps (recordRetired_keeps (laneTake_keeps h)))

theorem retireChannel_keeps {hub : Hub} {ch : Nat} (h : Keeps a s) : Keeps a (s.retireChannel hub ch) :=
  ite_keeps h (substituted_keeps (recordRetired_keeps (channelTake_keeps h)))

theorem quiesce_keeps {u : UnitName} (h : Keeps a s) : Keeps a (s.quiesce u) := by
  unfold State.quiesce
  extract_lets
  split
  · exact abandonAll_keeps h
  · exact engineTake_keeps (engineSpareIn_keeps h)
  · exact laneTake_keeps h
  · exact channelTake_keeps h
  · exact h

theorem finding_keeps {u : UnitName} {cls : Nat} (h : Keeps a s) : Keeps a (s.finding u cls) := h.of

theorem sendTest_keeps {u : UnitName} {cls : Nat} (h : Keeps a s) : Keeps a (s.sendTest u cls) := by
  unfold State.sendTest
  extract_lets _ s1 s2
  have k1 : Keeps a s1 := finding_keeps h
  have k2 : Keeps a s2 := quiesce_keeps k1
  exact ite_keeps k1 (by split; exact setHealth_keeps k2)

/-! ### Recipe runs (Machine/Runs.lean) -/

theorem addReaders_keeps {r : Run} {n : Int} (h : Keeps a s) : Keeps a (s.addReaders r n) := h.of

theorem setRun_keeps {r : Run} (h : Keeps a s) : Keeps a (s.setRun r) := h.of

theorem addRun_keeps {r : Run} (h : Keeps a s) : Keeps a (s.addRun r) := by
  unfold State.addRun
  extract_lets _ _ s1
  have k1 : Keeps a s1 := addReaders_keeps h
  exact k1.of

theorem regenerate_keeps {n prio : Nat} {x : Handle} {kind : RunKind} {ticket : Option Ticket}
    {w : Option WaitingRestore} (h : Keeps a s) : ExKeeps a (State.regenerate n s x kind ticket prio w) := by
  induction n generalizing s x kind ticket prio w with
  | zero => exact h
  | succ n ih =>
    unfold State.regenerate
    split
    · trivial
    · refine ite_exKeeps trivial (ite_exKeeps trivial (ite_exKeeps trivial (foldl_exKeeps ?_ (fun _ _ => rfl) ?_)))
      · intro u b k
        split
        · rename_i e _
          cases e
          exact ite_exKeeps (ih k) k
        · exact k
      · refine ExKeeps.ok ?_
        split
        · exact setHandle_keeps (addRun_keeps h)
        · exact addRun_keeps h

theorem setEngine_keeps {hub : Hub} {e : Nat} {g : Engine} (h : Keeps a s) : Keeps a (s.setEngine hub e g) := h.of

theorem startTile_keeps {hub : Hub} {e : Nat} {r : Run} {w : TileWait} (h : Keeps a s) :
    Keeps a (s.startTile hub e r w) :=
  setEngine_keeps h

theorem deal_keeps {hub : Hub} {l : List (Run × TileWait)} {free : List (Nat × Nat)} {turn : Nat} {f : Option Nat}
    (h : Keeps a s) : Keeps a (s.deal hub l free turn f).1 := by
  induction l generalizing s free turn f with
  | nil => exact h
  | cons x l ih =>
    unfold State.deal
    split
    · refine ih ?_
      split
      · exact setRun_keeps (startTile_keeps h)
      · exact startTile_keeps h
    · exact ih h

theorem execWaveStart_keeps {hub : Hub} (h : Keeps a s) : OutKeeps a (execWaveStart hub s) :=
  ite_outKeeps h ((deal_keeps h).of)

/-! ### Restores (Machine/Restores.lean) -/

theorem restoreEnded_keeps {k : HKey} {w : WaitingRestore} {ports : List Hub} {d : Done} (h : Keeps a s) :
    Keeps a (s.restoreEnded k w ports d) := by
  unfold State.restoreEnded
  extract_lets _ s1
  have k1 : Keeps a s1 := by
    unfold s1
    split
    · exact completeVia_keeps h
    · exact ite_keeps (batchEnded_keeps h) (behind_keeps h)
  refine ite_keeps ?_ k1
  split
  · exact ite_keeps k1 (freeHandle_keeps k1)
  · exact k1

theorem deliverRestore_keeps {x : Handle} {w : WaitingRestore} {retries : Nat} (h : Keeps a s) :
    Keeps a (s.deliverRestore x w retries) :=
  restoreEnded_keeps (deliver_keeps h)

theorem laneRestore_keeps {x : Handle} {w : WaitingRestore} (h : Keeps a s) : Keeps a (s.laneRestore x w) := by
  unfold State.laneRestore
  split
  rename_i e1
  have k1 := Keeps.of_snd e1 (nextLaneRequest_keeps h)
  extract_lets _ _ _ s1
  have k2 : Keeps a s1 := setHandle_keeps (addJobs_keeps k1)
  exact k2.of

theorem startRestore_keeps {x : Handle} {w : WaitingRestore} (h : Keeps a s) : Keeps a (s.startRestore x w) := by
  unfold State.startRestore
  refine ite_keeps ?_ (ite_keeps (laneRestore_keeps h) (deliverRestore_keeps h))
  split
  · rename_i e1
    have k1 := ExKeeps.of_eq e1 (regenerate_keeps h)
    exact k1
  · exact restoreEnded_keeps h

theorem runWaiting_keeps {k : HKey} (h : Keeps a s) : Keeps a (s.runWaiting k) := by
  unfold State.runWaiting
  split
  · extract_lets s1
    have k1 : Keeps a s1 := setHandle_keeps h
    refine foldl_keeps (fun _ _ k2 => ?_) k1
    split
    · exact startRestore_keeps k2
    · exact k2
  · exact h

theorem settleFill_keeps {x : Handle} (h : Keeps a s) : Keeps a (s.settleFill x) := by
  unfold State.settleFill
  split
  rename_i e
  refine setHandle_keeps (Keeps.of_fst e (ite_keeps_fst ?_ h))
  split
  rename_i e2
  exact Keeps.of_fst e2 (narrowFill_keeps h)

theorem endFill_keeps {x : Handle} {f : Fill} (h : Keeps a s) : Keeps a (s.endFill x f) := by
  unfold State.endFill
  extract_lets s1
  have k1 : Keeps a s1 := settleFill_keeps h
  split
  · exact runWaiting_keeps (complete_keeps k1)
  · exact k1

/-! ### The recipe ops (Machine/RunOps.lean) -/

theorem engineOp_keeps {hub : Hub} {e : EngNo} {w : BitVec 256} {code : Nat} {f : OpCtx → Engine → Engine}
    (h : Keeps a s) : OutKeeps a (s.engineOp hub e w code f) := by
  unfold State.engineOp
  split
  · exact setEngine_keeps h
  · exact h

theorem tileOp_keeps {hub : Hub} {e : EngNo} {w : BitVec 256} {code : Nat} {f : OpCtx → Engine → Engine × TileRun}
    (h : Keeps a s) : OutKeeps a (s.tileOp hub e w code f) := by
  unfold State.tileOp
  split
  · split
    exact setEngine_keeps h
  · exact h

theorem execOpConfig_keeps {hub : Hub} {e : EngNo} {op : BitVec 256} (h : Keeps a s) :
    OutKeeps a (execOpConfig hub e op s) :=
  engineOp_keeps h

theorem execOpLoop_keeps {hub : Hub} {e : EngNo} {op : BitVec 256} (h : Keeps a s) :
    OutKeeps a (execOpLoop hub e op s) := by
  unfold execOpLoop
  split
  · exact setEngine_keeps h
  · exact h

theorem execOpWait_keeps {hub : Hub} {e : EngNo} {op : BitVec 256} (h : Keeps a s) :
    OutKeeps a (execOpWait hub e op s) := by
  unfold execOpWait
  split
  · exact ite_outKeeps (setEngine_keeps h) (ite_outKeeps h (setEngine_keeps h))
  · exact h

theorem raiseEngine_keeps {hub : Hub} {e c : Nat} {n : BitVec 32} (h : Keeps a s) :
    Keeps a (s.raiseEngine hub e c n) :=
  setEngine_keeps h

theorem foreignCtr_keeps {hub : Hub} {c ctx : Nat} (h : Keeps a s) : Keeps a (s.foreignCtr hub c ctx) :=
  event_keeps (setSync_keeps h)

theorem execOpSignal_keeps {hub : Hub} {e : EngNo} {op : BitVec 256} (h : Keeps a s) :
    OutKeeps a (execOpSignal hub e op s) := by
  unfold execOpSignal
  split
  · extract_lets _ _ _ _ _ _ s1
    have k1 : Keeps a s1 := setEngine_keeps h
    exact ite_outKeeps (raiseEngine_keeps k1) (ite_outKeeps k1 (ite_outKeeps (raiseEngine_keeps k1) (ite_outKeeps
      k1 (ite_outKeeps (raiseHost_keeps k1) (foreignCtr_keeps k1)))))
  · exact h

theorem execOpLoad_keeps {hub : Hub} {e : EngNo} {op : BitVec 256} (h : Keeps a s) :
    OutKeeps a (execOpLoad hub e op s) :=
  tileOp_keeps h

theorem execOpStore_keeps {hub : Hub} {e : EngNo} {op : BitVec 256} (h : Keeps a s) :
    OutKeeps a (execOpStore hub e op s) :=
  tileOp_keeps h

theorem execOpLdls_keeps {hub : Hub} {e : EngNo} {op : BitVec 256} (h : Keeps a s) :
    OutKeeps a (execOpLdls hub e op s) :=
  engineOp_keeps h

theorem execOpStls_keeps {hub : Hub} {e : EngNo} {op : BitVec 256} (h : Keeps a s) :
    OutKeeps a (execOpStls hub e op s) :=
  engineOp_keeps h

theorem execOpLdrows_keeps {hub : Hub} {e : EngNo} {op : BitVec 256} (h : Keeps a s) :
    OutKeeps a (execOpLdrows hub e op s) :=
  tileOp_keeps h

theorem execOpStacc_keeps {hub : Hub} {e : EngNo} {op : BitVec 256} (h : Keeps a s) :
    OutKeeps a (execOpStacc hub e op s) :=
  tileOp_keeps h

theorem execOpAdd_keeps {hub : Hub} {e : EngNo} {op : BitVec 256} (h : Keeps a s) :
    OutKeeps a (execOpAdd hub e op s) :=
  engineOp_keeps h

theorem execOpSub_keeps {hub : Hub} {e : EngNo} {op : BitVec 256} (h : Keeps a s) :
    OutKeeps a (execOpSub hub e op s) :=
  engineOp_keeps h

theorem execOpMul_keeps {hub : Hub} {e : EngNo} {op : BitVec 256} (h : Keeps a s) :
    OutKeeps a (execOpMul hub e op s) :=
  engineOp_keeps h

theorem execOpFma_keeps {hub : Hub} {e : EngNo} {op : BitVec 256} (h : Keeps a s) :
    OutKeeps a (execOpFma hub e op s) :=
  engineOp_keeps h

theorem execOpMax_keeps {hub : Hub} {e : EngNo} {op : BitVec 256} (h : Keeps a s) :
    OutKeeps a (execOpMax hub e op s) :=
  engineOp_keeps h

theorem execOpMin_keeps {hub : Hub} {e : EngNo} {op : BitVec 256} (h : Keeps a s) :
    OutKeeps a (execOpMin hub e op s) :=
  engineOp_keeps h

theorem execOpAdds_keeps {hub : Hub} {e : EngNo} {op : BitVec 256} (h : Keeps a s) :
    OutKeeps a (execOpAdds hub e op s) :=
  engineOp_keeps h

theorem execOpMuls_keeps {hub : Hub} {e : EngNo} {op : BitVec 256} (h : Keeps a s) :
    OutKeeps a (execOpMuls hub e op s) :=
  engineOp_keeps h

theorem execOpRelu_keeps {hub : Hub} {e : EngNo} {op : BitVec 256} (h : Keeps a s) :
    OutKeeps a (execOpRelu hub e op s) :=
  engineOp_keeps h

theorem execOpLrelu_keeps {hub : Hub} {e : EngNo} {op : BitVec 256} (h : Keeps a s) :
    OutKeeps a (execOpLrelu hub e op s) :=
  engineOp_keeps h

theorem execOpGelu_keeps {hub : Hub} {e : EngNo} {op : BitVec 256} (h : Keeps a s) :
    OutKeeps a (execOpGelu hub e op s) :=
  engineOp_keeps h

theorem execOpSigmoid_keeps {hub : Hub} {e : EngNo} {op : BitVec 256} (h : Keeps a s) :
    OutKeeps a (execOpSigmoid hub e op s) :=
  engineOp_keeps h

theorem execOpTanh_keeps {hub : Hub} {e : EngNo} {op : BitVec 256} (h : Keeps a s) :
    OutKeeps a (execOpTanh hub e op s) :=
  engineOp_keeps h

theorem execOpSilu_keeps {hub : Hub} {e : EngNo} {op : BitVec 256} (h : Keeps a s) :
    OutKeeps a (execOpSilu hub e op s) :=
  engineOp_keeps h

theorem execOpLnorm_keeps {hub : Hub} {e : EngNo} {op : BitVec 256} (h : Keeps a s) :
    OutKeeps a (execOpLnorm hub e op s) :=
  engineOp_keeps h

theorem execOpRmsnorm_keeps {hub : Hub} {e : EngNo} {op : BitVec 256} (h : Keeps a s) :
    OutKeeps a (execOpRmsnorm hub e op s) :=
  engineOp_keeps h

theorem execOpRsum_keeps {hub : Hub} {e : EngNo} {op : BitVec 256} (h : Keeps a s) :
    OutKeeps a (execOpRsum hub e op s) :=
  engineOp_keeps h

theorem execOpRsumsq_keeps {hub : Hub} {e : EngNo} {op : BitVec 256} (h : Keeps a s) :
    OutKeeps a (execOpRsumsq hub e op s) :=
  engineOp_keeps h

theorem execOpAcczero_keeps {hub : Hub} {e : EngNo} {op : BitVec 256} (h : Keeps a s) :
    OutKeeps a (execOpAcczero hub e op s) :=
  engineOp_keeps h

theorem execOpAccrd_keeps {hub : Hub} {e : EngNo} {op : BitVec 256} (h : Keeps a s) :
    OutKeeps a (execOpAccrd hub e op s) :=
  engineOp_keeps h

theorem execOpPool_keeps {hub : Hub} {e : EngNo} {op : BitVec 256} (h : Keeps a s) :
    OutKeeps a (execOpPool hub e op s) :=
  tileOp_keeps h

theorem execOpCat_keeps {hub : Hub} {e : EngNo} {op : BitVec 256} (h : Keeps a s) :
    OutKeeps a (execOpCat hub e op s) :=
  engineOp_keeps h

theorem execOpTransp_keeps {hub : Hub} {e : EngNo} {op : BitVec 256} (h : Keeps a s) :
    OutKeeps a (execOpTransp hub e op s) :=
  engineOp_keeps h

theorem execOpMm_keeps {hub : Hub} {e : EngNo} {op : BitVec 256} (h : Keeps a s) :
    OutKeeps a (execOpMm hub e op s) :=
  engineOp_keeps h

theorem execOpMmout_keeps {hub : Hub} {e : EngNo} {op : BitVec 256} (h : Keeps a s) :
    OutKeeps a (execOpMmout hub e op s) :=
  engineOp_keeps h

theorem execOpMaskgen_keeps {hub : Hub} {e : EngNo} {op : BitVec 256} (h : Keeps a s) :
    OutKeeps a (execOpMaskgen hub e op s) :=
  engineOp_keeps h

theorem execOpMaskapply_keeps {hub : Hub} {e : EngNo} {op : BitVec 256} (h : Keeps a s) :
    OutKeeps a (execOpMaskapply hub e op s) :=
  engineOp_keeps h

theorem execOpDropout_keeps {hub : Hub} {e : EngNo} {op : BitVec 256} (h : Keeps a s) :
    OutKeeps a (execOpDropout hub e op s) :=
  engineOp_keeps h

theorem execOpRelumask_keeps {hub : Hub} {e : EngNo} {op : BitVec 256} (h : Keeps a s) :
    OutKeeps a (execOpRelumask hub e op s) :=
  engineOp_keeps h

theorem execOpQuant_keeps {hub : Hub} {e : EngNo} {op : BitVec 256} (h : Keeps a s) :
    OutKeeps a (execOpQuant hub e op s) :=
  engineOp_keeps h

theorem execOpDequant_keeps {hub : Hub} {e : EngNo} {op : BitVec 256} (h : Keeps a s) :
    OutKeeps a (execOpDequant hub e op s) :=
  engineOp_keeps h

theorem execOpCvt_keeps {hub : Hub} {e : EngNo} {op : BitVec 256} (h : Keeps a s) :
    OutKeeps a (execOpCvt hub e op s) :=
  engineOp_keeps h

theorem execOpDigest_keeps {hub : Hub} {e : EngNo} {op : BitVec 256} (h : Keeps a s) :
    OutKeeps a (execOpDigest hub e op s) :=
  tileOp_keeps h

/-! ### Tiles that end and stand (Machine/Tiles.lean) -/

theorem standOutput_keeps {r : Run} {tile : Nat} {o : RunOutput} {d : Tab Byte} {f : Flags3} {poisoned : Bool}
    (h : Keeps a s) : Keeps a (s.standOutput r tile o d f poisoned).1 := by
  unfold State.standOutput
  split
  extract_lets _ _ _ _ _ s1 s2
  have k1 : Keeps a s1 := ite_keeps (hostDeliver_keeps h) h
  have k2 : Keeps a s2 := by
    unfold s2
    split
    · exact ite_keeps (hostDeliver_keeps k1) k1
    · exact k1
  exact k2

theorem stand_keeps {id tile : Nat} {d : TileDigests} {poisoned : Bool} (h : Keeps a s) :
    Keeps a (s.stand id tile d poisoned) := by
  unfold State.stand
  split
  · split
    rename_i e1
    have k1 := Keeps.of_fst (a := a) e1 (by
      refine foldl_keeps_fst (fun _ _ k2 => ite_keeps_fst k2 ?_) h
      split
      rename_i e2
      have k3 := Keeps.of_fst e2 (standOutput_keeps k2)
      exact k3)
    exact setRun_keeps k1
  · exact h

theorem takeOutput_keeps {r : Run} {o : RunOutput} (h : Keeps a s) : Keeps a (s.takeOutput r o) := by
  unfold State.takeOutput
  split
  · exact ite_keeps (ite_keeps (setHandle_keeps h) (runWaiting_keeps (settleFill_keeps (setHandle_keeps h)))) h
  · exact h

theorem endProduce_keeps {id : Nat} (h : Keeps a s) : Keeps a (s.endProduce id) := by
  unfold State.endProduce
  split
  · extract_lets _ s1
    have k1 : Keeps a s1 := dropRun_keeps h
    refine ite_keeps h ?_
    split
    · exact completeVia_keeps k1
    · exact complete_keeps k1
    · exact k1
  · exact h

theorem endRegenerate_keeps {r : Run} (h : Keeps a s) : Keeps a (s.endRegenerate r) := by
  unfold State.endRegenerate
  split
  · split
    · exact restoreEnded_keeps (settleLatent_keeps (dropRun_keeps (deliverBytes_keeps h)))
    · exact dropRun_keeps h
  · exact dropRun_keeps h

theorem abortMaterialize_keeps {x : Handle} {m : Mig} {st : BitVec 8} (h : Keeps a s) :
    Keeps a (s.abortMaterialize x m st) := by
  unfold State.abortMaterialize
  extract_lets s1 s2
  have k1 : Keeps a s1 := returnCharges_keeps (dropLaneWork_keeps h)
  have k2 : Keeps a s2 := settleLatent_keeps (setHandle_keeps k1)
  split
  · exact complete_keeps k2
  · exact event_keeps k2

theorem endMaterialize_keeps {r : Run} (h : Keeps a s) : Keeps a (s.endMaterialize r) := by
  unfold State.endMaterialize
  extract_lets s1
  have k1 : Keeps a s1 := dropRun_keeps h
  split
  · split
    · exact ite_keeps (abortMaterialize_keeps k1) (setHandle_keeps k1)
    · exact settleLatent_keeps k1
  · exact k1

theorem endInput_keeps {r : Run} {parent idx : Nat} (h : Keeps a s) : Keeps a (s.endInput r parent idx) := by
  unfold State.endInput
  extract_lets s1 s2
  have k1 : Keeps a s1 := dropRun_keeps h
  have k2 : Keeps a s2 := by
    unfold s2
    split
    · exact settleLatent_keeps k1
    · exact k1
  split
  · exact setRun_keeps k2
  · exact k2

theorem endReduce_keeps {r : Run} (h : Keeps a s) : Keeps a (s.endReduce r) := by
  unfold State.endReduce
  refine foldl_keeps (fun _ _ k1 => ?_) h
  split
  · exact setHandle_keeps k1
  · exact k1

theorem endRun_keeps {id : Nat} (h : Keeps a s) : Keeps a (s.endRun id) := by
  unfold State.endRun
  split
  · refine ite_keeps h ?_
    split
    · exact endProduce_keeps (foldl_keeps (fun _ _ k1 => takeOutput_keeps k1) h)
    · exact endRegenerate_keeps h
    · exact endMaterialize_keeps h
    · exact endInput_keeps h
    · exact endReduce_keeps h
  · exact h

theorem syncLeft_keeps {hub : Hub} {e number : Nat} {start : Tab (BitVec 32)} (h : Keeps a s) :
    Keeps a (s.syncLeft hub e number start) :=
  foldl_keeps (fun _ _ k1 => event_keeps k1) (setEngine_keeps h)

theorem standPoisoned_keeps {id tile : Nat} {d : TileDigests} {hub : Hub} (h : Keeps a s) :
    Keeps a (s.standPoisoned id tile d hub) := by
  unfold State.standPoisoned
  extract_lets s1
  have k1 : Keeps a s1 := stand_keeps h
  split
  · exact ite_keeps (poisonCreated_keeps (setRun_keeps k1)) (setRun_keeps k1)
  · exact k1

theorem firstRun_keeps {hub : Hub} {r : Run} {t : TileRun} {d : TileDigests} {poisoned : Bool} (h : Keeps a s) :
    Keeps a (s.firstRun hub r t d poisoned) := by
  unfold State.firstRun
  extract_lets idx wrong dup s1 s2
  have kd : ∀ {u role}, Keeps a u → Keeps a (dup u role) := by
    intro u role k
    unfold dup
    split
    · exact setRun_keeps k
    · exact k
  have k2 : Keeps a s2 := ite_keeps (setRun_keeps (event_keeps h)) h
  refine ite_keeps (kd h) (ite_keeps ?_ (stand_keeps k2))
  split
  · exact kd (setRun_keeps k2)
  · exact k2

theorem rerun_keeps {hub : Hub} {r : Run} {t : TileRun} {d : TileDigests} {poisoned : Bool} (h : Keeps a s) :
    Keeps a (s.rerun hub r t d poisoned) := by
  unfold State.rerun
  extract_lets _ _ _ s1 s2
  have k1 : Keeps a s1 := setRun_keeps h
  have k2 : Keeps a s2 := stand_keeps k1
  refine ite_keeps ?_ (standPoisoned_keeps k1)
  split
  · exact sendTest_keeps k2
  · exact k2

theorem execTileEnd_keeps {hub : Hub} {e : EngNo} (h : Keeps a s) : OutKeeps a (execTileEnd hub e s) := by
  unfold execTileEnd
  extract_lets _ s1
  have k1 : Keeps a s1 := setEngine_keeps h
  split
  · split
    · refine ite_outKeeps h (endRun_keeps ?_)
      split
      · exact firstRun_keeps (syncLeft_keeps k1)
      · exact rerun_keeps (syncLeft_keeps k1)
      · exact setRun_keeps (syncLeft_keeps k1)
      · exact setRun_keeps (syncLeft_keeps k1)
    · exact setEngine_keeps h
  · exact h

theorem tileDecided_keeps {r : Run} {tile : Nat} {d : TileDigests} {poisoned : Bool} {odd : Option TileDigests}
    (h : Keeps a s) : Keeps a (s.tileDecided r tile d poisoned odd) := by
  unfold State.tileDecided
  extract_lets s1 s2
  have k1 : Keeps a s1 := setRun_keeps h
  have k2 : Keeps a s2 := stand_keeps k1
  split
  · exact sendTest_keeps k2
  · exact k2

theorem execDuplicateCompare_keeps {run tile : Nat} (h : Keeps a s) :
    OutKeeps a (execDuplicateCompare run tile s) := by
  unfold execDuplicateCompare
  split
  · split
    · extract_lets
      refine ite_outKeeps h ?_
      split
      · exact ite_outKeeps (endRun_keeps (tileDecided_keeps h)) (event_keeps (setRun_keeps h))
      · exact endRun_keeps (ite_keeps (tileDecided_keeps h) (ite_keeps (tileDecided_keeps h) (standPoisoned_keeps
          (setRun_keeps h))))
      · exact h
    · exact h
  · exact h

theorem execWaitReevaluate_keeps {hub : Hub} {e : EngNo} (h : Keeps a s) :
    OutKeeps a (execWaitReevaluate hub e s) := by
  unfold execWaitReevaluate
  extract_lets
  split
  · split
    · split
      · exact ite_outKeeps (setEngine_keeps h) h
      · exact h
    · exact h
  · exact h

theorem failRun_keeps {n : Nat} {r : Run} {st : BitVec 8} (h : Keeps a s) : Keeps a (State.failRun n s r st) := by
  induction n generalizing s r with
  | zero => exact h
  | succ n ih =>
    have kd : Keeps a (s.dropRun r.id) := dropRun_keeps h
    unfold State.failRun
    split
    · split
      · exact ih h
      · exact kd
    · split
      · exact failFill_keeps h
      · extract_lets s1
        split
        · exact complete_keeps kd
        · exact kd
    · extract_lets s1 s2
      have k2 : Keeps a s2 := by
        unfold s2
        split
        · exact settleLatent_keeps kd
        · exact kd
      split
      · exact restoreEnded_keeps k2
      · exact k2
    · extract_lets s1
      split
      · split
        · exact abortMaterialize_keeps kd
        · exact settleLatent_keeps kd
      · exact kd
    · exact setRun_keeps h

theorem execRecipeStall_keeps {hub : Hub} {e : EngNo} (h : Keeps a s) : OutKeeps a (execRecipeStall hub e s) := by
  unfold execRecipeStall
  extract_lets _ s1
  have k1 : Keeps a s1 := setEngine_keeps h
  split
  · split
    · exact ite_outKeeps h (failRun_keeps (syncLeft_keeps k1))
    · exact h
  · exact h

theorem execEngineRetired_keeps {hub : Hub} {e : EngNo} (h : Keeps a s) : OutKeeps a (execEngineRetired hub e s) :=
  retireEngine_keeps h

theorem execChainSplice_keeps {hub : Hub} {e : EngNo} (h : Keeps a s) : OutKeeps a (execChainSplice hub e s) :=
  ite_outKeeps (setHealth_keeps h) h

/-! ### OFFLOAD, RESTORE, MIGRATE and UPDATE (Machine/Fills.lean) -/

theorem beginFill_keeps {x : Handle} {f : Fill} (h : Keeps a s) : ExKeeps a (s.beginFill x f) := by
  unfold State.beginFill
  extract_lets
  refine ite_exKeeps (setHandle_keeps h) (ite_exKeeps trivial ?_)
  split
  · exact trivial
  · exact ite_exKeeps (setHandle_keeps (placed_keeps (charge_keeps h))) (addJobs_keeps (nextLaneRequest_keeps
      (setHandle_keeps (placed_keeps (charge_keeps h)))))

theorem takeBlocks_keeps {k : HKey} {first count : Nat} (h : Keeps a s) : Keeps a (s.takeBlocks k first count) := by
  unfold State.takeBlocks
  split
  · split
    · exact foldl_keeps (fun _ _ k1 => poisonCreated_keeps k1) (setHandle_keeps h)
    · exact h
  · exact h

theorem feedRun_keeps {id : Nat} {k : HKey} (h : Keeps a s) : Keeps a (s.feedRun id k) := by
  unfold State.feedRun
  split
  · exact setRun_keeps h
  · exact h

theorem takeSource_keeps {k : HKey} (h : Keeps a s) : Keeps a (s.takeSource k) := by
  unfold State.takeSource
  split
  · split
    · exact ite_keeps (takeBlocks_keeps h) h
    · exact h
  · exact h

theorem offloadData_keeps {d : Desc} {t : Ticket} {x : Handle} (h : Keeps a s) : Keeps a (s.offloadData d t x) := by
  unfold State.offloadData
  extract_lets
  refine ite_keeps (complete_keeps h) (ite_keeps (complete_keeps h) (ite_keeps (complete_keeps h)
    (ite_keeps (complete_keeps h) (ite_keeps (complete_keeps h) (ite_keeps h ?_)))))
  split
  · exact complete_keeps h
  · rename_i e1
    have k1 := ExKeeps.of_eq e1 (beginFill_keeps h)
    exact takeSource_keeps k1

theorem offloadRecipe_keeps {d : Desc} {t : Ticket} {x : Handle} (h : Keeps a s) :
    Keeps a (s.offloadRecipe d t x) := by
  unfold State.offloadRecipe
  extract_lets
  split
  · exact complete_keeps h
  · refine ite_keeps (complete_keeps h) (ite_keeps (complete_keeps h) (ite_keeps (complete_keeps h) ?_))
    split
    · exact complete_keeps h
    · refine ite_keeps h (ite_keeps (complete_keeps h) ?_)
      split
      · exact complete_keeps h
      · extract_lets
        refine ite_keeps h (ite_keeps (complete_keeps h) (ite_keeps (complete_keeps h) ?_))
        split
        extract_lets
        split
        · exact complete_keeps h
        · rename_i e1
          have k1 := ExKeeps.of_eq e1 (beginFill_keeps h)
          exact takeSource_keeps k1

theorem execOffload_keeps {d : Desc} (h : Keeps a s) : OutKeeps a (execOffload d s) := by
  unfold execOffload
  extract_lets
  refine withDesc_keeps h (fun _ _ k1 => ?_)
  split
  · exact complete_keeps k1
  · exact ite_keeps (offloadRecipe_keeps k1) (offloadData_keeps k1)

theorem spawnInputs_keeps {id prio : Nat} {ins : List (Option Handle)} (h : Keeps a s) :
    ExKeeps a (s.spawnInputs id prio ins) := by
  refine foldl_exKeeps (fun u b k => ?_) (fun _ _ => rfl) h
  split
  · rename_i e _
    cases e
    exact ite_exKeeps (regenerate_keeps k) k
  · exact k

theorem forward_keeps {d : Desc} {t : Ticket} {b : Bound} {i0 : Handle} {outs : List (Nat × Handle)} (h : Keeps a s) :
    ExKeeps a (s.forward d t b i0 outs) := by
  unfold State.forward
  extract_lets _ _ _ _ _ _ _ _ begun
  have kb : ExKeeps a begun := foldl_exKeeps (fun _ _ k => beginFill_keeps k) (fun _ _ => rfl) (beginFill_keeps h)
  cases e : begun with
  | error e => trivial
  | ok u => exact spawnInputs_keeps (addRun_keeps (takeSource_keeps (ExKeeps.of_eq e kb)))

theorem offloadFwd_keeps {d : Desc} {t : Ticket} (h : Keeps a s) : Keeps a (s.offloadFwd d t) := by
  unfold State.offloadFwd
  extract_lets
  split
  · exact complete_keeps h
  · extract_lets
    split
    · exact complete_keeps h
    · refine ite_keeps (complete_keeps h) (ite_keeps (complete_keeps h) ?_)
      split
      · exact complete_keeps h
      · refine ite_keeps h ?_
        split
        · exact complete_keeps h
        · extract_lets
          refine ite_keeps h (ite_keeps (complete_keeps h) (ite_keeps (complete_keeps h)
            (ite_keeps (complete_keeps h) (ite_keeps h ?_))))
          split
          · rename_i e1
            have k1 := ExKeeps.of_eq e1 (forward_keeps h)
            exact k1
          · exact complete_keeps h

theorem execOffloadFwd_keeps {d : Desc} (h : Keeps a s) : OutKeeps a (execOffloadFwd d s) :=
  withDesc_keeps h (fun _ _ k1 => offloadFwd_keeps k1)

theorem execReadyBlockRead_keeps {k : HKey} (h : Keeps a s) : OutKeeps a (execReadyBlockRead k s) := by
  unfold execReadyBlockRead
  split
  · split
    · exact ite_outKeeps (sendRead_keeps (setHandle_keeps h)) h
    · exact h
  · exact h

theorem execFillComplete_keeps {k : HKey} {result : HopEnd} (h : Keeps a s) :
    OutKeeps a (execFillComplete k result s) := by
  unfold execFillComplete
  refine ite_outKeeps h ?_
  split
  · split
    · refine ite_outKeeps h (ite_outKeeps (failFill_keeps h) (ite_outKeeps h ?_))
      split
      · exact ite_outKeeps h (endFill_keeps h)
      · split
        · exact ite_outKeeps (ite_outKeeps h (endProduce_keeps (runWaiting_keeps (settleFill_keeps h))))
            (ite_outKeeps (endProduce_keeps (runWaiting_keeps (settleFill_keeps h))) h)
        · exact h
    · exact h
  · exact h

theorem acceptRestore_keeps {x : Handle} {w : WaitingRestore} (h : Keeps a s) : Keeps a (s.acceptRestore x w) :=
  ite_keeps (setHandle_keeps h) (startRestore_keeps h)

theorem execRestore_keeps {d : Desc} (h : Keeps a s) : OutKeeps a (execRestore d s) := by
  unfold execRestore
  refine withDesc_keeps h (fun _ _ k1 => ?_)
  split
  · exact complete_keeps k1
  · extract_lets
    split
    · exact complete_keeps k1
    · exact ite_keeps k1 (acceptRestore_keeps k1)

theorem startMigrate_keeps {x : Handle} {goal : Fate} {pl : Placement} {prio : Nat} {t : Option Ticket}
    (h : Keeps a s) : ExKeeps a (s.startMigrate x goal pl prio t) := by
  unfold State.startMigrate
  extract_lets _ _ s1
  have k1 : Keeps a s1 := ite_keeps h (charge_keeps h)
  refine ite_exKeeps trivial (ite_exKeeps ?_ (pumpMigs_keeps (setHandle_keeps k1)))
  split
  · exact trivial
  · extract_lets _ s2 s3
    have k2 : Keeps a s2 := setHandle_keeps (placed_keeps k1)
    have k3 : Keeps a s3 := foldl_keeps (fun _ _ k4 => laneWork_keeps k4) k2
    split
    · exact regenerate_keeps k3
    · exact k3

theorem dematerialize_keeps {x : Handle} (h : Keeps a s) : Keeps a (s.dematerialize x) :=
  setHandle_keeps (returnCharges_keeps h)

theorem migrate_keeps {d : Desc} {t : Ticket} {x : Handle} (h : Keeps a s) : Keeps a (s.migrate d t x) := by
  unfold State.migrate
  extract_lets
  refine ite_keeps (complete_keeps h) (ite_keeps (complete_keeps h) (ite_keeps (complete_keeps h)
    (ite_keeps (complete_keeps h) (ite_keeps (complete_keeps h) (ite_keeps (complete_keeps (dematerialize_keeps h))
    (ite_keeps h ?_))))))
  split
  · exact complete_keeps h
  · split
    · rename_i e1
      have k1 := ExKeeps.of_eq e1 (startMigrate_keeps h)
      exact k1
    · exact complete_keeps h

theorem execMigrate_keeps {d : Desc} (h : Keeps a s) : OutKeeps a (execMigrate d s) := by
  unfold execMigrate
  refine withDesc_keeps h (fun _ _ k1 => ?_)
  split
  · exact complete_keeps k1
  · exact migrate_keeps k1

theorem settleMigration_keeps {k : HKey} (h : Keeps a s) : Keeps a (s.settleMigration k) := by
  unfold State.settleMigration
  split
  · split
    · exact ite_keeps (finishMig_keeps h) (pumpMigs_keeps h)
    · exact h
  · exact h

theorem commitStripe_keeps {x : Handle} {m : Mig} {c : Copy} (h : Keeps a s) : Keeps a (s.commitStripe x m c) := by
  unfold State.commitStripe
  extract_lets
  split
  exact settleMigration_keeps (setHandle_keeps (exhaust_keeps h))

theorem execStripeCommit_keeps {k : HKey} {stripe : Nat} {c : Confirm} (h : Keeps a s) :
    OutKeeps a (execStripeCommit k stripe c s) := by
  unfold execStripeCommit
  refine ite_outKeeps h ?_
  split
  · split
    · split
      · extract_lets _ s1
        have k1 : Keeps a s1 := event_keeps h
        refine ite_outKeeps h ?_
        split
        · exact commitStripe_keeps h
        · exact ite_outKeeps (abortMaterialize_keeps k1) (pumpMigs_keeps (stopMig_keeps k1))
      · exact h
    · exact h
  · exact h

theorem execOldLocationRelease_keeps {k : HKey} {stripe : Nat} (h : Keeps a s) :
    OutKeeps a (execOldLocationRelease k stripe s) := by
  unfold execOldLocationRelease
  split
  · split
    · exact ite_outKeeps h (ite_outKeeps (pumpMigs_keeps (finishMig_keeps (setHandle_keeps h))) (pumpMigs_keeps
        (setHandle_keeps h)))
    · exact h
  · exact h

theorem execMigrationStopped_keeps {hub : Hub} {core : StopCore} (h : Keeps a s) :
    OutKeeps a (execMigrationStopped hub core s) := by
  unfold execMigrationStopped
  extract_lets
  refine pumpMigs_keeps (foldl_keeps (fun _ _ k1 => ?_) h)
  split
  · split
    · exact stopMig_keeps (event_keeps k1)
    · exact k1
  · exact k1

theorem writeUpdate_keeps {x : Handle} {d : Desc} {off len : Nat} (h : Keeps a s) :
    Keeps a (s.writeUpdate x d off len).1 :=
  foldl_keeps (fun _ _ k1 => poisonCreated_keeps k1) h

theorem update_keeps {d : Desc} {t : Ticket} {x : Handle} (h : Keeps a s) : Keeps a (s.update d t x) := by
  unfold State.update
  extract_lets
  refine ite_keeps (complete_keeps h) (ite_keeps (complete_keeps h) (ite_keeps (complete_keeps h)
    (ite_keeps (complete_keeps h) (ite_keeps (complete_keeps h) (ite_keeps (complete_keeps h)
    (ite_keeps h (ite_keeps (complete_keeps (setHandle_keeps h)) (ite_keeps (complete_keeps h)
    (ite_keeps (complete_keeps h) ?_)))))))))
  exact complete_keeps (setHandle_keeps (writeUpdate_keeps h))

theorem execUpdate_keeps {d : Desc} (h : Keeps a s) : OutKeeps a (execUpdate d s) := by
  unfold execUpdate
  refine withDesc_keeps h (fun _ _ k1 => ?_)
  split
  · exact complete_keeps k1
  · exact update_keeps k1

theorem execQueryHandle_keeps {d : Desc} (h : Keeps a s) : OutKeeps a (execQueryHandle d s) := by
  unfold execQueryHandle
  refine withDesc_keeps h (fun _ _ k1 => ?_)
  extract_lets
  split
  · exact complete_keeps k1
  · exact complete_keeps k1
  · exact complete_keeps (ite_keeps k1 (hostWrite_keeps k1))

/-! ### Waiters and realignment (Machine/SyncOps.lean) -/

theorem zeroCtr_keeps {hub : Hub} {c : Nat} (h : Keeps a s) : Keeps a (s.zeroCtr hub c) :=
  setSync_keeps (setHostCtr_keeps h)

theorem realign_keeps {hub : Hub} {c : Nat} (h : Keeps a s) : Keeps a (s.realign hub c) :=
  ite_keeps (ite_keeps (ite_keeps (zeroCtr_keeps h) (zeroCtr_keeps (zeroCtr_keeps h))) (event_keeps h))
    (ite_keeps (zeroCtr_keeps h) (event_keeps h))

theorem realignOn_keeps {sel : Nat → Bool} {hub : Hub} (h : Keeps a s) : Keeps a (s.realignOn sel hub) :=
  foldl_keeps (fun _ _ k1 => realign_keeps k1) h

theorem realignWhere_keeps {sel : Nat → Bool} (h : Keeps a s) : Keeps a (s.realignWhere sel) :=
  foldl_keeps (fun _ _ k1 => realignOn_keeps k1) h

/-! ### Plans, steps and batches (Machine/Plans.lean) -/

theorem dropReader_keeps {k : HKey} (h : Keeps a s) : Keeps a (s.dropReader k) := by
  unfold State.dropReader
  split
  · exact setHandle_keeps h
  · exact h

theorem endStream_keeps {x : Stream} (h : Keeps a s) : Keeps a (s.endStream x) := by
  unfold State.endStream
  extract_lets s1
  have k1 : Keeps a s1 := by
    refine foldl_keeps (fun _ _ k2 => ?_) h
    split
    · exact dropReader_keeps k2
    · exact k2
  exact foldl_keeps (fun _ _ k3 => complete_keeps k3) k1

theorem activate_keeps {ctx : Nat} {p : Plan} (h : Keeps a s) : Keeps a (s.activate ctx p) := by
  unfold State.activate
  split
  · exact h
  · extract_lets _ _ s1
    have k1 : Keeps a s1 := charge_keeps (foldl_keeps (fun _ _ k2 => endStream_keeps k2) h)
    split
    · exact k1
    · exact setCtx_keeps k1

theorem loadPlan_keeps {d : Desc} {t : Ticket} (h : Keeps a s) : Keeps a (s.loadPlan d t) := by
  unfold State.loadPlan
  extract_lets
  split
  · exact complete_keeps h
  · refine ite_keeps (complete_keeps h) ?_
    split
    · exact complete_keeps h
    · split
      · exact complete_keeps h
      · extract_lets _ _ s1 s2 s3
        have k1 : Keeps a s1 := charge_keeps h
        have k2 : Keeps a s2 := by
          unfold s2
          split
          · exact setCtx_keeps k1
          · exact k1
        have k3 : Keeps a s3 := by
          refine ite_keeps ?_ (activate_keeps k2)
          split
          · exact setCtx_keeps k2
          · exact k2
        exact ite_keeps (complete_keeps h) (complete_keeps k3)

theorem execLoadPlan_keeps {d : Desc} (h : Keeps a s) : OutKeeps a (execLoadPlan d s) :=
  withDesc_keeps h (fun _ _ k1 => loadPlan_keeps k1)

theorem stepBegin_keeps {d : Desc} {t : Ticket} (h : Keeps a s) : Keeps a (s.stepBegin d t) := by
  unfold State.stepBegin
  extract_lets
  split
  · exact complete_keeps h
  · exact ite_keeps (complete_keeps h) (ite_keeps (complete_keeps h) (complete_keeps (realignWhere_keeps
      (setCtx_keeps h))))

theorem execStepBegin_keeps {d : Desc} (h : Keeps a s) : OutKeeps a (execStepBegin d s) :=
  withDesc_keeps h (fun _ _ k1 => stepBegin_keeps k1)

theorem execMark_keeps {d : Desc} (h : Keeps a s) : OutKeeps a (execMark d s) := by
  unfold execMark
  refine withDesc_keeps h (fun _ _ k1 => ?_)
  split
  · exact complete_keeps k1
  · exact ite_keeps (complete_keeps k1) (complete_keeps (setCtx_keeps k1))

theorem execStepEnd_keeps {d : Desc} (h : Keeps a s) : OutKeeps a (execStepEnd d s) := by
  unfold execStepEnd
  refine withDesc_keeps h (fun _ _ k1 => ?_)
  split
  · exact complete_keeps k1
  · exact ite_keeps (complete_keeps k1) (setCtx_keeps k1)

theorem execStepEndComplete_keeps {ctx : Nat} (h : Keeps a s) : OutKeeps a (execStepEndComplete ctx s) := by
  unfold execStepEndComplete
  split
  · split
    · refine ite_outKeeps h ?_
      extract_lets len s1 s2 shown s3
      have k2 : Keeps a s2 := complete_keeps (setCtx_keeps h)
      refine OutKeeps.next ?_
      split
      · exact activate_keeps k2.of
      · exact k2.of
    · exact h
  · exact h

/-- Comparing the call with its body the kernel evaluates the handle word, and 2^57 with it; so the definition is
unfolded in an equation of its own. -/
theorem batchRestore_keeps {ctx ring b prio i : Nat} {p : PlanRestore} (h : Keeps a s) :
    Keeps a (s.batchRestore ctx ring b prio i p) := by
  generalize e : @State.batchRestore = f
  delta State.batchRestore at e
  subst e
  beta_reduce
  extract_lets
  split
  · exact batchEnded_keeps h
  · split
    · exact batchEnded_keeps h
    · split
      · exact batchEnded_keeps h
      · exact acceptRestore_keeps h

theorem execBatchIssue_keeps {ctx b : Nat} (h : Keeps a s) : OutKeeps a (execBatchIssue ctx b s) := by
  unfold execBatchIssue
  refine ite_outKeeps h ?_
  split
  · split
    · exact ite_outKeeps h (foldl_keeps (fun _ _ k1 => batchRestore_keeps k1) (setCtx_keeps h))
    · exact h
  · exact h

theorem execBatchComplete_keeps {ctx b : Nat} (h : Keeps a s) : OutKeeps a (execBatchComplete ctx b s) := by
  unfold execBatchComplete
  split
  · split
    · extract_lets _ _ _ _ _ _ _ s1 s2 _ s3
      have k1 : Keeps a s1 := setCtx_keeps h
      have k2 : Keeps a s2 := foldl_keeps (fun _ _ k3 => ite_keeps k3 (post_keeps k3)) k1
      have k4 : Keeps a s3 := post_keeps k2
      exact ite_outKeeps h (ite_keeps (event_keeps k4) k4)
    · exact h
  · exact h

/-! ### Units of the tiers (Machine/Units.lean) -/

theorem sendGrant_keeps {pkg : BitVec 64} {frozen : Bool} (h : Keeps a s) : Keeps a (s.sendGrant pkg frozen) := by
  unfold State.sendGrant
  split
  · exact sendMsg_keeps h
  · exact h

theorem failFillsIn_keeps {u : TierUnit} {st : BitVec 8} (h : Keeps a s) : Keeps a (s.failFillsIn u st) := by
  unfold State.failFillsIn
  extract_lets
  refine foldl_keeps (fun _ _ k1 => ?_) h
  split
  · exact failFill_keeps k1
  · exact k1

theorem stopMigsInto_keeps {u : TierUnit} {st : BitVec 8} (h : Keeps a s) : Keeps a (s.stopMigsInto u st) := by
  unfold State.stopMigsInto
  extract_lets
  refine foldl_keeps (fun _ _ k1 => ?_) h
  split
  · split
    · exact ite_keeps (setHandle_keeps k1) (ite_keeps (abortMaterialize_keeps (event_keeps k1)) (stopMig_keeps
        (event_keeps k1)))
    · exact k1
  · exact k1

theorem freezeUnit_keeps {u : TierUnit} (h : Keeps a s) : Keeps a (s.freezeUnit u) := by
  unfold State.freezeUnit
  refine ite_keeps h (pumpMigs_keeps (checkShrunk_keeps ?_))
  split
  · exact foldl_keeps (fun _ _ k1 => sendGrant_keeps k1) (stopMigsInto_keeps (failFillsIn_keeps
      (cper_keeps (setUnit_keeps h))))
  · exact stopMigsInto_keeps (failFillsIn_keeps (cper_keeps (setUnit_keeps h)))

theorem unitOut_keeps {u : TierUnit} (h : Keeps a s) : Keeps a (s.unitOut u) := by
  unfold State.unitOut
  refine ite_keeps h (pumpMigs_keeps (foldl_keeps (fun _ _ k1 => ?_) (stopMigsInto_keeps (failFillsIn_keeps
    (setUnit_keeps h)))))
  split
  · extract_lets s1
    have k2 : Keeps a s1 := by
      unfold s1
      split
      · exact stopMig_keeps k1
      · exact k1
    split
    · exact setHandle_keeps k2
    · exact k2
  · exact k1

theorem reviveHandles_keeps (h : Keeps a s) : Keeps a s.reviveHandles := h.of

theorem execUnitReduced_keeps {u : TierUnit} (h : Keeps a s) : OutKeeps a (execUnitReduced u s) :=
  ite_keeps (setUnit_keeps h) h

theorem execUnitFreeze_keeps {u : TierUnit} (h : Keeps a s) : OutKeeps a (execUnitFreeze u s) := freezeUnit_keeps h

theorem beginDrain_keeps {u : TierUnit} {k : HKey} (h : Keeps a s) : Keeps a (s.beginDrain u k) := by
  unfold State.beginDrain
  split
  · exact setHandle_keeps h
  · exact h

theorem execDrainStart_keeps {u : TierUnit} (h : Keeps a s) : OutKeeps a (execDrainStart u s) :=
  ite_outKeeps h (pumpMigs_keeps (foldl_keeps (fun _ _ k1 => beginDrain_keeps k1) h))

theorem execUnitEmptied_keeps {u : TierUnit} (h : Keeps a s) : OutKeeps a (execUnitEmptied u s) :=
  ite_keeps (setUnit_keeps h) h

theorem loseGuests_keeps {k : Stack} (h : Keeps a s) : Keeps a (s.loseGuests k) := h.of

theorem execUnitReturn_keeps {u : TierUnit} {epochMatches testPassed : Bool} (h : Keeps a s) :
    OutKeeps a (execUnitReturn u epochMatches testPassed s) := by
  unfold execUnitReturn
  extract_lets _ s1
  have k1 : Keeps a s1 := by
    unfold s1
    split
    · exact h
    · exact loseGuests_keeps (bumpEpoch_keeps h)
    · exact bumpEpoch_keeps h
  exact ite_outKeeps h (ite_outKeeps (ite_outKeeps h (reviveHandles_keeps (setUnit_keeps h)))
    (ite_keeps (setUnit_keeps k1) k1))

theorem execPenumbraResend_keeps {link : LinkNo} {tag : BitVec 16} (h : Keeps a s) :
    OutKeeps a (execPenumbraResend link tag s) := by
  unfold execPenumbraResend
  split
  · split
    · split
      · exact ite_outKeeps h (sendMsg_keeps h.of)
      · exact h
    · exact h
  · exact h

/-! ### Frames, link-up and signals (Machine/Links.lean) -/

theorem linkDown_keeps {l : LinkNo} {st : LState} (h : Keeps a s) : Keeps a (s.linkDown l st) :=
  linkState_keeps (leaveSession_keeps h)

theorem linkIdle_keeps {l : LinkNo} (h : Keeps a s) : Keeps a (s.linkIdle l) := setLink_keeps h

theorem linkByLanes_keeps {l : LinkNo} (h : Keeps a s) : Keeps a (s.linkByLanes l) :=
  ite_keeps h (ite_keeps (linkDown_keeps h) (ite_keeps h (linkState_keeps h)))

theorem laneGoesBad_keeps {l : LinkNo} {lane : Nat} {lostLock : Bool} (h : Keeps a s) :
    Keeps a (s.laneGoesBad l lane lostLock) :=
  ite_keeps h (ite_keeps (linkByLanes_keeps (ite_keeps (sendMsg_keeps (setLink_keeps (sendTest_keeps
    (event_keeps h)))) (setLink_keeps (sendTest_keeps (event_keeps h))))) (setLink_keeps (sendTest_keeps
    (event_keeps h))))

theorem swapSpare_keeps {l : LinkNo} (h : Keeps a s) : Keeps a (s.swapSpare l) :=
  linkByLanes_keeps (event_keeps (setLink_keeps h))

theorem trySwap_keeps {l : LinkNo} (h : Keeps a s) : Keeps a (s.trySwap l) :=
  ite_keeps h (ite_keeps (swapSpare_keeps (setLink_keeps h)) (setLink_keeps h))

theorem execLaneBad_keeps {l : LinkNo} {lane : Fin 5} {lostLock : Bool} (h : Keeps a s) :
    OutKeeps a (execLaneBad l lane lostLock s) :=
  ite_keeps (laneGoesBad_keeps h) h

theorem execLaneCtrl_keeps {l : LinkNo} {arg : BitVec 64} (h : Keeps a s) : OutKeeps a (execLaneCtrl l arg s) :=
  ite_outKeeps h (ite_outKeeps (trySwap_keeps (setLink_keeps h)) (setLink_keeps h))

theorem execSpareLaneTrained_keeps {l : LinkNo} (h : Keeps a s) : OutKeeps a (execSpareLaneTrained l s) :=
  ite_outKeeps h (trySwap_keeps (sendMsg_keeps (setLink_keeps h)))

theorem refuse_keeps {l : LinkNo} {typ cause : Nat} (h : Keeps a s) : Keeps a (s.refuse l typ cause) :=
  event_keeps (setLink_keeps h)

theorem refuseHeader_keeps {l : LinkNo} {x : BitVec 256} (h : Keeps a s) : Keeps a (s.refuseHeader l x) := by
  unfold State.refuseHeader
  split
  · exact h
  · exact ite_keeps (sendMsg_keeps (refuse_keeps h)) (refuse_keeps h)

theorem endSignals_keeps (h : Keeps a s) : Keeps a s.endSignals := by
  unfold State.endSignals
  extract_lets _ _ s1
  have k1 : Keeps a s1 := h.of
  refine foldl_keeps (fun _ _ k2 => ?_) k1
  split
  · exact complete_keeps k2
  · exact k2

theorem takeFrame_keeps {l : LinkNo} {f : LinkFrame} (h : Keeps a s) : Keeps a (s.takeFrame l f) := by
  unfold State.takeFrame
  extract_lets _ _ _ _ _ _ s1 s2 s3 s4 s5 s6 s7
  have k1 : Keeps a s1 := setLink_keeps h
  have k2 : Keeps a s2 := ite_keeps k1 (linkIdle_keeps k1)
  have k3 : Keeps a s3 := ite_keeps k2 (laneGoesBad_keeps k2)
  have k4 : Keeps a s4 := ite_keeps (swapSpare_keeps k3) k3
  have k5 : Keeps a s5 := ite_keeps (trySwap_keeps k4) k4
  have k6 : Keeps a s6 := foldl_keeps (fun _ _ k7 => refuseHeader_keeps k7) k5
  have k8 : Keeps a s7 := endSignals_keeps k6
  exact ite_keeps (linkState_keeps k8) k8

theorem execLinkFrameReceive_keeps {l : LinkNo} {f : LinkFrame} (h : Keeps a s) :
    OutKeeps a (execLinkFrameReceive l f s) :=
  ite_outKeeps h (ite_outKeeps (setLink_keeps h) (ite_outKeeps (setLink_keeps h) (takeFrame_keeps (setLink_keeps
    h))))

theorem execLinkResend_keeps {l : LinkNo} (h : Keeps a s) : OutKeeps a (execLinkResend l s) :=
  ite_outKeeps h (ite_outKeeps (linkRetrainNow_keeps h) (setLink_keeps h))

theorem execLinkRetrainDone_keeps {l : LinkNo} {ok : Bool} (h : Keeps a s) :
    OutKeeps a (execLinkRetrainDone l ok s) :=
  ite_outKeeps h (ite_outKeeps (linkHello_keeps (leaveSession_keeps h)) (ite_keeps (linkDown_keeps (setLink_keeps
    h)) (setLink_keeps h)))

theorem execLinkTrained_keeps {l : LinkNo} {lanes : BitVec 5} (h : Keeps a s) :
    OutKeeps a (execLinkTrained l lanes s) :=
  ite_outKeeps h (linkHello_keeps (leaveSession_keeps (setLink_keeps h)))

theorem execTrainingRetry_keeps {l : LinkNo} (h : Keeps a s) : OutKeeps a (execTrainingRetry l s) :=
  ite_keeps (setLink_keeps h) h

theorem faultUnread_keeps (h : Keeps a s) : Keeps a s.faultUnread := by
  unfold State.faultUnread
  extract_lets _ s1
  have k1 : Keeps a s1 := by
    refine foldl_keeps (fun _ _ k2 => ?_) h
    split
    · exact stopMig_keeps k2
    · exact k2
  exact k1.of

theorem peerEpoch_keeps {l : LinkNo} {pkg : BitVec 64} {epoch : BitVec 32} (h : Keeps a s) :
    Keeps a (s.peerEpoch l pkg epoch) := by
  unfold State.peerEpoch
  split
  · exact setPeer_keeps h
  · extract_lets s1 s2 _ _ s3
    have k1 : Keeps a s1 := stopMigsInto_keeps (failFillsIn_keeps h)
    have k2 : Keeps a s2 := setPeer_keeps k1
    have k3 : Keeps a s3 := ite_keeps (setPeer_keeps h) k2.of
    exact pumpMigs_keeps (reviveHandles_keeps (faultUnread_keeps k3))

theorem linkAgree_keeps {l : LinkNo} {p : PeerHello} (h : Keeps a s) : Keeps a (s.linkAgree l p) := by
  unfold State.linkAgree
  split
  · exact pumpForms_keeps (linkState_keeps h)
  · extract_lets _ s1 s2
    have k1 : Keeps a s1 := linkState_keeps (setLink_keeps h)
    have k2 : Keeps a s2 := by
      unfold s2
      split
      · exact sendGrant_keeps k1
      · exact k1
    exact pumpForms_keeps (linkIdle_keeps k2)

theorem execHello_keeps {l : LinkNo} {data : BitVec 512} (h : Keeps a s) : OutKeeps a (execHello l data s) := by
  unfold execHello
  refine ite_outKeeps h ?_
  extract_lets _ _ _ s1 _ s2
  have k1 : Keeps a s1 := ite_keeps h (leaveSession_keeps h)
  have k2 : Keeps a s2 := peerEpoch_keeps (setLink_keeps k1)
  refine ite_outKeeps (linkAgree_keeps k2) (ite_outKeeps (ite_outKeeps (linkAgree_keeps (sendHello_keeps
    (linkState_keeps k2))) k2) ?_)
  split
  · exact setLink_keeps k2
  · exact k2

theorem execGrant_keeps {l : LinkNo} {arg : BitVec 64} (h : Keeps a s) : OutKeeps a (execGrant l arg s) := by
  unfold execGrant
  refine ite_outKeeps h ?_
  split
  · exact h
  · exact ite_keeps (freezeUnit_keeps (setPeer_keeps h)) (setPeer_keeps h)

theorem execRemoteSignal_keeps {l : LinkNo} {addr : BitVec 48} {arg : BitVec 64} {marks : List (BitVec 64)}
    (h : Keeps a s) : OutKeeps a (execRemoteSignal l addr arg marks s) := by
  unfold execRemoteSignal
  refine ite_outKeeps h ?_
  split
  · exact h
  · exact ite_outKeeps h (ite_outKeeps (event_keeps (fresh_keeps (w := 12) (setSync_keeps h))) (raiseSignals_keeps
      h.of))

theorem moveWrites_keeps {from1 : Nat} {to1 : LinkNo} (h : Keeps a s) : Keeps a (s.moveWrites from1 to1) :=
  foldl_keeps (fun _ _ k1 => sendMsg_keeps k1.of) h

theorem execSignalResend_keeps {number : BitVec 32} (h : Keeps a s) : OutKeeps a (execSignalResend number s) := by
  unfold execSignalResend
  split
  · extract_lets
    split
    · exact sendMsg_keeps (foldl_keeps (fun _ _ k1 => moveWrites_keeps k1) h).of
    · exact h
  · exact h

theorem execSignalTimeout_keeps {number : BitVec 32} (h : Keeps a s) : OutKeeps a (execSignalTimeout number s) := by
  unfold execSignalTimeout
  split
  · refine ite_outKeeps h (OutKeeps.next ?_)
    split
    · exact complete_keeps h.of
    · exact h.of
  · exact h

theorem execLinkL1Entry_keeps {l : LinkNo} (h : Keeps a s) : OutKeeps a (execLinkL1Entry l s) :=
  ite_outKeeps (setLink_keeps h) h

theorem execLinkL1Wake_keeps {l : LinkNo} (h : Keeps a s) : OutKeeps a (execLinkL1Wake l s) :=
  ite_outKeeps h (setLink_keeps (linkIdle_keeps (linkState_keeps h)))

theorem linkRecord_keeps {l : LinkNo} (h : Keeps a s) : Keeps a (s.linkRecord l).2 := fresh_keeps (w := 144) h

theorem execLinkQuery_keeps {d : Desc} (h : Keeps a s) : OutKeeps a (execLinkQuery d s) := by
  unfold execLinkQuery
  extract_lets
  refine withDesc_keeps h (fun _ _ k1 => ?_)
  extract_lets s1
  have k2 : Keeps a s1.2 := by
    refine foldl_keeps_snd (fun _ _ k3 => ?_) k1
    split
    rename_i e1
    have k3 := Keeps.of_snd e1 (linkRecord_keeps k3)
    exact k3
  exact complete_keeps k2

theorem execLinkSetCap_keeps {d : Desc} (h : Keeps a s) : OutKeeps a (execLinkSetCap d s) := by
  unfold execLinkSetCap
  refine withDesc_keeps h (fun _ _ k1 => complete_keeps (foldl_keeps (fun _ _ k2 => ite_keeps k2 ?_) k1.of))
  extract_lets s1
  have k3 : Keeps a s1 := sendHello_keeps k2
  split
  · exact setLink_keeps k3
  · exact k3

theorem execLinkDisable_keeps {d : Desc} (h : Keeps a s) : OutKeeps a (execLinkDisable d s) :=
  withDesc_keeps h (fun _ _ k1 => complete_keeps (linkDown_keeps k1))

theorem execLinkEnable_keeps {d : Desc} (h : Keeps a s) : OutKeeps a (execLinkEnable d s) :=
  withDesc_keeps h (fun _ _ k1 => complete_keeps (ite_keeps (linkTrain_keeps k1) k1))

theorem execLinkRetrain_keeps {d : Desc} (h : Keeps a s) : OutKeeps a (execLinkRetrain d s) :=
  withDesc_keeps h (fun _ _ k1 => ite_keeps (complete_keeps (linkRetrainNow_keeps k1)) (complete_keeps k1))

/-! ### Weight streams (Machine/Streams.lean) -/

theorem setStream_keeps {ctx : Nat} {x : Stream} (h : Keeps a s) : Keeps a (s.setStream ctx x) := by
  unfold State.setStream
  split
  · exact setCtx_keeps h
  · exact h

theorem streamArm_keeps {d : Desc} {t : Ticket} (h : Keeps a s) : Keeps a (s.streamArm d t) := by
  unfold State.streamArm
  extract_lets
  split
  · exact complete_keeps h
  · exact ite_keeps (complete_keeps h) (ite_keeps (complete_keeps h) (ite_keeps (complete_keeps h) (setStream_keeps
      h)))

theorem execStreamArm_keeps {d : Desc} (h : Keeps a s) : OutKeeps a (execStreamArm d s) :=
  withDesc_keeps h (fun _ _ k1 => streamArm_keeps k1)

theorem execStreamFlush_keeps {d : Desc} (h : Keeps a s) : OutKeeps a (execStreamFlush d s) := by
  unfold execStreamFlush
  refine withDesc_keeps h (fun _ _ k1 => ?_)
  extract_lets
  split
  · exact complete_keeps k1
  · exact complete_keeps (foldl_keeps (fun _ _ k2 => complete_keeps k2) (setStream_keeps k1))

theorem layerEnded_keeps {ctx stream serial layer : Nat} {st : BitVec 8} {delivered : Bool} (h : Keeps a s) :
    Keeps a (s.layerEnded ctx stream serial layer st delivered) := by
  unfold State.layerEnded
  split
  · exact h
  · split
    · exact h
    · extract_lets _ _ _ s1 s2 s3
      have k1 : Keeps a s1 := setStream_keeps h
      have k2 : Keeps a s2 := by
        unfold s2
        split
        · exact ite_keeps (raiseHost_keeps k1) k1
        · exact k1
      have k3 : Keeps a s3 := ite_keeps (post_keeps k2) k2
      exact ite_keeps (complete_keeps k3) k3

theorem execStreamFetchStart_keeps {ctx stream : Nat} (h : Keeps a s) :
    OutKeeps a (execStreamFetchStart ctx stream s) := by
  unfold execStreamFetchStart
  refine ite_outKeeps h ?_
  split
  · exact h
  · split
    · split
      · exact h
      · exact layerEnded_keeps (setStream_keeps h)
      · exact ite_outKeeps h (setHandle_keeps (setStream_keeps h))
    · exact h

theorem execStreamFetchDone_keeps {ctx stream slot : Nat} {result : HopEnd} (h : Keeps a s) :
    OutKeeps a (execStreamFetchDone ctx stream slot result s) := by
  unfold execStreamFetchDone
  refine ite_outKeeps h ?_
  split
  · exact h
  · split
    · exact h
    · refine ite_outKeeps h ?_
      extract_lets s1
      have k1 : Keeps a s1 := by
        unfold s1
        split
        · exact dropReader_keeps h
        · exact h
      exact ite_outKeeps (setStream_keeps k1) (ite_outKeeps (layerEnded_keeps (setStream_keeps k1))
        (setStream_keeps k1))

theorem execStreamDeliver_keeps {ctx stream : Nat} (h : Keeps a s) :
    OutKeeps a (execStreamDeliver ctx stream s) := by
  unfold execStreamDeliver
  refine ite_outKeeps h ?_
  split
  · split
    · split
      · split
        · exact ite_outKeeps h (deliverBytes_keeps (setStream_keeps h))
        · exact h
      · exact h
    · exact h
  · exact h

theorem execStreamDeliveryDone_keeps {ctx stream slot : Nat} {result : HopEnd} (h : Keeps a s) :
    OutKeeps a (execStreamDeliveryDone ctx stream slot result s) := by
  unfold execStreamDeliveryDone
  refine ite_outKeeps h ?_
  split
  · exact h
  · split
    · exact h
    · split
      · exact ite_outKeeps (layerEnded_keeps (setStream_keeps h)) (behind_keeps (setStream_keeps h))
      · exact h

theorem execSlotRelease_keeps {ctx stream slot : Nat} (h : Keeps a s) :
    OutKeeps a (execSlotRelease ctx stream slot s) := by
  unfold execSlotRelease
  split
  · split
    · exact ite_outKeeps (setStream_keeps h) h
    · exact h
  · exact h

/-! ### Mover channels (Machine/Movers.lean) -/

theorem setChan_keeps {hub : Hub} {c : Nat} {x : Channel} (h : Keeps a s) : Keeps a (s.setChan hub c x) :=
  setMovers_keeps h

theorem eventPulse_keeps {hub : Hub} {line : Nat} (h : Keeps a s) : Keeps a (s.eventPulse hub line) := by
  unfold State.eventPulse
  refine ite_keeps (setMovers_keeps h) ?_
  extract_lets
  split
  · exact setSync_keeps h
  · exact raiseEngine_keeps h
  · exact setSync_keeps h
  · exact raiseHost_keeps h

theorem execEventPulse_keeps {hub : Hub} {line : BitVec 8} (h : Keeps a s) :
    OutKeeps a (execEventPulse hub line s) :=
  eventPulse_keeps h

theorem movLoad_keeps {hub : Hub} {c : Nat} (h : Keeps a s) : Keeps a (s.movLoad hub c) :=
  ite_keeps (setChan_keeps h) (setChan_keeps h)

theorem movAbort_keeps {hub : Hub} {c : Nat} (h : Keeps a s) : Keeps a (s.movAbort hub c) :=
  ite_keeps (setChan_keeps h) (ite_keeps (setChan_keeps h) (setChan_keeps h))

theorem movResume_keeps {hub : Hub} {c : Nat} (h : Keeps a s) : Keeps a (s.movResume hub c) :=
  ite_keeps h (ite_keeps (setChan_keeps (sendFence_keeps h)) (setChan_keeps h))

theorem movCmd_keeps {hub : Hub} {c bits : Nat} (h : Keeps a s) : Keeps a (s.movCmd hub c bits) := by
  unfold State.movCmd
  extract_lets s1 s2
  have k1 : Keeps a s1 := ite_keeps (movAbort_keeps h) h
  have k1 : Keeps a s2 := ite_keeps (movLoad_keeps k1) k1
  exact ite_keeps (movResume_keeps k1) k1

theorem movWrite_keeps {hub : Hub} {c bits : Nat} {by1 : MovWriter} (h : Keeps a s) :
    Keeps a (s.movWrite hub c bits by1) := by
  unfold State.movWrite
  split
  · exact ite_keeps (movCmd_keeps h) h
  · exact ite_keeps h (movCmd_keeps (ite_keeps (setSync_keeps h) h))

theorem execMovLoad_keeps {hub : Hub} {ch : Fin 64} {bits : BitVec 3} {by1 : MovWriter} (h : Keeps a s) :
    OutKeeps a (execMovLoad hub ch bits by1 s) :=
  movWrite_keeps h

theorem execMovAbort_keeps {hub : Hub} {ch : Fin 64} {bits : BitVec 3} {by1 : MovWriter} (h : Keeps a s) :
    OutKeeps a (execMovAbort hub ch bits by1 s) :=
  movWrite_keeps h

theorem execMovResume_keeps {hub : Hub} {ch : Fin 64} {bits : BitVec 3} {by1 : MovWriter} (h : Keeps a s) :
    OutKeeps a (execMovResume hub ch bits by1 s) :=
  movWrite_keeps h

theorem movPrio_keeps {hub : Hub} {c : Nat} {v : BitVec 32} {byHost : Bool} (h : Keeps a s) :
    Keeps a (s.movPrio hub c v byHost) :=
  ite_keeps (setChan_keeps h) h

theorem execMovPrioWrite_keeps {hub : Hub} {ch : Fin 64} {value : BitVec 32} {by1 : MovWriter} (h : Keeps a s) :
    OutKeeps a (execMovPrioWrite hub ch value by1 s) :=
  movPrio_keeps h

theorem granted_keeps {p : MovPort} {x : Hub × Fin 64} (h : Keeps a s) : Keeps a (s.granted p x) := h.of

theorem sideRead_keeps {x : Side} {hub : Hub} {lo hi : Nat} {got : Option (List Byte × Bool)} (h : Keeps a s) :
    Keeps a (s.sideRead x hub lo hi got).2 := by
  unfold State.sideRead
  extract_lets
  refine ite_keeps_snd h (ite_keeps_snd h (ite_keeps_snd ?_ (ite_keeps_snd h (fresh_keeps (w := 32768) h))))
  split <;> exact h

theorem sendReq_keeps {q : PnReq} (h : Keeps a s) : Keeps a (s.sendReq q) := sendMsg_keeps h.of

theorem windowWrite_keeps {l : LinkNo} {hub : Hub} {c prio : Nat} {ws : List (Nat × Byte × Bool)} (h : Keeps a s) :
    Keeps a (s.windowWrite l hub c prio ws) :=
  foldl_keeps (fun _ _ k1 => sendReq_keeps (ite_keeps_snd (fresh_keeps (w := 32768) k1) k1)) h

theorem sideWrite_keeps {x : Side} {hub : Hub} {c lo prio : Nat} {bytes : List (Byte × Bool)} (h : Keeps a s) :
    Keeps a (s.sideWrite x hub c lo prio bytes) := by
  unfold State.sideWrite
  extract_lets ws mem marks s1
  have k1 : Keeps a s1 := putMarkedBytes_keeps h
  exact ite_keeps (ite_keeps k1 (setPort_keeps k1))
    (ite_keeps h.of (ite_keeps (windowWrite_keeps h) (ite_keeps (setEngine_keeps h) h)))

theorem haltChan_keeps {hub : Hub} {c cause : Nat} {write late : Bool} (h : Keeps a s) :
    Keeps a (s.haltChan hub c cause write late) :=
  ite_keeps (setMovers_keeps (event_keeps (setChan_keeps h))) (event_keeps (setChan_keeps h))

theorem execBusError_keeps {hub : Hub} {ch : Fin 64} {cause : BusCause} {write : Bool} (h : Keeps a s) :
    OutKeeps a (execBusError hub ch cause write s) :=
  ite_keeps (haltChan_keeps h) h

theorem atSync_keeps {hub : Hub} {c : Nat} (h : Keeps a s) : Keeps a (s.atSync hub c) :=
  ite_keeps h (ite_keeps (setChan_keeps (sendFence_keeps h)) (setChan_keeps h))

/-- Unfolded as `batchRestore_keeps` unfolds, for the numbers its lets compute; the lets are named one level at a time,
since the kernel compares each level with the next. -/
theorem burst_keeps {hub : Hub} {c : Fin 64} {checkFails : Bool} (h : Keeps a s) :
    Keeps a (s.burst hub c checkFails) := by
  generalize e : @State.burst = f
  delta State.burst at e
  subst e
  beta_reduce
  extract_lets +onlyGivenNames _ _ _ _ _ _ _
  split
  · exact haltChan_keeps h
  · exact haltChan_keeps h
  · extract_lets +onlyGivenNames _
    split
    rename_i e1
    have k1 := Keeps.of_snd e1 (ite_keeps_snd h (sideRead_keeps h))
    split
    rename_i e2
    have k2 := Keeps.of_snd e2 (ite_keeps_snd (sideRead_keeps k1) k1)
    extract_lets +onlyGivenNames s3 _ _ _
    have k3 : Keeps a s3 := ite_keeps k2 (sideWrite_keeps k2)
    exact ite_keeps (setChan_keeps k3) (ite_keeps (setChan_keeps k3) (atSync_keeps (setChan_keeps k3)))

theorem askWindow_keeps {hub : Hub} {c : Fin 64} {side : Side} (h : Keeps a s) : Keeps a (s.askWindow hub c side) :=
  setChan_keeps (sendReq_keeps h)

theorem passPort_keeps {hub : Hub} {c : Fin 64} {checkFails : Bool} (h : Keeps a s) :
    Keeps a (s.passPort hub c checkFails) :=
  ite_keeps (burst_keeps h) h

theorem execBurstGrant_keeps {port : MovPort} {checkFails : Bool} (h : Keeps a s) :
    OutKeeps a (execBurstGrant port checkFails s) := by
  unfold execBurstGrant
  refine ite_outKeeps h ?_
  split
  · exact h
  · exact ite_outKeeps (askWindow_keeps (granted_keeps h)) (passPort_keeps (setChan_keeps (granted_keeps h)))

theorem execTransferComplete_keeps {hub : Hub} {ch : Fin 64} {confirmFails : Bool} (h : Keeps a s) :
    OutKeeps a (execTransferComplete hub ch confirmFails s) :=
  ite_outKeeps h (ite_outKeeps h (ite_keeps (eventPulse_keeps (setPort_keeps (setChan_keeps h))) (setPort_keeps
    (setChan_keeps h))))

theorem execChannelRetired_keeps {hub : Hub} {ch : Fin 64} (h : Keeps a s) :
    OutKeeps a (execChannelRetired hub ch s) :=
  retireChannel_keeps h

theorem directReq_keeps {hub : Hub} {v : BitVec 32} (h : Keeps a s) : Keeps a (s.directReq hub v) :=
  ite_keeps (setMovers_keeps h) (setMovers_keeps h)

theorem execMovDirectReq_keeps {hub : Hub} {value : BitVec 32} (h : Keeps a s) :
    OutKeeps a (execMovDirectReq hub value s) :=
  directReq_keeps h

theorem execDirectGrant_keeps {hub : Hub} (h : Keeps a s) : OutKeeps a (execDirectGrant hub s) := by
  unfold execDirectGrant
  extract_lets
  split
  · exact ite_outKeeps (setMovers_keeps h) h
  · exact h

/-! ### The vault and Penumbra requests (Machine/Vault.lean) -/

theorem setImage_keeps {i : Image} (h : Keeps a s) : Keeps a (s.setImage i) := h.of

theorem dropImage_keeps {slot : Nat} (h : Keeps a s) : Keeps a (s.dropImage slot) := h.of

theorem vaultAnswer_keeps {l : LinkNo} {tag status : Nat} {slot : Option Nat} {records : List (List Byte)}
    (h : Keeps a s) : Keeps a (s.vaultAnswer l tag status slot records) := by
  cases slot with
  | none => exact (fresh_keeps (w := 8) h).of
  | some n => exact h.of

theorem execVaultCreate_keeps {l : LinkNo} {tag : Fin 16} (h : Keeps a s) :
    OutKeeps a (execVaultCreate l tag s) := by
  unfold execVaultCreate
  split
  · refine ite_outKeeps h (ite_outKeeps (vaultAnswer_keeps h) ?_)
    split
    · exact vaultAnswer_keeps h
    · exact ite_outKeeps (vaultAnswer_keeps h) (vaultAnswer_keeps h.of)
  · exact h

theorem retain_keeps {i : Image} {n : Nat} (h : Keeps a s) : Keeps a (s.retain i n) :=
  ite_keeps h (foldl_keeps (fun _ _ k1 => dropImage_keeps k1) h)

theorem execVaultSeal_keeps {l : LinkNo} {tag : Fin 16} (h : Keeps a s) : OutKeeps a (execVaultSeal l tag s) := by
  unfold execVaultSeal
  split
  · refine ite_outKeeps h ?_
    extract_lets
    split
    · exact vaultAnswer_keeps h
    · refine ite_outKeeps (vaultAnswer_keeps h) ?_
      extract_lets _ s1 _ s2
      have k1 : Keeps a s1 := setImage_keeps h
      have k2 : Keeps a s2 := k1.of
      exact vaultAnswer_keeps (retain_keeps k2)
  · exact h

theorem execVaultDrop_keeps {l : LinkNo} {tag : Fin 16} (h : Keeps a s) : OutKeeps a (execVaultDrop l tag s) := by
  unfold execVaultDrop
  split
  · refine ite_outKeeps h ?_
    extract_lets
    split
    · exact vaultAnswer_keeps h
    · exact vaultAnswer_keeps (dropImage_keeps h)
  · exact h

theorem execVaultList_keeps {l : LinkNo} {tag : Fin 16} (h : Keeps a s) : OutKeeps a (execVaultList l tag s) := by
  unfold execVaultList
  split
  · exact ite_outKeeps h (vaultAnswer_keeps h)
  · exact h

theorem execVaultStatus_keeps {l : LinkNo} {tag : Fin 16} (h : Keeps a s) :
    OutKeeps a (execVaultStatus l tag s) := by
  unfold execVaultStatus
  split
  · exact ite_outKeeps h (vaultAnswer_keeps h)
  · exact h

theorem execWritingImageExpiry_keeps {slot : Fin 256} (h : Keeps a s) :
    OutKeeps a (execWritingImageExpiry slot s) := by
  unfold execWritingImageExpiry
  split
  · exact ite_keeps (dropImage_keeps h) h
  · exact h

theorem execVaultQuery_keeps {d : Desc} (h : Keeps a s) : OutKeeps a (execVaultQuery d s) :=
  withDesc_keeps h (fun _ _ k1 => complete_keeps (fresh_keeps (w := 64) k1))

theorem execVaultRelease_keeps {d : Desc} (h : Keeps a s) : OutKeeps a (execVaultRelease d s) := by
  unfold execVaultRelease
  refine withDesc_keeps h (fun _ _ k1 => ?_)
  split
  · exact complete_keeps k1
  · exact complete_keeps (fresh_keeps (w := 64) (dropImage_keeps k1))

theorem execCkptBind_keeps {d : Desc} (h : Keeps a s) : OutKeeps a (execCkptBind d s) := by
  unfold execCkptBind
  refine withDesc_keeps h (fun _ _ k1 => ?_)
  split
  · exact complete_keeps k1
  · exact complete_keeps (fresh_keeps (w := 64) (setCtx_keeps k1))

theorem land_keeps {l : LinkNo} {wseq : BitVec 32} (h : Keeps a s) : Keeps a (s.land l wseq) :=
  raiseSignals_keeps (setLink_keeps h)

theorem pnAnswer_keeps {l : LinkNo} {write poison : Bool} {m : PnMsg} {status : Nat} {arg : BitVec 64}
    {data : List Byte} (h : Keeps a s) : Keeps a (s.pnAnswer l write m status poison arg data) :=
  sendMsg_keeps h

theorem windowRead_keeps {l : LinkNo} {m : PnMsg} (h : Keeps a s) : Keeps a (s.windowRead l m) := by
  unfold State.windowRead
  extract_lets
  split
  · exact pnAnswer_keeps h
  · exact ite_keeps (pnAnswer_keeps h) (ite_keeps (pnAnswer_keeps h) (pnAnswer_keeps h))

theorem vaultRead_keeps {l : LinkNo} {m : PnMsg} (h : Keeps a s) : Keeps a (s.vaultRead l m) := by
  unfold State.vaultRead
  extract_lets _ _ s1
  have k1 : Keeps a s1 := pnAnswer_keeps h
  refine ite_keeps ?_ (ite_keeps ?_ k1)
  · split
    · exact ite_keeps k1 (pnAnswer_keeps h)
    · exact h
    · exact k1
  · split
    · exact ite_keeps k1 (pnAnswer_keeps h)
    · exact k1

theorem execPnRd_keeps {l : LinkNo} {m : PnMsg} (h : Keeps a s) : OutKeeps a (execPnRd l m s) :=
  ite_outKeeps h (ite_keeps (vaultRead_keeps h) (windowRead_keeps h))

theorem windowTake_keeps {l : LinkNo} {m : PnMsg} (h : Keeps a s) : Keeps a (s.windowTake l m) := by
  unfold State.windowTake
  extract_lets
  split
  · exact pnAnswer_keeps h
  · extract_lets
    refine ite_keeps (pnAnswer_keeps h) (ite_keeps (pnAnswer_keeps h) (ite_keeps (pnAnswer_keeps h) ?_))
    split
    · exact pnAnswer_keeps h
    · exact land_keeps (pnAnswer_keeps (setPeer_keeps h))

theorem vaultTake_keeps {l : LinkNo} {m : PnMsg} (h : Keeps a s) : Keeps a (s.vaultTake l m) := by
  unfold State.vaultTake
  extract_lets _ _ s1
  have k1 : Keeps a s1 := pnAnswer_keeps h
  refine ite_keeps (land_keeps (pnAnswer_keeps h.of)) (ite_keeps ?_ k1)
  split
  · exact ite_keeps k1 (land_keeps (pnAnswer_keeps (setImage_keeps h)))
  · exact k1

theorem execPnWr_keeps {l : LinkNo} {m : PnMsg} (h : Keeps a s) : OutKeeps a (execPnWr l m s) :=
  ite_outKeeps h (ite_outKeeps (pnAnswer_keeps h) (ite_keeps (vaultTake_keeps h) (windowTake_keeps h)))

/-! ### Scrubbing and targeted tests (Machine/Reliab.lean) -/

theorem setRepair_keeps {r : Repair} (h : Keeps a s) : Keeps a (s.setRepair r) := h.of

theorem replaceSlice_keeps {hub : Hub} {b slice : Fin 16} (h : Keeps a s) : Keeps a (s.replaceSlice hub b slice) :=
  ite_keeps h (ite_keeps (substituted_keeps (recordRetired_keeps (setRepair_keeps h))) (freezeUnit_keeps
    (substituted_keeps (recordRetired_keeps (setRepair_keeps h)))))

theorem retireRow_keeps {hub : Hub} {b : Fin 16} {row : Fin 2048} (h : Keeps a s) :
    Keeps a (s.retireRow hub b row) :=
  ite_keeps (replaceSlice_keeps (substituted_keeps (recordRetired_keeps h))) (ite_keeps (replaceSlice_keeps
    (substituted_keeps (recordRetired_keeps (setRepair_keeps h)))) (substituted_keeps (recordRetired_keeps
    (setRepair_keeps h))))

theorem retirePage_keeps {k : Stack} {frame : Nat} (h : Keeps a s) : Keeps a (s.retirePage k frame) :=
  ite_keeps h (ite_keeps (freezeUnit_keeps (substituted_keeps (recordRetired_keeps (setRepair_keeps h))))
    (substituted_keeps (recordRetired_keeps (setRepair_keeps h))))

theorem execRowRetire_keeps {hub : Hub} {bank : Fin 16} {row : Fin 2048} (h : Keeps a s) :
    OutKeeps a (execRowRetire hub bank row s) :=
  retireRow_keeps h

theorem execSliceReplace_keeps {hub : Hub} {bank slice : Fin 16} (h : Keeps a s) :
    OutKeeps a (execSliceReplace hub bank slice s) :=
  replaceSlice_keeps h

theorem execPageRetire_keeps {k : Stack} {frame : Fin 32768} (h : Keeps a s) :
    OutKeeps a (execPageRetire k frame s) :=
  retirePage_keeps h

theorem sliceDue_keeps {u : UnitName} (h : Keeps a s) : Keeps a (s.sliceDue u) := by
  unfold State.sliceDue
  split
  · exact ite_keeps h h.of
  · exact h

theorem returnUnit_keeps {u : UnitName} (h : Keeps a s) : Keeps a (s.returnUnit u) := by
  unfold State.returnUnit
  extract_lets
  split
  · exact ite_keeps (setHealth_keeps (setEngine_keeps h)) h
  · exact setMovers_keeps h
  · exact ite_keeps (setLink_keeps h) (setLink_keeps h)
  · exact h

theorem retiredAlone_keeps {u : UnitName} (h : Keeps a s) : Keeps a (s.retiredAlone u) :=
  substituted_keeps (recordRetired_keeps h)

theorem retireUnit_keeps {u : UnitName} (h : Keeps a s) : Keeps a (s.retireUnit u) := by
  unfold State.retireUnit
  extract_lets _ _ _ _ s1
  have k1 : Keeps a s1 := retiredAlone_keeps (setPort_keeps h)
  split
  · exact ite_keeps h (retireCore_keeps (substituted_keeps (recordRetired_keeps h)))
  · exact retireEngine_keeps h
  · exact retireLane_keeps h
  · exact retireChannel_keeps h
  · exact h
  · exact h
  · exact h
  · exact freezeUnit_keeps (retiredAlone_keeps (setRepair_keeps h))
  · exact unitOut_keeps (retiredAlone_keeps h)
  · exact substituted_keeps (recordRetired_keeps h)
  · exact event_keeps k1
  · exact freezeUnit_keeps (retiredAlone_keeps h)
  · exact retiredAlone_keeps h

theorem judge_keeps {t : UnderTest} {passed : Bool} (h : Keeps a s) : Keeps a (s.judge t passed) := by
  unfold State.judge
  extract_lets
  split
  exact ite_keeps (retireUnit_keeps (journal_keeps (cper_keeps (event_keeps h)))) (sliceDue_keeps (returnUnit_keeps
    (journal_keeps (cper_keeps (event_keeps h)))))

theorem onUnit_keeps {unit : UnitName} {act : State → State} (h : Keeps a s)
    (k : ∀ u, Keeps a u → Keeps a (act u)) : OutKeeps a (s.onUnit unit act) :=
  ite_outKeeps (OutKeeps.next (k s h)) trivial

theorem execTargetedTest_keeps {unit : UnitName} {cls : Fin 12} (h : Keeps a s) :
    OutKeeps a (execTargetedTest unit cls s) :=
  onUnit_keeps h (fun _ k1 => ite_keeps (sendTest_keeps k1) k1)

theorem testOver_keeps {u : UnitName} (h : Keeps a s) : Keeps a (s.testOver u) := setHealth_keeps h

theorem execTestDecision_keeps {unit : UnitName} {passed : Bool} (h : Keeps a s) :
    OutKeeps a (execTestDecision unit passed s) := by
  unfold execTestDecision
  refine onUnit_keeps h (fun _ k1 => ?_)
  split
  · exact ite_keeps (setHealth_keeps (judge_keeps (testOver_keeps k1))) (judge_keeps (testOver_keeps k1))
  · exact k1

theorem poisonHome_keeps {k : HKey} {block : Nat} (h : Keeps a s) : Keeps a (s.poisonHome k block) := by
  unfold State.poisonHome
  split
  · exact ite_keeps h (poisonCreated_keeps (setHandle_keeps h))
  · exact h

theorem poisonImage_keeps {slot block : Nat} (h : Keeps a s) : Keeps a (s.poisonImage slot block) := by
  unfold State.poisonImage
  split
  · exact notice_keeps (ite_keeps h (poisonCreated_keeps (setImage_keeps h)))
  · exact h

theorem poisonPending_keeps {slot : Nat} {k : HKey} (h : Keeps a s) : Keeps a (s.poisonPending slot k) := by
  unfold State.poisonPending
  extract_lets
  split
  · exact ite_keeps (poisonCreated_keeps (setGroup_keeps h)) h
  · exact h

theorem scrubLost_keeps {hub : Hub} {unit : UnitName} {holds : ScrubHolds} (h : Keeps a s) :
    Keeps a (s.scrubLost hub unit holds) := by
  unfold State.scrubLost
  extract_lets s1
  have k1 : Keeps a s1 := by
    unfold s1
    split
    · exact poisonHome_keeps h
    · exact poisonCreated_keeps h
    · exact poisonImage_keeps h
    · exact poisonPending_keeps h
    · exact h
    · exact h
    · exact foldl_keeps (fun _ _ k2 => poisonHome_keeps k2) h
  exact sendTest_keeps k1

theorem countCorrected_keeps {u : UnitName} (h : Keeps a s) : Keeps a (s.countCorrected u) := setRepair_keeps h

theorem scrubCorrected_keeps {u : UnitName} (h : Keeps a s) : Keeps a (s.scrubCorrected u) := by
  unfold State.scrubCorrected
  extract_lets s1 s2
  have k1 : Keeps a s1 := countCorrected_keeps h
  have k2 : Keeps a s2 := event_keeps k1
  split
  · exact ite_keeps (sendTest_keeps (cper_keeps k2)) k1
  · exact k1

theorem scrubDevice_keeps {u : UnitName} {pc : Fin 64} {lane : Fin 9} (h : Keeps a s) :
    Keeps a (s.scrubDevice u pc lane) :=
  sendTest_keeps (cper_keeps (event_keeps (setRepair_keeps h)))

theorem execScrubPass_keeps {hub : Hub} {unit : UnitName} {holds : ScrubHolds} {f : ScrubFinding} (h : Keeps a s) :
    OutKeeps a (execScrubPass hub unit holds f s) := by
  refine onUnit_keeps h fun u k => ite_keeps k ?_
  have k1 : Keeps a (u.touch hub (scrubDomain unit).val) := touch_keeps k
  split
  · exact k
  · split
    · rename_i e
      exact OutKeeps.of_eq e (execWakeRequest_keeps k)
    · exact k
    · exact k
  · exact k
  · extract_lets s1
    split
    · exact k1
    · exact scrubCorrected_keeps k1
    · exact ite_keeps (scrubDevice_keeps (scrubCorrected_keeps k1)) k1
    · exact scrubLost_keeps k1
    · split
      · exact poisonHome_keeps k1
      · exact scrubLost_keeps k1

/-! ### Self-test and in-field tests (Machine/Bist.lean) -/

theorem setBist_keeps {b : Bist} (h : Keeps a s) : Keeps a (s.setBist b) := h.of

theorem logicCoverage_keeps {hub : Hub} (h : Keeps a s) : Keeps a (s.logicCoverage hub).2 :=
  ite_keeps_snd h (ite_keeps_snd h (fresh_keeps (w := 16) h))

theorem closeRun_keeps (h : Keeps a s) : Keeps a s.closeRun := by
  unfold State.closeRun
  extract_lets
  split
  rename_i e0
  have k0 := Keeps.of_snd e0 (logicCoverage_keeps h)
  split
  rename_i e1
  have k1 := Keeps.of_snd e1 (logicCoverage_keeps k0)
  split
  rename_i e2
  have k2 := Keeps.of_snd e2 (logicCoverage_keeps k1)
  split
  rename_i e3
  have k3 := Keeps.of_snd e3 (logicCoverage_keeps k2)
  exact event_keeps (journal_keeps (setBist_keeps k3))

theorem closeIfDone_keeps (h : Keeps a s) : Keeps a s.closeIfDone := ite_keeps (closeRun_keeps h) h

theorem beginRun_keeps {state kind budget : Nat} (h : Keeps a s) : Keeps a (s.beginRun state kind budget) :=
  setBist_keeps h

theorem execShutdownTest_keeps {hub : Hub} (h : Keeps a s) : OutKeeps a (execShutdownTest hub s) := by
  unfold execShutdownTest
  extract_lets
  refine ite_outKeeps h ?_
  split
  · exact ite_outKeeps (closeIfDone_keeps h) (closeIfDone_keeps (beginRun_keeps h.of))
  · exact closeIfDone_keeps h

theorem execSliceStart_keeps {hub : Hub} {row : Fin 10} {unit : Fin 128} (h : Keeps a s) :
    OutKeeps a (execSliceStart hub row unit s) := by
  unfold execSliceStart
  extract_lets
  refine ite_outKeeps h ?_
  split
  · exact ite_outKeeps h (ite_outKeeps (linkState_keeps (leaveSession_keeps (journal_keeps (setBist_keeps h))))
      (journal_keeps (setBist_keeps h)))
  · exact h

theorem reinit_keeps {u : UnitName} (h : Keeps a s) : Keeps a (s.reinit u) := by
  unfold State.reinit
  extract_lets
  split
  · exact bumpEpoch_keeps h.of
  · exact bumpEpoch_keeps h.of
  · exact bumpEpoch_keeps (setMovers_keeps h)
  · exact bumpEpoch_keeps h.of
  · exact bumpEpoch_keeps (setSync_keeps h)
  · exact bumpEpoch_keeps (setLink_keeps h)
  · exact bumpEpoch_keeps h.of
  · exact bumpEpoch_keeps h

theorem appendRecord_keeps {r : RunningSlice} {res : SliceResult} {fails i : Nat} {u : UnitName} (h : Keeps a s) :
    Keeps a (s.appendRecord r res fails i u) := by
  unfold State.appendRecord
  split
  exact journal_keeps (setBist_keeps (ite_keeps_snd h (fresh_keeps (w := 16) h)))

theorem endSlice_keeps {r : RunningSlice} {res : SliceResult} {fails : List (BitVec 128)} (h : Keeps a s) :
    Keeps a (s.endSlice r res fails) := by
  unfold State.endSlice
  extract_lets _ _ _ _ _ _ _ _ s1 s2 s3 _ _ s4 s5
  have k1 : Keeps a s1 := setBist_keeps h
  have k2 : Keeps a s2 := foldl_keeps (fun _ _ k3 => appendRecord_keeps k3) k1
  have k4 : Keeps a s3 := ite_keeps k2 (foldl_keeps (fun _ _ k5 => reinit_keeps k5) k2)
  have k6 : Keeps a s4 := setRepair_keeps k4
  have k7 : Keeps a s5 := foldl_keeps (fun _ _ k8 => journal_keeps k8) k6
  exact ite_keeps (setBist_keeps k7) k4

theorem execSliceEnd_keeps {hub : Hub} {row : Fin 10} {unit : Fin 128} {r : SliceResult} {fails : List (BitVec 128)}
    (h : Keeps a s) : OutKeeps a (execSliceEnd hub row unit r fails s) := by
  unfold execSliceEnd
  extract_lets
  split
  · exact closeIfDone_keeps (endSlice_keeps h)
  · exact h

theorem execSliceTimeout_keeps {hub : Hub} {row : Fin 10} {unit : Fin 128} (h : Keeps a s) :
    OutKeeps a (execSliceTimeout hub row unit s) := by
  unfold execSliceTimeout
  extract_lets
  split
  · exact ite_keeps (closeIfDone_keeps (endSlice_keeps h)) h
  · exact h

theorem bistStart_keeps (h : Keeps a s) : Keeps a s.bistStart :=
  ite_keeps (setBist_keeps h) (closeIfDone_keeps (beginRun_keeps h))

theorem execBistStart_keeps (h : Keeps a s) : OutKeeps a (execBistStart s) := bistStart_keeps h

theorem duplicateNow_keeps {hub : Hub} {e : Nat} (h : Keeps a s) : Keeps a (s.duplicateNow hub e) := by
  unfold State.duplicateNow
  extract_lets
  split
  · exact setEngine_keeps h
  · exact h

theorem fallDue_keeps {u : UnitName} (h : Keeps a s) : Keeps a (s.fallDue u) :=
  ite_keeps (duplicateNow_keeps (setHealth_keeps h)) (setHealth_keeps h)

theorem execFieldTestDue_keeps {unit : UnitName} (h : Keeps a s) : OutKeeps a (execFieldTestDue unit s) :=
  onUnit_keeps h (fun _ k1 => ite_keeps (fallDue_keeps k1) k1)

theorem startField_keeps {u : UnitName} (h : Keeps a s) : Keeps a (s.startField u) := by
  unfold State.startField
  extract_lets _ s1
  have k1 : Keeps a s1 := ite_keeps h (quiesce_keeps h)
  split
  exact setHealth_keeps k1

theorem execFieldTestStart_keeps {unit : UnitName} (h : Keeps a s) : OutKeeps a (execFieldTestStart unit s) :=
  onUnit_keeps h (fun _ k1 => ite_keeps (startField_keeps k1) k1)

theorem execDeferTimeout_keeps {unit : UnitName} (h : Keeps a s) : OutKeeps a (execDeferTimeout unit s) := by
  unfold execDeferTimeout
  refine onUnit_keeps h (fun _ k1 => ?_)
  split
  · exact ite_keeps (event_keeps (startField_keeps (ite_keeps (quiesce_keeps k1) k1))) k1
  · exact k1

theorem execFieldTestEnd_keeps {unit : UnitName} {passed : Bool} (h : Keeps a s) :
    OutKeeps a (execFieldTestEnd unit passed s) := by
  unfold execFieldTestEnd
  refine onUnit_keeps h (fun _ k1 => ?_)
  extract_lets _ s1 s2 s3
  have k2 : Keeps a s1 := event_keeps (testOver_keeps k1)
  have k3 : Keeps a s2 := ite_keeps (bumpEpoch_keeps k2) (reinit_keeps k2)
  have k4 : Keeps a s3 := returnUnit_keeps k3
  split
  · exact ite_keeps (setHealth_keeps k4) (judge_keeps k2)
  · exact k1

theorem execBistGrant_keeps {d : Desc} (h : Keeps a s) : OutKeeps a (execBistGrant d s) :=
  withDesc_keeps h (fun _ _ k1 => complete_keeps (setBist_keeps k1))

theorem execBistResults_keeps {d : Desc} (h : Keeps a s) : OutKeeps a (execBistResults d s) := by
  unfold execBistResults
  extract_lets
  refine withDesc_keeps h (fun _ _ k1 => ?_)
  extract_lets
  split
  · exact complete_keeps k1
  · exact complete_keeps (fresh_keeps (w := 512) k1)

theorem execBistFailView_keeps {d : Desc} (h : Keeps a s) : OutKeeps a (execBistFailView d s) :=
  withDesc_keeps h (fun _ _ k1 => complete_keeps k1)

theorem execBistFieldNow_keeps {d : Desc} (h : Keeps a s) : OutKeeps a (execBistFieldNow d s) :=
  withDesc_keeps h (fun _ _ k1 => complete_keeps (ite_keeps (fallDue_keeps k1) k1))

/-! ### The recorder and the history store (Machine/Recorder.lean) -/

theorem execEventRecord_keeps {hub : Hub} (h : Keeps a s) : OutKeeps a (execEventRecord hub s) := by
  unfold execEventRecord
  extract_lets
  split
  · exact h
  · refine OutKeeps.next ?_
    split
    · exact ite_keeps (journal_keeps (setRecorder_keeps h)) (setRecorder_keeps h)
    · exact setRecorder_keeps h

theorem evrReadSlotWrite_keeps {hub : Hub} {v : BitVec 32} (h : Keeps a s) : Keeps a (s.evrReadSlotWrite hub v) :=
  setRecorder_keeps h

theorem execEvrReadSlotWrite_keeps {hub : Hub} {v : BitVec 32} (h : Keeps a s) :
    OutKeeps a (execEvrReadSlotWrite hub v s) :=
  evrReadSlotWrite_keeps h

theorem execEvrRead_keeps {d : Desc} (h : Keeps a s) : OutKeeps a (execEvrRead d s) := by
  unfold execEvrRead
  extract_lets
  exact withDesc_keeps h (fun _ _ k1 => ite_keeps (complete_keeps k1) (by split <;> exact complete_keeps k1))

theorem execEvrCperRead_keeps {d : Desc} (h : Keeps a s) : OutKeeps a (execEvrCperRead d s) :=
  withDesc_keeps h (fun _ _ k1 => complete_keeps k1)

theorem execEvrNonce_keeps {d : Desc} (h : Keeps a s) : OutKeeps a (execEvrNonce d s) :=
  withDesc_keeps h (fun _ _ k1 => ite_keeps (complete_keeps k1) (complete_keeps (fresh_keeps (w := 64) k1).of))

theorem authFail_keeps {t : Ticket} {opcode : Nat} (h : Keeps a s) : Keeps a (s.authFail t opcode) :=
  complete_keeps (event_keeps (setRecorder_keeps h.of))

theorem clearRecords_keeps {scope : Nat} (h : Keeps a s) : Keeps a (s.clearRecords scope) := by
  unfold State.clearRecords
  extract_lets s1 _ _ _ s2
  have k1 : Keeps a s1 := foldl_keeps (fun _ _ k2 => setRecorder_keeps k2) h
  have k3 : Keeps a s2 := k1.of
  exact ite_keeps k3.of k3

theorem execEvrClear_keeps {d : Desc} (h : Keeps a s) : OutKeeps a (execEvrClear d s) := by
  unfold execEvrClear
  refine withDesc_keeps h (fun _ _ k1 => ?_)
  split
  · exact complete_keeps k1
  · extract_lets _ _ _ _ s1
    have k2 : Keeps a s1 := k1.of
    split
    · exact ite_keeps (complete_keeps (clearRecords_keeps k2)) (authFail_keeps k1)
    · exact authFail_keeps k1

theorem execEvrProvision_keeps {d : Desc} (h : Keeps a s) : OutKeeps a (execEvrProvision d s) := by
  unfold execEvrProvision
  refine withDesc_keeps h (fun _ _ k1 => ?_)
  extract_lets
  split
  · exact ite_keeps (complete_keeps (event_keeps k1.of)) (authFail_keeps k1)
  · split
    · exact ite_keeps (complete_keeps (event_keeps k1.of)) (authFail_keeps k1)
    · exact authFail_keeps k1

theorem execNonceLockoutEnd_keeps (h : Keeps a s) : OutKeeps a (execNonceLockoutEnd s) := by
  unfold execNonceLockoutEnd
  split
  · exact ite_outKeeps h.of h
  · exact h

theorem setStore_keeps {st : Store} (h : Keeps a s) : Keeps a (s.setStore st) := h.of

theorem execJournalWrite_keeps (h : Keeps a s) : OutKeeps a (execJournalWrite s) := by
  unfold execJournalWrite
  split
  · exact h
  · exact ite_outKeeps (setStore_keeps h.of) h

theorem execJournalCompact_keeps (h : Keeps a s) : OutKeeps a (execJournalCompact s) :=
  ite_outKeeps (setStore_keeps h) h

theorem execStoreFault_keeps (h : Keeps a s) : OutKeeps a (execStoreFault s) := alert_keeps (setStore_keeps h)

/-! ### Firmware, start, reset and shut-down (Machine/Start.lean) -/

theorem journalSlots_keeps (h : Keeps a s) : Keeps a s.journalSlots := journal_keeps h

theorem useSlot_keeps {i : Option Nat} (h : Keeps a s) : Keeps a (s.useSlot i) := h.setFw (SameFuses.refl s.fw)

theorem slotCheck_keeps {atStart : Bool} (h : Keeps a s) : Keeps a (s.slotCheck atStart) := by
  unfold State.slotCheck
  split
  · exact useSlot_keeps h
  · refine ite_keeps (journalSlots_keeps (useSlot_keeps (h.setFw (SameFuses.refl s.fw).setSlot))) ?_
    extract_lets fw j y ok fw2 s2 s3
    have e1 : SameFuses fw s.fw := (SameFuses.refl s.fw).setSlot
    have e2 : SameFuses fw2 s.fw := by
      unfold fw2
      split
      · exact e1.setSlot
      · exact e1
    have k2 : Keeps a s2 := journalSlots_keeps (useSlot_keeps (h.setFw e2))
    have k3 : Keeps a s3 := alert_keeps (event_keeps k2)
    exact notice_keeps (fresh_keeps (w := 48) k3)

theorem execPatchBankSwitch_keeps {hub : Hub} {core : Fin 7} (h : Keeps a s) :
    OutKeeps a (execPatchBankSwitch hub core s) := by
  unfold execPatchBankSwitch
  split
  · exact h
  · exact ite_outKeeps h (OutKeeps.next (h.setFw (SameFuses.refl s.fw)))

theorem execImageLoad_keeps {d : Desc} (h : Keeps a s) : OutKeeps a (execImageLoad d s) := by
  refine withDesc_keeps h fun t u k => ?_
  extract_lets b bad
  refine ite_keeps (complete_keeps k) ?_
  cases bad with
  | some e => exact complete_keeps k
  | none =>
    exact ite_keeps (complete_keeps k) (ite_keeps (complete_keeps (k.setFw (SameFuses.refl u.fw)))
      (complete_keeps (journalSlots_keeps (k.setFw (SameFuses.refl u.fw).setSlot))))

theorem execSlotQuery_keeps {d : Desc} (h : Keeps a s) : OutKeeps a (execSlotQuery d s) :=
  withDesc_keeps h (fun _ _ k1 => complete_keeps k1)

theorem retrainAll_keeps (h : Keeps a s) : Keeps a s.retrainAll :=
  foldl_keeps (fun _ _ k1 => ite_keeps (linkRetrainNow_keeps k1) k1) h

theorem execSlotActivate_keeps {d : Desc} (h : Keeps a s) : OutKeeps a (execSlotActivate d s) := by
  refine withDesc_keeps h fun t u k => ?_
  extract_lets i x
  refine ite_keeps (complete_keeps k) ?_
  split
  rename_i e
  have k1 := Keeps.of_snd e (fresh_keeps (w := 64) k)
  extract_lets prev y fw s2 s3
  have k2 : Keeps a s2 := journalSlots_keeps (k1.setFw (SameFuses.refl _).setSlot.setSlot)
  have k3 : Keeps a s3 := ite_keeps (retrainAll_keeps (slotCheck_keeps k2)) k2
  exact complete_keeps k3

/-- A fuse counter that does not fall, and a slot written (R628). -/
theorem raisedFuse_keeps {fuse : BitVec 16} (h : Keeps a s) (hf : s.fw.svnFuse.toNat ≤ fuse.toNat) {i : Nat}
    {x : FwSlot} :
    Keeps a { s with fw := ({ s.fw with svnFuse := fuse } : Firmware).setSlot i x } := by
  have e : SameFuses (({ s.fw with svnFuse := fuse } : Firmware).setSlot i x) { s.fw with svnFuse := fuse } :=
    (SameFuses.refl _).setSlot
  exact ⟨h.pending, h.free, h.host, by rw [e.1]; exact h.svn.trans hf, e.2.1.trans h.pack, e.2.2.trans h.revoked⟩

theorem execSlotConfirm_keeps {d : Desc} (h : Keeps a s) : OutKeeps a (execSlotConfirm d s) := by
  refine withDesc_keeps h fun t u k => ?_
  split
  · refine ite_keeps (complete_keeps (journalSlots_keeps (raisedFuse_keeps k ?_))) (complete_keeps k)
    split <;> omega
  · exact complete_keeps k

/-- A reset leaves the queue, the free values, host memory and the fuses as they are. -/
theorem afterReset_keeps {lv : Level} {cause : Nat} (h : Keeps a s) : Keeps a (s.afterReset lv cause) :=
  h.withFw rfl rfl rfl

theorem setPins_keeps {p : Pins} (h : Keeps a s) : Keeps a (s.setPins p) := h.of

theorem execRstNAssert_keeps (h : Keeps a s) : OutKeeps a (execRstNAssert s) :=
  ite_outKeeps h (ite_keeps (afterReset_keeps (setPins_keeps h)) (setPins_keeps h))

theorem dropMarkers_keeps (h : Keeps a s) : Keeps a s.dropMarkers := h.of

theorem execPgoodFall_keeps (h : Keeps a s) : OutKeeps a (execPgoodFall s) := by
  unfold execPgoodFall
  extract_lets _ s1
  have k1 : Keeps a s1 := afterReset_keeps (setPins_keeps h)
  exact ite_outKeeps h k1.of

theorem closeStopped_keeps (h : Keeps a s) : Keeps a s.closeStopped :=
  ite_keeps h (setBist_keeps (closeRun_keeps (foldl_keeps (fun _ _ k1 => endSlice_keeps k1) h)))

theorem reportDecided_keeps (h : Keeps a s) : Keeps a s.reportDecided := by
  unfold State.reportDecided
  extract_lets _ s1
  have k1 : Keeps a s1 := foldl_keeps (fun _ _ k2 => (by split; exact cper_keeps k2)) h
  exact setBist_keeps k1

theorem retestTimedOut_keeps (h : Keeps a s) : Keeps a s.retestTimedOut := by
  unfold State.retestTimedOut
  extract_lets _ s1
  have k1 : Keeps a s1 := by
    refine foldl_keeps (fun _ _ k2 => ?_) h
    extract_lets _ s2
    have k3 : Keeps a s2 := quiesce_keeps k2
    split
    exact setHealth_keeps k3
  exact setBist_keeps k1

theorem domainsOn_keeps (h : Keeps a s) : Keeps a s.domainsOn := h.of

theorem startEpoch_keeps {warm : Bool} (h : Keeps a s) : Keeps a (s.startEpoch warm) :=
  ite_keeps h.of (journal_keeps h.of)

theorem beginStart_keeps (h : Keeps a s) : Keeps a s.beginStart := by
  unfold State.beginStart
  extract_lets _ _ _ _ _ _ s1 s2 s3 s4 s5
  have k1 : Keeps a s1 := h.of
  have k2 : Keeps a s2 := domainsOn_keeps (dropMarkers_keeps (startEpoch_keeps k1))
  have k3 : Keeps a s3 := reportDecided_keeps (retestTimedOut_keeps (closeStopped_keeps k2))
  have k4 : Keeps a s4 := ite_keeps (slotCheck_keeps k3) (useSlot_keeps k3)
  have k5 : Keeps a s5 := eventAll_keeps k4
  exact ite_keeps (quenchNow_keeps k5) k5

theorem execStart_keeps {pgood rstN : Bool} (h : Keeps a s) : OutKeeps a (execStart pgood rstN s) := by
  unfold execStart
  extract_lets _ _ s1
  have k1 : Keeps a s1 := setPins_keeps h
  exact ite_outKeeps (ite_outKeeps (beginStart_keeps k1) k1) (ite_outKeeps k1.of k1)

theorem levelEvent_keeps {level : Nat} (h : Keeps a s) : Keeps a (s.levelEvent level) := eventAll_keeps h

theorem execRingLevel_keeps (h : Keeps a s) : OutKeeps a (execRingLevel s) :=
  ite_outKeeps h (foldl_keeps (fun _ _ k1 => notice_keeps k1) (levelEvent_keeps h.of))

theorem calibrated_keeps {unit : BitVec 16} {c : CalState} (h : Keeps a s) : Keeps a (s.calibrated unit c) :=
  ite_keeps (event_keeps (journal_keeps h.of)) (journal_keeps h.of)

theorem calibrateNew_keeps {unit : BitVec 16} (h : Keeps a s) : Keeps a (s.calibrateNew unit) :=
  ite_keeps h (calibrated_keeps h)

theorem execUmbraReady_keeps {out : BitVec 8} (h : Keeps a s) : OutKeeps a (execUmbraReady out s) :=
  ite_outKeeps h (notice_keeps (levelEvent_keeps (foldl_keeps (fun _ _ k1 => ite_keeps k1 (calibrateNew_keeps k1))
    h.of)))

theorem execLinksReady_keeps (h : Keeps a s) : OutKeeps a (execLinksReady s) :=
  ite_outKeeps h (notice_keeps (levelEvent_keeps (foldl_keeps (fun _ _ k1 => foldl_keeps
    (fun _ _ k2 => calibrateNew_keeps k2) k1) h.of)))

theorem applyRetired_keeps (h : Keeps a s) : Keeps a s.applyRetired := by
  unfold State.applyRetired
  refine foldl_keeps (fun _ _ k1 => ?_) h
  extract_lets _ _ s1
  have k2 : Keeps a s1 := engineSpareIn_keeps k1
  split
  · exact retireCore_keeps k1
  · exact ite_keeps k1 (setHealth_keeps k2)
  · exact laneTake_keeps k1
  · exact channelTake_keeps k1
  · exact setPort_keeps k1
  · exact k1

theorem firstTraining_keeps (h : Keeps a s) : Keeps a s.firstTraining :=
  foldl_keeps (fun _ _ k1 => ite_keeps (linkTrain_keeps k1) k1) h.of

theorem blankHistory_keeps (h : Keeps a s) : Keeps a s.blankHistory := h.withFw rfl rfl rfl

theorem execJournalReadAtStart_keeps {readable : Bool} (h : Keeps a s) :
    OutKeeps a (execJournalReadAtStart readable s) := by
  unfold execJournalReadAtStart
  extract_lets
  refine ite_outKeeps h (ite_outKeeps ?_ (ite_outKeeps (firstTraining_keeps (blankHistory_keeps (setStore_keeps
    h))) (firstTraining_keeps (applyRetired_keeps (setStore_keeps h)))))
  exact firstTraining_keeps (notice_keeps (useSlot_keeps (setStore_keeps (fresh_keeps (w := 32) h).of)))

theorem beginShutdown_keeps {warm : Bool} {drainMs : Nat} {t : Option Ticket} (h : Keeps a s) :
    Keeps a (s.beginShutdown warm drainMs t) := by
  unfold State.beginShutdown
  extract_lets _ s1 _ s2 _ s3 s4
  have k1 : Keeps a s1 := foldl_keeps (fun _ _ k => sliceDue_keeps k) h
  have k2 : Keeps a s2 := k1.of
  have k3 : Keeps a s3 := setBist_keeps k2
  have k4 : Keeps a s4 := event_keeps k3
  exact k4.of

theorem execShdnReq_keeps (h : Keeps a s) : OutKeeps a (execShdnReq s) :=
  ite_outKeeps h ((notice_keeps (setPins_keeps h)).of)

theorem execGraceExpiry_keeps (h : Keeps a s) : OutKeeps a (execGraceExpiry s) := by
  unfold execGraceExpiry
  split
  · exact ite_keeps (beginShutdown_keeps h) h
  · exact h

theorem execShutdown_keeps {d : Desc} (h : Keeps a s) : OutKeeps a (execShutdown d s) :=
  withDesc_keeps h (fun _ _ k1 => ite_keeps (complete_keeps k1) (beginShutdown_keeps k1))

theorem abortFetched_keeps {x : Nat × Fetched} (h : Keeps a s) : Keeps a (s.abortFetched x) := by
  unfold State.abortFetched
  split
  · exact ite_keeps (complete_keeps h) (setRing_keeps h)
  · exact h

theorem dropWork_keeps (h : Keeps a s) : Keeps a s.dropWork := h.of

theorem shutdownJournal_keeps (h : Keeps a s) : Keeps a s.shutdownJournal :=
  journalSlots_keeps (journal_keeps (foldl_keeps (fun _ _ k1 => foldl_keeps (fun _ _ k2 => journal_keeps k2) k1) h))

theorem warmRetain_keeps (h : Keeps a s) : Keeps a s.warmRetain := h.of

theorem afterDrain_keeps {warm : Bool} {t : Option Ticket} (h : Keeps a s) : Keeps a (s.afterDrain warm t) := by
  unfold State.afterDrain
  extract_lets s1 s2 s3 s4 s5
  have k1 : Keeps a s1 := dropWork_keeps (foldl_keeps (fun _ _ k2 => abortFetched_keeps k2) h)
  have k3 : Keeps a s2 := by
    unfold s2
    split
    · exact complete_keeps k1
    · exact k1
  have k4 : Keeps a s3 := foldl_keeps (fun _ _ k5 => ite_keeps k5 (linkDown_keeps k5)) k3
  have k6 : Keeps a s4 := shutdownJournal_keeps k4
  have k7 : Keeps a s5 := ite_keeps (warmRetain_keeps k6) k6
  exact k7.of

theorem execDrainExpiry_keeps (h : Keeps a s) : OutKeeps a (execDrainExpiry s) := by
  unfold execDrainExpiry
  split
  · exact ite_keeps (afterDrain_keeps h) h
  · exact h

theorem execOffReady_keeps (h : Keeps a s) : OutKeeps a (execOffReady s) := by
  unfold execOffReady
  split
  · exact ite_outKeeps h h.of
  · exact h

theorem mfSelWrite_keeps {second : Bool} {v : BitVec 32} (h : Keeps a s) : Keeps a (s.mfSelWrite second v) :=
  setPins_keeps h

theorem execMfSelectWrite_keeps {second : Bool} {value : BitVec 32} (h : Keeps a s) :
    OutKeeps a (execMfSelectWrite second value s) :=
  mfSelWrite_keeps h

theorem execMfReleaseEnd_keeps {pin : Fin 12} (h : Keeps a s) : OutKeeps a (execMfReleaseEnd pin s) :=
  ite_keeps (setPins_keeps h) h

/-! ### Calibration (Machine/Calib.lean) -/

theorem drifted_keeps {unit : BitVec 16} (h : Keeps a s) : Keeps a (s.drifted unit) := by
  unfold State.drifted
  extract_lets _ _ _ _ _ _ s1 s2
  have k1 : Keeps a s1 := h.of
  have k2 : Keeps a s2 := event_keeps k1
  exact ite_keeps h (ite_keeps (ite_keeps (setUnit_keeps k2) k2) (ite_keeps (laneGoesBad_keeps k2)
    (ite_keeps (event_keeps (setPort_keeps k2)) k2)))

theorem execCalibrationRecheck_keeps {unit : BitVec 16} {drift : Bool} (h : Keeps a s) :
    OutKeeps a (execCalibrationRecheck unit drift s) :=
  ite_outKeeps h (ite_outKeeps (drifted_keeps h) (event_keeps (calibrated_keeps h)))

theorem execDriftCheck_keeps {unit : BitVec 16} {drift : Bool} (h : Keeps a s) :
    OutKeeps a (execDriftCheck unit drift s) :=
  ite_keeps (drifted_keeps h) h

theorem execRecalibrationDone_keeps {k : Stack} (h : Keeps a s) : OutKeeps a (execRecalibrationDone k s) :=
  ite_outKeeps h (calibrated_keeps (setUnit_keeps h))

theorem execRetentionMonitor_keeps {k : Stack} (h : Keeps a s) : OutKeeps a (execRetentionMonitor k s) := h.of

/-! ### Checkpoints and snapshots (Machine/Ckpt.lean) -/

theorem setOp_keeps {o : RemoteOp} (h : Keeps a s) : Keeps a (s.setOp o) := h.of

theorem opSend_keeps {o : RemoteOp} {write poison : Bool} {link addr len : Nat} {data : List Byte} (h : Keeps a s) :
    Keeps a (s.opSend o write link addr len poison data).2 :=
  sendReq_keeps h

theorem opAsk_keeps {o : RemoteOp} (h : Keeps a s) : Keeps a (s.opAsk o) := setOp_keeps (opSend_keeps h)

theorem opBlocks_keeps {o : RemoteOp} {offs : List Nat} (h : Keeps a s) : Keeps a (s.opBlocks o offs) :=
  setOp_keeps (foldl_keeps_snd (fun _ _ k1 => opSend_keeps k1) h)

theorem opFetch_keeps {o : RemoteOp} {offs : List Nat} (h : Keeps a s) : Keeps a (s.opFetch o offs) :=
  setOp_keeps (foldl_keeps_snd (fun _ _ k1 => opSend_keeps k1) h)

theorem beginOp_keeps {o : RemoteOp} (h : Keeps a s) : Keeps a (s.beginOp o) := opAsk_keeps h.of

theorem dropOp_keeps {o : RemoteOp} (h : Keeps a s) : Keeps a (s.dropOp o) := h.of

theorem endOp_keeps {o : RemoteOp} {st : BitVec 8} (h : Keeps a s) : Keeps a (s.endOp o st) := by
  unfold State.endOp
  extract_lets s1
  have k1 : Keeps a s1 := dropOp_keeps h
  split
  · exact ite_keeps (complete_keeps (fresh_keeps (w := 64) k1)) (complete_keeps k1)
  · exact k1

theorem unfillOp_keeps {id : Nat} (h : Keeps a s) : Keeps a (s.unfillOp id) :=
  foldl_keeps (fun _ _ k1 => endWaiting_keeps (unfill_keeps k1)) h

theorem failOp_keeps {o : RemoteOp} {st : BitVec 8} (h : Keeps a s) : Keeps a (s.failOp o st) :=
  ite_keeps (beginOp_keeps (endOp_keeps (unfillOp_keeps h))) (endOp_keeps (unfillOp_keeps h))

theorem atHolder_keeps {d : Desc} {t : Ticket} {act : BitVec 64 → BitVec 16 → BitVec 64 → Nat → State → State}
    (h : Keeps a s) (k : ∀ key rank pkg tag u, Keeps a u → Keeps a (act key rank pkg tag u)) :
    Keeps a (s.atHolder d t act) := by
  unfold State.atHolder
  split
  · exact complete_keeps h
  · refine ite_keeps h ?_
    split
    · exact complete_keeps h
    · split
      · exact h
      · exact k _ _ _ _ _ h

theorem capture_keeps {d : Desc} {t : Ticket} {kind : Nat} (h : Keeps a s) : Keeps a (s.capture d t kind) := by
  unfold State.capture
  refine atHolder_keeps h (fun _ _ _ _ _ k1 => ?_)
  extract_lets
  split
  · exact complete_keeps k1
  · split
    · exact complete_keeps k1
    · extract_lets
      exact ite_keeps (complete_keeps k1) (ite_keeps (complete_keeps k1) (by split; exact beginOp_keeps k1.of))

theorem execCheckpoint_keeps {d : Desc} (h : Keeps a s) : OutKeeps a (execCheckpoint d s) :=
  withDesc_keeps h (fun _ _ k1 => capture_keeps k1)

theorem execSnapshotSend_keeps {d : Desc} (h : Keeps a s) : OutKeeps a (execSnapshotSend d s) :=
  withDesc_keeps h (fun _ _ k1 => capture_keeps k1)

theorem execCkptRestore_keeps {d : Desc} (h : Keeps a s) : OutKeeps a (execCkptRestore d s) :=
  withDesc_keeps h (fun _ _ k1 => atHolder_keeps k1 (fun _ _ _ _ _ k2 => beginOp_keeps k2))

theorem execCkptDrop_keeps {d : Desc} (h : Keeps a s) : OutKeeps a (execCkptDrop d s) :=
  withDesc_keeps h (fun _ _ k1 => atHolder_keeps k1 (fun _ _ _ _ _ k2 => beginOp_keeps k2))

theorem execCkptList_keeps {d : Desc} (h : Keeps a s) : OutKeeps a (execCkptList d s) :=
  withDesc_keeps h (fun _ _ k1 => atHolder_keeps k1 (fun _ _ _ _ _ k2 => beginOp_keeps k2))

theorem execSnapshotRead_keeps {d : Desc} (h : Keeps a s) : OutKeeps a (execSnapshotRead d s) := by
  unfold execSnapshotRead
  refine withDesc_keeps h (fun _ _ k1 => ?_)
  split
  · exact complete_keeps k1
  · split
    · exact complete_keeps k1
    · refine ite_keeps (complete_keeps k1) ?_
      split
      · exact complete_keeps k1
      · extract_lets
        refine ite_keeps (complete_keeps k1) ?_
        split
        · exact complete_keeps k1
        · exact completeVia_keeps (deliverBytes_keeps k1)

theorem restorePick_keeps {o : RemoteOp} {b : List Byte} (h : Keeps a s) : Keeps a (s.restorePick o b) := by
  unfold State.restorePick
  split
  · exact endOp_keeps h
  · exact ite_keeps (endOp_keeps h) (ite_keeps (endOp_keeps h) (opFetch_keeps h))

theorem restoreBegin_keeps {o : RemoteOp} {t : Ticket} {gs : List Segment} (h : Keeps a s) :
    ExKeeps a (s.restoreBegin o t gs) := by
  refine foldl_exKeeps (fun u g k => ?_) (fun _ _ => rfl) h
  dsimp only
  split
  · exact beginFill_keeps k
  · trivial

theorem restoreCheckAll_keeps {o : RemoteOp} (h : Keeps a s) : Keeps a (s.restoreCheckAll o) := by
  unfold State.restoreCheckAll
  extract_lets
  refine ite_keeps (endOp_keeps h) (ite_keeps (endOp_keeps h) ?_)
  split
  · exact endOp_keeps h
  · split
    · exact endOp_keeps h
    · rename_i e1
      have k1 := ExKeeps.of_eq e1 (restoreBegin_keeps h)
      exact opFetch_keeps k1
  · exact endOp_keeps h

theorem restoreHead_keeps {o : RemoteOp} (h : Keeps a s) : Keeps a (s.restoreHead o) :=
  ite_keeps (endOp_keeps h) (ite_keeps (endOp_keeps h) (ite_keeps (restoreCheckAll_keeps h) (opFetch_keeps h)))

theorem fillSegment_keeps {x : Handle} {g : Segment} {data : Tab Byte} {poison : List Nat}
    {frames : List (Nat × List (List Byte))} (h : Keeps a s) : Keeps a (s.fillSegment x g data poison frames).1 := by
  unfold State.fillSegment
  extract_lets _ _ _ _ _ s1 _ s2
  have k1 : Keeps a s1 := ite_keeps (hostDeliver_keeps h) h
  have k2 : Keeps a s2 := foldl_keeps (fun _ _ k => poisonCreated_keeps k) (dropLaneWork_keeps k1)
  refine ite_keeps_fst k2 (ite_keeps_fst ?_ k2)
  split
  rename_i e
  exact Keeps.of_fst e (narrowFill_keeps k2)

theorem restoreEnd_keeps {o : RemoteOp} (h : Keeps a s) : Keeps a (s.restoreEnd o) := by
  unfold State.restoreEnd
  extract_lets _ _ _ s1 s2 _ s3
  have k1 : Keeps a s1 := by
    refine foldl_keeps (fun _ _ k2 => ?_) h
    split
    · exact runWaiting_keeps (setHandle_keeps (fillSegment_keeps k2))
    · exact k2
  have k3 : Keeps a s2 := by
    unfold s2
    split
    · exact ite_keeps (setCtx_keeps k1) k1
    · exact k1
  have k4 : Keeps a s3 := dropOp_keeps k3
  refine ite_keeps (failOp_keeps h) ?_
  split
  · exact complete_keeps k4
  · exact k4

theorem opResult_keeps {o : RemoteOp} {b : List Byte} (h : Keeps a s) : Keeps a (s.opResult o b) := by
  unfold State.opResult
  extract_lets _ _ _ _ _ _ s1
  have k1 : Keeps a s1 := dropOp_keeps h
  split
  · exact ite_keeps (endOp_keeps h) (ite_keeps (opBlocks_keeps h) (opBlocks_keeps h))
  · exact ite_keeps (failOp_keeps h) (endOp_keeps h.of)
  · exact endOp_keeps h
  · exact ite_keeps (endOp_keeps h) (ite_keeps (endOp_keeps (hostWrite_keeps h)) (restorePick_keeps h))
  · split
    · exact ite_keeps (notice_keeps k1.of) k1
    · exact k1

theorem opGoesOn_keeps {o : RemoteOp} {data : List Byte} (h : Keeps a s) : Keeps a (s.opGoesOn o data) := by
  unfold State.opGoesOn
  refine ite_keeps (setOp_keeps h) ?_
  split
  · exact setOp_keeps (opSend_keeps h)
  · exact opResult_keeps h
  · exact opBlocks_keeps h
  · exact opAsk_keeps h
  · exact restoreHead_keeps h
  · exact restoreCheckAll_keeps h
  · exact restoreEnd_keeps h

theorem execOwnImagePoll_keeps {hub : Hub} (h : Keeps a s) : OutKeeps a (execOwnImagePoll hub s) := by
  unfold execOwnImagePoll
  refine foldl_keeps (fun _ _ k1 => ?_) h
  split
  · refine ite_keeps k1 ?_
    split
    · exact beginOp_keeps k1
    · exact k1
  · exact k1

theorem dropReq_keeps {q : PnReq} (h : Keeps a s) : Keeps a (s.dropReq q) := h.of

theorem checkAgain_keeps {l : LinkNo} {q : PnReq} (h : Keeps a s) : Keeps a (s.checkAgain l q) :=
  ite_keeps (sendTest_keeps (event_keeps h)) (sendMsg_keeps (event_keeps h).of)

theorem reqFails_keeps {q : PnReq} {status : Nat} (h : Keeps a s) : Keeps a (s.reqFails q status) := by
  unfold State.reqFails
  refine ite_keeps ?_ ?_
  · split
    exact haltChan_keeps h
  · split
    · exact failOp_keeps h
    · exact h

theorem reqEnds_keeps {q : PnReq} {data : List Byte} {poison checkFailed : Bool} (h : Keeps a s) :
    Keeps a (s.reqEnds q data poison checkFailed) := by
  unfold State.reqEnds
  refine ite_keeps ?_ ?_
  · split
    exact ite_keeps h (ite_keeps h (passPort_keeps (setChan_keeps h)))
  · split
    · exact ite_keeps (failOp_keeps h) (opGoesOn_keeps h)
    · exact h

theorem execPnRdData_keeps {l : LinkNo} {m : PnReply} (h : Keeps a s) : OutKeeps a (execPnRdData l m s) := by
  unfold execPnRdData
  split
  · exact h
  · exact ite_outKeeps (reqFails_keeps (dropReq_keeps h)) (ite_outKeeps (checkAgain_keeps h) (reqEnds_keeps
      (dropReq_keeps (ite_keeps (checkAgain_keeps h) h))))

theorem execPnWrAck_keeps {l : LinkNo} {m : PnReply} (h : Keeps a s) : OutKeeps a (execPnWrAck l m s) := by
  unfold execPnWrAck
  split
  · exact h
  · exact ite_outKeeps (reqFails_keeps (dropReq_keeps h)) (ite_outKeeps (checkAgain_keeps h) (reqEnds_keeps
      (dropReq_keeps (ite_keeps (checkAgain_keeps h) h))))

theorem endOps_keeps {u : TierUnit} (h : Keeps a s) : Keeps a (s.endOps u) := by
  unfold State.endOps
  split
  · exact foldl_keeps (fun _ _ k1 => failOp_keeps k1) h
  · exact h

theorem execUnitOut_keeps {u : TierUnit} (h : Keeps a s) : OutKeeps a (execUnitOut u s) :=
  endOps_keeps (unitOut_keeps h)

theorem execPenumbraOut_keeps {link : LinkNo} (h : Keeps a s) : OutKeeps a (execPenumbraOut link s) := by
  unfold execPenumbraOut
  split
  · split
    · exact ite_keeps (endOps_keeps (unitOut_keeps h)) h
    · exact h
  · exact h

/-! ### Codec lanes and glints (Machine/Codec.lean) -/

theorem setLane_keeps {hub : Hub} {l : Fin 18} {j : Option LaneJob} (h : Keeps a s) : Keeps a (s.setLane hub l j) :=
  h.of

theorem execLaneJob_keeps {hub : Hub} {l : Fin 18} (h : Keeps a s) : OutKeeps a (execLaneJob hub l s) := by
  unfold execLaneJob
  refine ite_outKeeps h (ite_outKeeps h ?_)
  split
  · exact h
  · exact setLane_keeps h.of

theorem verifierFailed_keeps {hub : Hub} {l : Fin 18} {narrow : Bool} (h : Keeps a s) :
    Keeps a (s.verifierFailed hub l narrow) :=
  sendTest_keeps (event_keeps h)

theorem execCourseCompress_keeps {hub : Hub} {l : Fin 18} {verifierFails : Nat} (h : Keeps a s) :
    OutKeeps a (execCourseCompress hub l verifierFails s) := by
  unfold execCourseCompress
  refine ite_outKeeps h ?_
  split
  · refine ite_outKeeps h ?_
    extract_lets s1 _ _ s2
    have k1 : Keeps a s1 := setLane_keeps h
    have k2 : Keeps a s2 := ite_keeps k1.of k1
    exact ite_outKeeps k1 (verifierFailed_keeps k2)
  · exact h

theorem endLaneRequest_keeps {q : LaneRequest} {failed : Bool} (h : Keeps a s) :
    Keeps a (s.endLaneRequest q failed) := by
  unfold State.endLaneRequest
  extract_lets s1 _ s2
  have k1 : Keeps a s1 := dropJobs_keeps h
  have k2 : Keeps a s2 := k1.of
  split
  · exact ite_keeps (restoreEnded_keeps (setHandle_keeps k2)) (deliverRestore_keeps (setHandle_keeps k2))
  · exact k2

theorem execBlockExpand_keeps {hub : Hub} {l : Fin 18} {firstTryOk secondTryOk : Bool} (h : Keeps a s) :
    OutKeeps a (execBlockExpand hub l firstTryOk secondTryOk s) := by
  unfold execBlockExpand
  refine ite_outKeeps h ?_
  split
  · refine ite_outKeeps h ?_
    extract_lets s1 failed
    have k1 : Keeps a s1 := setLane_keeps h
    refine ite_outKeeps ?_ (ite_outKeeps ?_ k1)
    · split
      · extract_lets q qs s2
        have k2 : Keeps a s2 := k1.of
        exact ite_outKeeps (endLaneRequest_keeps k2) (ite_outKeeps k2 (endLaneRequest_keeps k2))
      · exact k1
    · split
      · split
        · exact pumpMigs_keeps (stopMig_keeps (event_keeps k1))
        · exact k1
      · exact k1
  · exact h

theorem execLaneRetired_keeps {hub : Hub} {l : Fin 18} (h : Keeps a s) : OutKeeps a (execLaneRetired hub l s) :=
  retireLane_keeps h

theorem setGlint_keeps {g : Fin 256} {x : Glint} (h : Keeps a s) : Keeps a (s.setGlint g x) := h.of

theorem execGlintRequest_keeps {g : Fin 256} {r : GlintRequest} (h : Keeps a s) :
    OutKeeps a (execGlintRequest g r s) :=
  ite_outKeeps h (setGlint_keeps h)

theorem execGlintReset_keeps {g : Fin 256} (h : Keeps a s) : OutKeeps a (execGlintReset g s) := setGlint_keeps h

theorem glintBlock_keeps {w : GlintWalk} {base hdr ob lo hi : Nat} (h : Keeps a w.state) :
    Keeps a (w.block base hdr ob lo hi).state := by
  unfold GlintWalk.block
  extract_lets n
  split
  · exact h
  · exact fresh_keeps (w := 8 * n) h

theorem glintBlocks_keeps {β : Type} {l : List β} {f : GlintWalk → β → GlintWalk} {w : GlintWalk}
    (hf : ∀ x b, Keeps a x.state → Keeps a (f x b).state) (h : Keeps a w.state) : Keeps a (l.foldl f w).state := by
  induction l generalizing w with
  | nil => exact h
  | cons b l ih => exact ih (hf _ _ h)

theorem glintFail_keeps {r : GlintReq} {st : Nat} (h : Keeps a s) : Keeps a (s.glintFail r st).2 :=
  fresh_keeps (w := 8 * r.len.toNat) h

theorem glintAnswer_keeps {r : GlintReq} {memErr : Bool} (h : Keeps a s) : Keeps a (s.glintAnswer r memErr).2 :=
  ite_keeps_snd (glintFail_keeps h) (ite_keeps_snd (glintFail_keeps h)
    (ite_keeps_snd h (glintBlocks_keeps (fun _ _ k => glintBlock_keeps k) h)))

theorem execGlintMemData_keeps {g : Fin 256} {memErr : Bool} (h : Keeps a s) :
    OutKeeps a (execGlintMemData g memErr s) := by
  unfold execGlintMemData
  extract_lets
  split
  · exact setGlint_keeps (glintAnswer_keeps h)
  · exact h

/-! ### The collective commands (Machine/Collectives.lean) -/

theorem takeForms_keeps {g : Group} (h : Keeps a s) : Keeps a (s.takeForms g) := setGroup_keeps h.of

theorem execGroupCreate_keeps {d : Desc} (h : Keeps a s) : OutKeeps a (execGroupCreate d s) :=
  withDesc_keeps h (fun _ _ k1 => ite_keeps (complete_keeps k1) (ite_keeps (complete_keeps k1)
    (ite_keeps (complete_keeps k1) (pumpForm_keeps (takeForms_keeps k1.of)))))

theorem destroyGroup_keeps {g : Group} (h : Keeps a s) : Keeps a (s.destroyGroup g) := by
  unfold State.destroyGroup
  extract_lets s1 s2
  have k1 : Keeps a s1 := foldl_keeps (fun _ _ k2 => failColl_keeps k2) h
  have k3 : Keeps a s2 := by
    unfold s2
    split
    · exact complete_keeps k1
    · exact k1
  exact k3.of

theorem execGroupDestroy_keeps {d : Desc} (h : Keeps a s) : OutKeeps a (execGroupDestroy d s) := by
  unfold execGroupDestroy
  refine withDesc_keeps h (fun _ _ k1 => ?_)
  split
  · exact complete_keeps k1
  · exact complete_keeps (fresh_keeps (w := 64) (destroyGroup_keeps k1))

theorem execGroupQuery_keeps {d : Desc} (h : Keeps a s) : OutKeeps a (execGroupQuery d s) :=
  withDesc_keeps h (fun _ _ k1 => complete_keeps (fresh_keeps (w := 64) k1))

theorem execFormationTimeout_keeps {group : Fin 16} (h : Keeps a s) :
    OutKeeps a (execFormationTimeout group s) := by
  unfold execFormationTimeout
  split
  · exact ite_outKeeps h (endForming_keeps h)
  · exact h

theorem execGroupBroken_keeps {group : Fin 16} (h : Keeps a s) : OutKeeps a (execGroupBroken group s) := by
  unfold execGroupBroken
  split
  · exact ite_keeps (breakGroup_keeps h) h
  · exact h

theorem joinColl_keeps {g : Group} {c : Coll} (h : Keeps a s) : Keeps a (s.joinColl g c) := by
  unfold State.joinColl
  extract_lets s1 _ s2
  have k1 : Keeps a s1 := by
    refine foldl_keeps (fun _ _ k2 => ?_) h
    split
    · exact setHandle_keeps k2
    · exact k2
  have k3 : Keeps a s2 := setGroup_keeps k1
  split
  · exact pumpColls_keeps (failColl_keeps k3)
  · exact pumpColls_keeps k3

theorem plainColl_keeps {d : Desc} {t : Ticket} {opcode : Nat} (h : Keeps a s) :
    Keeps a (s.plainColl d t opcode) := by
  unfold State.plainColl
  extract_lets
  refine ite_keeps (complete_keeps h) ?_
  split
  · exact complete_keeps h
  · split
    · exact complete_keeps h
    · exact joinColl_keeps h

theorem execAllReduce_keeps {d : Desc} (h : Keeps a s) : OutKeeps a (execAllReduce d s) :=
  withDesc_keeps h (fun _ _ k1 => plainColl_keeps k1)

theorem execReduceScatter_keeps {d : Desc} (h : Keeps a s) : OutKeeps a (execReduceScatter d s) :=
  withDesc_keeps h (fun _ _ k1 => plainColl_keeps k1)

theorem execAllGather_keeps {d : Desc} (h : Keeps a s) : OutKeeps a (execAllGather d s) :=
  withDesc_keeps h (fun _ _ k1 => plainColl_keeps k1)

theorem reduceUpdate_keeps {d : Desc} {t : Ticket} (h : Keeps a s) : Keeps a (s.reduceUpdate d t) := by
  unfold State.reduceUpdate
  extract_lets
  refine ite_keeps (complete_keeps h) ?_
  split
  · exact complete_keeps h
  · split
    · exact complete_keeps h
    · extract_lets
      refine ite_keeps (complete_keeps (setGroup_keeps h)) ?_
      split
      · exact complete_keeps (setGroup_keeps h)
      · split
        · exact complete_keeps (setGroup_keeps h)
        · exact ite_keeps h (joinColl_keeps h)

theorem execReduceUpdate_keeps {d : Desc} (h : Keeps a s) : OutKeeps a (execReduceUpdate d s) :=
  withDesc_keeps h (fun _ _ k1 => reduceUpdate_keeps k1)

theorem permute_keeps {d : Desc} {t : Ticket} (h : Keeps a s) : Keeps a (s.permute d t) := by
  unfold State.permute
  extract_lets
  split
  · exact complete_keeps h
  · split
    · exact complete_keeps h
    · exact ite_keeps (complete_keeps h) (ite_keeps (complete_keeps h) (ite_keeps (complete_keeps h)
        (ite_keeps h (joinColl_keeps h))))

theorem execPermute_keeps {d : Desc} (h : Keeps a s) : OutKeeps a (execPermute d s) :=
  withDesc_keeps h (fun _ _ k1 => permute_keeps k1)

theorem execUpdateSeal_keeps {d : Desc} (h : Keeps a s) : OutKeeps a (execUpdateSeal d s) :=
  withDesc_keeps h (fun _ _ k1 => plainColl_keeps k1)

theorem refuseKind_keeps {l : LinkNo} {typ : Nat} (h : Keeps a s) : Keeps a (s.refuseKind l typ) :=
  refuse_keeps (fresh_keeps (w := 8) h)

theorem takeColl_keeps {l : LinkNo} {m : CollMsg} {record : Option SealRecord} (h : Keeps a s) :
    Keeps a (s.takeColl l m record) := by
  unfold State.takeColl
  split
  · exact ite_keeps h (pumpColls_keeps (collTake_keeps h))
  · exact h

theorem execCollData_keeps {l : LinkNo} {m : CollMsg} (h : Keeps a s) : OutKeeps a (execCollData l m s) :=
  ite_outKeeps h (ite_outKeeps (refuseKind_keeps h) (takeColl_keeps h))

theorem execCollSeal_keeps {l : LinkNo} {m : CollMsg} {r : SealRecord} (h : Keeps a s) :
    OutKeeps a (execCollSeal l m r s) :=
  ite_outKeeps h (ite_outKeeps (refuseKind_keeps h) (takeColl_keeps h))

theorem execCollForm_keeps {l : LinkNo} {m : CollMsg} {r : FormRecord} (h : Keeps a s) :
    OutKeeps a (execCollForm l m r s) := by
  unfold execCollForm
  refine ite_outKeeps h (ite_outKeeps (refuseKind_keeps h) ?_)
  split
  · exact h
  · extract_lets _ _ s1
    have k1 : Keeps a s1 := h.of
    split
    · exact k1
    · refine ite_outKeeps k1 ?_
      split
      · exact h
      · exact ite_outKeeps h (pumpForm_keeps (setGroup_keeps h))

theorem execCollAbort_keeps {l : LinkNo} {m : CollMsg} (h : Keeps a s) : OutKeeps a (execCollAbort l m s) := by
  unfold execCollAbort
  refine ite_outKeeps h (ite_outKeeps (refuseKind_keeps h) ?_)
  split
  · exact ite_outKeeps (breakGroup_keeps h) (pumpColls_keeps (abortColl_keeps h))
  · exact h

theorem commitStep_keeps {g : Group} {step : BitVec 32} (h : Keeps a s) : Keeps a (s.commitStep g step) := by
  unfold State.commitStep
  refine foldl_keeps (fun _ _ k1 => foldl_keeps (fun _ _ k2 => ?_) k1) h
  split
  · exact setHandle_keeps k2
  · exact k2

theorem rewriteStep_keeps {g : Group} {step : BitVec 32} (h : Keeps a s) : Keeps a (s.rewriteStep g step) := by
  unfold State.rewriteStep
  refine foldl_keeps (fun _ _ k1 => ?_) h
  split
  · exact hostDeliver_keeps k1
  · exact k1

theorem closeStep_keeps {slot : Nat} {c : Coll} (h : Keeps a s) : Keeps a (s.closeStep slot c) := by
  unfold State.closeStep
  split
  · exact dropColl_keeps (setGroup_keeps h)
  · exact h

theorem skipStep_keeps {g : Group} {c : Coll} {st : BitVec 8} (h : Keeps a s) : Keeps a (s.skipStep g c st) :=
  completeVia_keeps (closeStep_keeps (rewriteStep_keeps (event_keeps (fresh_keeps (w := 96) h))))

theorem execSealDecide_keeps {group : Fin 16} (h : Keeps a s) : OutKeeps a (execSealDecide group s) := by
  unfold execSealDecide
  split
  · split
    · exact ite_outKeeps h (ite_outKeeps (pumpColls_keeps (skipStep_keeps h)) (pumpColls_keeps (complete_keeps
        (closeStep_keeps (commitStep_keeps h)))))
    · exact h
  · exact h

theorem execSealTimeout_keeps {group : Fin 16} (h : Keeps a s) : OutKeeps a (execSealTimeout group s) := by
  unfold execSealTimeout
  split
  · split
    · exact ite_outKeeps h (breakGroup_keeps (skipStep_keeps h))
    · exact h
  · exact h

/-! ### The sync block (Machine/Sync.lean) -/

theorem execMirrorWrite_keeps {hub : Hub} {ctr : Fin 256} (h : Keeps a s) :
    OutKeeps a (execMirrorWrite hub ctr s) :=
  ite_outKeeps h (hostWrite_keeps (setSync_keeps h))

theorem takePost_keeps {hub : Hub} {c : Nat} (h : Keeps a s) : Keeps a (s.takePost hub c) :=
  ite_keeps h (ite_keeps h (raiseHost_keeps (setSync_keeps h)))

theorem readPosts_keeps {hub : Hub} (h : Keeps a s) : Keeps a (s.readPosts hub) :=
  foldl_keeps (fun _ _ k1 => takePost_keeps k1) h

theorem execPostPoll_keeps {hub : Hub} (h : Keeps a s) : OutKeeps a (execPostPoll hub s) :=
  ite_keeps (readPosts_keeps h) h

theorem execWakeIn_keeps {hub : Hub} (h : Keeps a s) : OutKeeps a (execWakeIn hub s) :=
  ite_keeps (readPosts_keeps h) h

theorem execLongWait_keeps {domain : Fin 40} (h : Keeps a s) : OutKeeps a (execLongWait domain s) :=
  ite_outKeeps h (setPower_keeps h)

theorem ctrCfgWrite_keeps {hub : Hub} {value : BitVec 32} (h : Keeps a s) : Keeps a (s.ctrCfgWrite hub value) :=
  ite_keeps (event_keeps (fresh_keeps (w := 12) h)) (setSync_keeps h)

theorem execSynCtrCfgWrite_keeps {hub : Hub} {value : BitVec 32} (h : Keeps a s) :
    OutKeeps a (execSynCtrCfgWrite hub value s) :=
  ctrCfgWrite_keeps h

theorem ctrValWrite_keeps {hub : Hub} {value : BitVec 32} (h : Keeps a s) : Keeps a (s.ctrValWrite hub value) :=
  ite_keeps (markRaise_keeps (setHostCtr_keeps h)) (setHostCtr_keeps h)

theorem execSynCtrValWrite_keeps {hub : Hub} {value : BitVec 32} (h : Keeps a s) :
    OutKeeps a (execSynCtrValWrite hub value s) :=
  ctrValWrite_keeps h

theorem barCfgWrite_keeps {b : Fin 8} {second : Bool} {value : BitVec 32} (h : Keeps a s) :
    Keeps a (s.barCfgWrite b second value) :=
  ite_keeps (setBar_keeps h) (ite_keeps (setBar_keeps h) (ite_keeps (setBar_keeps h) (setBar_keeps h)))

theorem execSynBarCfgWrite_keeps {slot : Fin 8} {second : Bool} {value : BitVec 32} (h : Keeps a s) :
    OutKeeps a (execSynBarCfgWrite slot second value s) :=
  barCfgWrite_keeps h

theorem setBeacon_keeps {b : Fin 8} {hub : Hub} {p : BeaconPhase} (h : Keeps a s) : Keeps a (s.setBeacon b hub p) :=
  setBar_keeps h

theorem execBarrierArrive_keeps {hub : Hub} {slot : Fin 8} (h : Keeps a s) :
    OutKeeps a (execBarrierArrive hub slot s) :=
  ite_outKeeps (setBeacon_keeps h) h

theorem sendBarrier_keeps {g : Group} {b : Fin 8} {lineDone : Bool} {gen : Nat} {ranks : List Nat} (h : Keeps a s) :
    Keeps a (s.sendBarrier g b lineDone gen ranks) :=
  foldl_keeps (fun _ _ k1 => sendPkg_keeps k1) h

theorem barLine_keeps {b : Fin 8} (h : Keeps a s) : Keeps a (s.barLine b) := by
  unfold State.barLine
  extract_lets
  split
  · exact ite_keeps (sendBarrier_keeps (setBar_keeps h)) h
  · exact h

theorem execBeaconComplete_keeps {slot : Fin 8} (h : Keeps a s) : OutKeeps a (execBeaconComplete slot s) := by
  unfold execBeaconComplete
  extract_lets
  refine ite_outKeeps h ?_
  split
  · exact barLine_keeps (sendBarrier_keeps (setBar_keeps h))
  · exact setBar_keeps h

theorem execBeaconHoldEnd_keeps {hub : Hub} {slot : Fin 8} (h : Keeps a s) :
    OutKeeps a (execBeaconHoldEnd hub slot s) :=
  ite_outKeeps (setBeacon_keeps h) h

theorem barDone_keeps {b : Fin 8} {x : BarSlot} {hub : Hub} (h : Keeps a s) : Keeps a (s.barDone b x hub) :=
  ite_keeps (wakeOut_keeps (realignOn_keeps (raiseHost_keeps (raiseHost_keeps h)))) (realignOn_keeps
    (raiseHost_keeps (raiseHost_keeps h)))

theorem execBarrierComplete_keeps {slot : Fin 8} (h : Keeps a s) : OutKeeps a (execBarrierComplete slot s) :=
  ite_outKeeps h (setBar_keeps (foldl_keeps (fun _ _ k1 => barDone_keeps k1) h))

theorem execBarrier_keeps {m : BarrierMsg} (h : Keeps a s) : OutKeeps a (execBarrier m s) := by
  unfold execBarrier
  extract_lets
  split
  · exact h
  · split
    · exact h
    · exact ite_outKeeps (refuse_keeps (fresh_keeps (w := 8) h)) (barLine_keeps (setBar_keeps h))

theorem execBarrierTimeout_keeps {slot : Fin 8} (h : Keeps a s) : OutKeeps a (execBarrierTimeout slot s) :=
  ite_outKeeps (barFault_keeps h) h

theorem setLock_keeps {hub : Hub} {l : Nat} {x : LockState} (h : Keeps a s) : Keeps a (s.setLock hub l x) :=
  setSync_keeps h

theorem execLockAcquire_keeps {hub : Hub} {lock : Fin 64} {requester : BitVec 8} (h : Keeps a s) :
    OutKeeps a (execLockAcquire hub lock requester s) := by
  unfold execLockAcquire
  split
  · exact h
  · exact setLock_keeps h

theorem lockRelease_keeps {hub : Hub} {l : Nat} {requester : BitVec 8} (h : Keeps a s) :
    Keeps a (s.lockRelease hub l requester) :=
  ite_keeps (setLock_keeps h) (setSync_keeps h)

theorem execLockRelease_keeps {hub : Hub} {lock : Fin 64} {requester : BitVec 8} (h : Keeps a s) :
    OutKeeps a (execLockRelease hub lock requester s) :=
  lockRelease_keeps h

theorem lockAbandon_keeps {hub : Hub} {l : Nat} (h : Keeps a s) : Keeps a (s.lockAbandon hub l) := by
  unfold State.lockAbandon
  split
  · exact event_keeps (setLock_keeps h)
  · exact h

theorem execLockAbandon_keeps {hub : Hub} {lock : Fin 64} (h : Keeps a s) :
    OutKeeps a (execLockAbandon hub lock s) :=
  lockAbandon_keeps h

/-! ### Contexts (Machine/Contexts.lean) -/

theorem dropCounters_keeps {ctx : Nat} (h : Keeps a s) : Keeps a (s.dropCounters ctx) :=
  foldl_keeps (fun _ _ k1 => foldl_keeps (fun _ _ k2 => setSync_keeps (setHostCtr_keeps k2)) k1) h

theorem freeContext_keeps {ctx : Nat} (h : Keeps a s) : Keeps a (s.freeContext ctx) :=
  (foldl_keeps (fun _ _ k1 => freeHandle_keeps k1) h).of

theorem destroyContext_keeps {c : Ctx} (h : Keeps a s) : Keeps a (s.destroyContext c) := by
  unfold State.destroyContext
  extract_lets s1 s2 s3 s4
  have k1 : Keeps a s1 := foldl_keeps (fun _ _ k => destroyGroup_keeps k) h
  have k2 : Keeps a s2 := foldl_keeps (fun _ _ k => endStream_keeps k) k1
  have k3 : Keeps a s3 := by
    unfold s3
    split
    · exact complete_keeps k2
    · exact k2
  have k4 : Keeps a s4 := dropCounters_keeps (freeContext_keeps k3)
  clear_value s4
  exact k4.of

theorem execContextDestroy_keeps {d : Desc} (h : Keeps a s) : OutKeeps a (execContextDestroy d s) := by
  unfold execContextDestroy
  refine withDesc_keeps h (fun _ _ k1 => ?_)
  split
  · exact complete_keeps k1
  · exact ite_keeps (complete_keeps k1) (complete_keeps (destroyContext_keeps k1))

/-! ### The deadline controller (Machine/Controller.lean) -/

theorem controllerMove_keeps {x : Handle} {goal : Fate} {pl : Placement} {base : Nat} (h : Keeps a s) :
    Keeps a (s.controllerMove x goal pl base) := by
  unfold State.controllerMove
  refine ite_keeps (setHandle_keeps h) ?_
  split
  · rename_i e1
    have k1 := ExKeeps.of_eq e1 (startMigrate_keeps h)
    exact k1
  · exact event_keeps h

theorem raiseRuns_keeps {ctx b prio : Nat} (h : Keeps a s) : Keeps a (s.raiseRuns ctx b prio) := h.of

theorem mapBatches_keeps {ctx : Nat} {f : Nat → BatchRun → BatchRun} (h : Keeps a s) :
    Keeps a (s.mapBatches ctx f) := by
  unfold State.mapBatches
  split
  · exact setCtx_keeps h
  · exact h

theorem countEval_keeps {ctx : Nat} {f : StepCounts → StepCounts} (h : Keeps a s) :
    Keeps a (s.countEval ctx f) := by
  unfold State.countEval
  split
  · exact setCtx_keeps h
  · exact h

theorem markAction_keeps {ctx b bit : Nat} (h : Keeps a s) : Keeps a (s.markAction ctx b bit) := mapBatches_keeps h

theorem actPriority_keeps {ctx w : Nat} {p : Plan} {r : StepRun} (h : Keeps a s) :
    Keeps a (s.actPriority ctx w p r) :=
  countEval_keeps (foldl_keeps (fun _ _ k1 => ite_keeps (raiseRuns_keeps k1) k1) (mapBatches_keeps h))

theorem controllerAct_keeps {c : Ctx} {p : Plan} {r : StepRun} {now : Nat} {ps : List Proj} {w : Proj}
    (h : Keeps a s) : Keeps a (s.controllerAct c p r now ps w) := by
  unfold State.controllerAct
  extract_lets
  refine ite_keeps (countEval_keeps h) (ite_keeps (actPriority_keeps h) (ite_keeps (countEval_keeps
    (mapBatches_keeps h)) ?_))
  split
  · exact countEval_keeps (markAction_keeps (controllerMove_keeps h))
  · split
    · exact countEval_keeps (markAction_keeps (controllerMove_keeps h))
    · split
      · exact event_keeps (countEval_keeps (markAction_keeps (controllerMove_keeps h)))
      · exact event_keeps (countEval_keeps h)

theorem setCalm_keeps {ctx n : Nat} (h : Keeps a s) : Keeps a (s.setCalm ctx n) := by
  unfold State.setCalm
  split
  · exact setCtx_keeps h
  · exact h

theorem relax_keeps {ctx base : Nat} (h : Keeps a s) : Keeps a (s.relax ctx base) := mapBatches_keeps h

theorem evaluate_keeps {c : Ctx} {p : Plan} {r : StepRun} (h : Keeps a s) : Keeps a (s.evaluate c p r) := by
  unfold State.evaluate
  extract_lets ctx now
  split
  rename_i e
  have k1 := Keeps.of_snd e (fresh_keeps (w := 1) h)
  extract_lets ps watched
  cases watched with
  | nil => exact setCalm_keeps k1
  | cons q es =>
    exact ite_keeps (mapBatches_keeps k1) (ite_keeps (controllerAct_keeps (setCalm_keeps (mapBatches_keeps k1)))
      (ite_keeps (ite_keeps (setCalm_keeps (relax_keeps (mapBatches_keeps k1))) (setCalm_keeps (mapBatches_keeps k1)))
        (setCalm_keeps (mapBatches_keeps k1))))

theorem execControllerEvaluate_keeps {ctx : Nat} (h : Keeps a s) : OutKeeps a (execControllerEvaluate ctx s) := by
  unfold execControllerEvaluate
  split
  · split
    · exact evaluate_keeps h
    · exact h
  · exact h

/-! ### Rings (Machine/Rings.lean) -/

theorem writeHeld_keeps {n id : Nat} (h : Keeps a s) : Keeps a (State.writeHeld n s id) := by
  induction n generalizing s with
  | zero => exact h
  | succ n ih =>
    unfold State.writeHeld
    split
    · split
      · exact ite_keeps (ih (cqWrite_keeps h)) h
      · exact h
    · exact h

theorem takeHead_keeps {r : Ring} {head : BitVec 32} (h : Keeps a s) : Keeps a (s.takeHead r head) :=
  writeHeld_keeps (setRing_keeps (setWindow_keeps h))

theorem readControl_keeps {id : Nat} (h : Keeps a s) : Keeps a (s.readControl id) := by
  unfold State.readControl
  split
  · exact takeHead_keeps (setRing_keeps h)
  · exact h

theorem execContextCreate_keeps {d : Desc} (h : Keeps a s) : OutKeeps a (execContextCreate d s) :=
  withDesc_keeps h (fun _ _ k1 => ite_keeps (complete_keeps k1) (ite_keeps (complete_keeps k1) (complete_keeps
    k1.of)))

theorem execSetQuota_keeps {d : Desc} (h : Keeps a s) : OutKeeps a (execSetQuota d s) := by
  unfold execSetQuota
  extract_lets
  refine withDesc_keeps h (fun _ _ k1 => ?_)
  split
  · exact complete_keeps k1
  · exact ite_keeps (complete_keeps k1) (complete_keeps (setCtx_keeps k1))

theorem execSetExport_keeps {d : Desc} (h : Keeps a s) : OutKeeps a (execSetExport d s) := by
  unfold execSetExport
  extract_lets
  refine withDesc_keeps h (fun _ _ k1 => ?_)
  split
  · exact complete_keeps k1
  · exact ite_keeps (complete_keeps k1) (complete_keeps (ite_keeps (setPeer_keeps k1) (sendGrant_keeps
      (setPeer_keeps k1))))

theorem execSetSeed_keeps {d : Desc} (h : Keeps a s) : OutKeeps a (execSetSeed d s) := by
  unfold execSetSeed
  refine withDesc_keeps h (fun _ _ k1 => ?_)
  split
  · exact complete_keeps k1
  · exact complete_keeps (setCtx_keeps k1)

theorem execRingCreate_keeps {d : Desc} (h : Keeps a s) : OutKeeps a (execRingCreate d s) :=
  withDesc_keeps h (fun _ _ k1 => ite_keeps (complete_keeps k1) (ite_keeps (complete_keeps k1)
    (ite_keeps (complete_keeps k1) (ite_keeps (complete_keeps k1) (complete_keeps k1.of)))))

theorem execRingDestroy_keeps {d : Desc} (h : Keeps a s) : OutKeeps a (execRingDestroy d s) := by
  unfold execRingDestroy
  refine withDesc_keeps h (fun _ _ k1 => ?_)
  extract_lets
  split
  · exact complete_keeps k1
  · exact ite_keeps (complete_keeps k1) (ite_keeps k1 (endDestroy_keeps (setRing_keeps k1)))

theorem execGetRingState_keeps {d : Desc} (h : Keeps a s) : OutKeeps a (execGetRingState d s) :=
  withDesc_keeps h (fun _ _ k1 => complete_keeps k1)

theorem attach_keeps {r : Ring} {d : Desc} {t : Ticket} (h : Keeps a s) : Keeps a (s.attach r d t) :=
  ite_keeps (complete_keeps h) (ite_keeps (complete_keeps h) (ite_keeps (complete_keeps h) (complete_keeps
    (writeHeld_keeps (setRing_keeps (hostWrite_keeps (hostWrite_keeps (setWindow_keeps h))))))))

theorem execRingAttach_keeps {d : Desc} (h : Keeps a s) : OutKeeps a (execRingAttach d s) := by
  unfold execRingAttach
  refine withDesc_keeps h (fun _ _ k1 => ?_)
  split
  · exact ite_keeps (complete_keeps k1) (attach_keeps k1)
  · exact complete_keeps k1

theorem execRingResume_keeps {d : Desc} (h : Keeps a s) : OutKeeps a (execRingResume d s) := by
  unfold execRingResume
  refine withDesc_keeps h (fun _ _ k1 => ?_)
  split
  · exact ite_keeps (complete_keeps k1) (ite_keeps (complete_keeps k1) (complete_keeps (readControl_keeps
      (setRing_keeps k1))))
  · exact complete_keeps k1

theorem swapLine_keeps {hub : Hub} {line : Nat} (h : Keeps a s) : Keeps a (s.swapLine hub line) :=
  foldl_keeps (fun _ _ k1 => ite_keeps k1 (setPort_keeps k1)) h

theorem execSummaryPoll_keeps {hub : Hub} (h : Keeps a s) : OutKeeps a (execSummaryPoll hub s) :=
  ite_outKeeps (foldl_keeps (fun _ _ k1 => swapLine_keeps k1) h) h

theorem execWatch_keeps {hub : Hub} {line : BitVec 7} (h : Keeps a s) : OutKeeps a (execWatch hub line s) :=
  ite_outKeeps (swapLine_keeps h) h

theorem rang_keeps {hub : Hub} {id : Nat} (h : Keeps a s) : Keeps a (s.rang hub id) := by
  unfold State.rang
  split
  · exact ite_keeps (ite_keeps h (readControl_keeps h)) (event_keeps h)
  · exact event_keeps h

theorem execSwapData_keeps {hub : Hub} {tag : BitVec 16} (h : Keeps a s) : OutKeeps a (execSwapData hub tag s) := by
  unfold execSwapData
  extract_lets _ s1
  have k1 : Keeps a s1 := setPort_keeps h
  split
  · exact h
  · exact foldl_keeps (fun _ _ k2 => rang_keeps k2) (hostWrite_keeps k1)

theorem execDescriptorFetch_keeps {ring : BitVec 16} (h : Keeps a s) : OutKeeps a (execDescriptorFetch ring s) := by
  unfold execDescriptorFetch
  split
  · exact h
  · exact ite_outKeeps h (foldl_keeps (fun _ _ k1 => complete_keeps k1) (ite_keeps (setRing_keeps h)
      (hostWrite_keeps (setRing_keeps h))))

theorem seqGap_keeps {r : Ring} {named : BitVec 32} (h : Keeps a s) : Keeps a (s.seqGap r named) :=
  post_keeps (fresh_keeps (w := 32) (event_keeps (setRing_keeps h)))

theorem execSeqGap_keeps {ring : BitVec 16} (h : Keeps a s) : OutKeeps a (execSeqGap ring s) := by
  unfold execSeqGap
  split
  · exact h
  · refine ite_outKeeps h (ite_outKeeps (seqGap_keeps h) ?_)
    split
    · refine ite_outKeeps h (@ite_outKeeps _ _ _ _ _ ?_ ?_)
      · exact setRing_keeps h
      · exact seqGap_keeps h
    · exact h

theorem execCqHeadReread_keeps {ring : BitVec 16} (h : Keeps a s) : OutKeeps a (execCqHeadReread ring s) := by
  unfold execCqHeadReread
  split
  · exact h
  · exact ite_outKeeps (takeHead_keeps h) h

/-! ### Host ports (Machine/Ports.lean) -/

theorem execHostFlitReceive_keeps {hub : Hub} {f : HostFlit} (h : Keeps a s) :
    OutKeeps a (execHostFlitReceive hub f s) :=
  ite_outKeeps h (ite_outKeeps (setPort_keeps h) (ite_outKeeps h (setPort_keeps h)))

theorem retrainPort_keeps {hub : Hub} (h : Keeps a s) : Keeps a (s.retrainPort hub) :=
  abandonWhere_keeps (setPort_keeps h)

theorem execHostPortResend_keeps {hub : Hub} (h : Keeps a s) : OutKeeps a (execHostPortResend hub s) :=
  ite_outKeeps h (ite_outKeeps (retrainPort_keeps h) (setPort_keeps h))

theorem execHostPortRetrained_keeps {hub : Hub} {module : Option (Fin 16)} (h : Keeps a s) :
    OutKeeps a (execHostPortRetrained hub module s) := by
  unfold execHostPortRetrained
  extract_lets
  split
  · exact ite_outKeeps h (event_keeps (setPort_keeps h))
  · exact ite_outKeeps h (setPort_keeps h)

theorem execHostModuleLeftOut_keeps {hub : Hub} {module : Fin 16} (h : Keeps a s) :
    OutKeeps a (execHostModuleLeftOut hub module s) :=
  ite_outKeeps (event_keeps (setPort_keeps h)) h

theorem portError_keeps {hub : Hub} {addr : Nat} (h : Keeps a s) : Keeps a (s.portError hub addr) := event_keeps h

theorem readFailed_keeps {hub : Hub} {q : PortReq} (h : Keeps a s) : Keeps a (s.readFailed hub q) := by
  unfold State.readFailed
  extract_lets s1
  have k1 : Keeps a s1 := portError_keeps h
  split
  · split
    · exact failFill_keeps k1
    · exact k1
  · exact k1
  · exact k1

theorem blockIn_keeps {k : HKey} {b : Nat} {marked : Bool} (h : Keeps a s) : Keeps a (s.blockIn k b marked) := by
  unfold State.blockIn
  extract_lets s1 s2
  have k1 : Keeps a s1 := takeBlocks_keeps h
  have k2 : Keeps a s2 := by
    unfold s2
    split
    · exact ite_keeps (poisonCreated_keeps (setHandle_keeps k1)) k1
    · exact k1
  split
  · split
    · split
      · exact ite_keeps (feedRun_keeps k2) k2
      · exact k2
    · exact k2
  · exact k2

theorem execRdData_keeps {hub : Hub} {tag : BitVec 16} {error : Bool} {poison : BitVec 16} (h : Keeps a s) :
    OutKeeps a (execRdData hub tag error poison s) := by
  unfold execRdData
  extract_lets p s1
  split
  · exact h
  · have k1 : Keeps a s1 := setPort_keeps h
    refine ite_outKeeps (readFailed_keeps k1) (OutKeeps.next ?_)
    split
    · exact blockIn_keeps k1
    · exact k1
    · exact k1

theorem endWait_keeps {w : FenceWait} {status : BitVec 8} (h : Keeps a s) : Keeps a (s.endWait w status) :=
  ite_keeps (batchEnded_keeps h) (ite_keeps (layerEnded_keeps h) (complete_keeps h))

theorem execFenceAck_keeps {hub : Hub} {number : BitVec 32} (h : Keeps a s) :
    OutKeeps a (execFenceAck hub number s) := by
  unfold execFenceAck
  extract_lets _ s1 _ _ _ s2
  have k1 : Keeps a s1 := setPort_keeps h
  have k2 : Keeps a s2 := k1.of
  exact ite_outKeeps h (foldl_keeps (fun _ _ k3 => endWait_keeps k3) k2)

theorem failWaits_keeps {p : FenceWait → Bool} (h : Keeps a s) : Keeps a (s.failWaits p) :=
  foldl_keeps (fun _ _ k1 => endWait_keeps k1) h.of

theorem execFenceTimeout_keeps {hub : Hub} {number : BitVec 32} (h : Keeps a s) :
    OutKeeps a (execFenceTimeout hub number s) := by
  unfold execFenceTimeout
  extract_lets _ s1 s2 s3
  have k1 : Keeps a s1 := setPort_keeps h
  have k2 : Keeps a s2 := failWaits_keeps k1
  have k3 : Keeps a s3 := foldl_keeps (fun _ _ k4 => haltChan_keeps k4) k2
  split
  · exact h
  · exact ite_outKeeps h (retrainPort_keeps (portError_keeps (fresh_keeps (w := 57) k3)))

theorem execHostPortTimeout_keeps {hub : Hub} {tag : BitVec 16} (h : Keeps a s) :
    OutKeeps a (execHostPortTimeout hub tag s) := by
  unfold execHostPortTimeout
  extract_lets _ s1
  have k1 : Keeps a s1 := setPort_keeps h
  split
  · exact h
  · exact ite_outKeeps h (readFailed_keeps k1)

theorem execWrErr_keeps {hub : Hub} {tag : BitVec 16} (h : Keeps a s) : OutKeeps a (execWrErr hub tag s) := by
  unfold execWrErr
  extract_lets _ s1
  have k1 : Keeps a s1 := setPort_keeps h
  split
  · exact haltChan_keeps k1
  · exact failWaits_keeps (portError_keeps (fresh_keeps (w := 57) h))

/-! ### Telemetry (Machine/Telemetry.lean) -/

theorem page0_keeps {hub : Hub} {x : TelemSample} (h : Keeps a s) : Keeps a (s.page0 hub x).2 :=
  fresh_keeps (w := 352) h

theorem page1_keeps {k : Stack} {temp : BitVec 8} (h : Keeps a s) : Keeps a (s.page1 k temp).2 :=
  fresh_keeps (w := 96) h

theorem estimate_keeps {l : LinkNo} {x : TelemSample} (h : Keeps a s) : Keeps a (s.estimate l x) :=
  foldl_keeps (fun _ _ k1 => setLink_keeps (fresh_keeps (w := 32) k1)) h

theorem execTelemetrySnapshot_keeps {hub : Hub} {sample : TelemSample} (h : Keeps a s) :
    OutKeeps a (execTelemetrySnapshot hub sample s) := by
  unfold execTelemetrySnapshot
  refine ite_outKeeps h ?_
  extract_lets _ s1
  have k1 : Keeps a s1 := foldl_keeps (fun _ _ k2 => estimate_keeps k2) h
  split
  rename_i e1
  have k3 := Keeps.of_snd e1 (page0_keeps k1)
  split
  rename_i e2
  have k4 := Keeps.of_snd e2 (page1_keeps k3)
  split
  rename_i e3
  have k5 := Keeps.of_snd e3 (page1_keeps k4)
  exact setPower_keeps (setRecorder_keeps (foldl_keeps (fun _ _ k6 => setLink_keeps k6) k5.of))

theorem execTelemRead_keeps {d : Desc} (h : Keeps a s) : OutKeeps a (execTelemRead d s) := by
  unfold execTelemRead
  extract_lets
  refine withDesc_keeps h (fun _ _ k1 => ?_)
  split
  rename_i e1
  have k2 := Keeps.of_snd e1 (fresh_keeps (w := 1024) k1)
  extract_lets _ s1
  have k3 : Keeps a s1 := by
    unfold s1
    split
    · exact setCtx_keeps k2
    · exact k2
  exact complete_keeps k3

/-! ### Registers and the access paths (Machine/Regs.lean) -/

theorem regTouch_keeps {p : RegPath} {hub : Hub} {r : WinReg} (h : Keeps a s) : Keeps a (s.regTouch p hub r) := by
  unfold State.regTouch
  split
  · split
    · exact h
    · exact setLock_keeps h
  · exact setPower_keeps h
  · exact freeCount_keeps h
  · exact h

theorem movRegWrite_keeps {hub : Hub} {c : Nat} {r : MovReg} {v : BitVec 32} (h : Keeps a s) :
    Keeps a (s.movRegWrite hub c r v) := by
  unfold State.movRegWrite
  extract_lets
  split
  · exact ite_keeps h (ite_keeps (setChan_keeps h) (setChan_keeps h))
  · exact setChan_keeps h
  · exact movWrite_keeps h
  · exact movPrio_keeps h
  · exact h

theorem alertWrite_keeps {v : BitVec 32} (h : Keeps a s) : Keeps a (s.alertWrite v) :=
  interrupt_keeps (setPins_keeps h)

theorem lockWrite_keeps {p : RegPath} {hub : Hub} {l : Nat} {v : BitVec 32} (h : Keeps a s) :
    Keeps a (s.lockWrite p hub l v) :=
  ite_keeps (lockAbandon_keeps (ite_keeps (lockRelease_keeps h) h)) (ite_keeps (lockRelease_keeps h) h)

theorem reattach_keeps {base : Nat} {again : Bool} (h : Keeps a s) : Keeps a (s.reattach base again) := by
  unfold State.reattach
  split
  · exact h
  · exact (hostWrite_keeps (hostWrite_keeps (setRing_keeps (ite_keeps h (setWindow_keeps h))))).of

theorem adminAttach_keeps {v : BitVec 32} (h : Keeps a s) : Keeps a (s.adminAttach v) :=
  ite_keeps (abandonAll_keeps (reattach_keeps h.of)) h

theorem regStore_keeps {p : RegPath} {hub : Hub} {v : BitVec 32} {x : WinReg} (h : Keeps a s) :
    Keeps a (s.regStore p hub v x) := by
  unfold State.regStore
  split
  · exact h
  · exact h
  · exact h
  · exact h
  · exact h
  · exact h
  · exact h
  · exact h
  · exact h
  · exact h
  · exact h
  · exact h
  · exact h
  · exact h
  · exact h
  · exact h
  · exact h
  · exact h
  · exact h
  · exact h
  · exact h
  · exact h
  · exact h
  · exact h
  · exact h
  · exact h
  · exact setRegs_keeps h
  · exact h.of
  · exact h.of
  · exact adminAttach_keeps h
  · exact setRegs_keeps h
  · exact setRegs_keeps h
  · exact h.of
  · exact setHealth_keeps h
  · exact pwrModeWrite_keeps h
  · exact pwrCapWrite_keeps h
  · exact setPower_keeps h
  · exact setPower_keeps h
  · exact setPower_keeps h
  · exact setPower_keeps h
  · exact setQuench_keeps h
  · exact setQuench_keeps h
  · exact ite_keeps (quenchClear_keeps h) h
  · exact alertWrite_keeps h
  · exact setPins_keeps h
  · exact mfSelWrite_keeps h
  · exact mfSelWrite_keeps h
  · exact setPins_keeps h
  · exact setRecorder_keeps h
  · exact setRecorder_keeps h
  · exact evrReadSlotWrite_keeps h
  · exact setRecorder_keeps h
  · exact h.of
  · exact setSync_keeps h
  · exact setSync_keeps h
  · exact setSync_keeps h
  · exact setSync_keeps h
  · exact ctrCfgWrite_keeps h
  · exact ctrValWrite_keeps h
  · exact barCfgWrite_keeps h
  · exact barCfgWrite_keeps h
  · exact lockWrite_keeps h
  · exact setRegs_keeps h
  · exact setRegs_keeps h
  · exact setRegs_keeps h
  · exact setBist_keeps h
  · exact ite_keeps (bistStart_keeps (setBist_keeps h)) (setBist_keeps h)
  · exact setBist_keeps h
  · exact setHealth_keeps h
  · exact directReq_keeps h
  · exact setMovers_keeps h
  · exact movRegWrite_keeps h

theorem regLatch_keeps {p : RegPath} {hub : Hub} {cause off : Nat} (h : Keeps a s) :
    Keeps a (s.regLatch p hub cause off) :=
  ite_keeps h (setRegs_keeps h)

theorem regMiss_keeps {p : RegPath} {hub : Hub} {off : Nat} (h : Keeps a s) : Keeps a (s.regMiss p hub off) :=
  setRegs_keeps (regLatch_keeps h)

theorem regRead_keeps {p : RegPath} {hub : Hub} {off : Nat} (h : Keeps a s) : Keeps a (s.regRead p hub off).2 := by
  unfold State.regRead
  split
  · exact regTouch_keeps h
  · exact regMiss_keeps h

theorem regWrite_keeps {p : RegPath} {hub : Hub} {off : Nat} {v : BitVec 32} (h : Keeps a s) :
    Keeps a (s.regWrite p hub off v) := by
  unfold State.regWrite
  split
  · exact regStore_keeps h
  · exact regMiss_keeps h

theorem regReads_keeps {p : RegPath} {hub : Hub} {n off : Nat} (h : Keeps a s) :
    Keeps a (State.regReads p hub n off s).2 := by
  induction n generalizing s off with
  | zero => exact h
  | succ n ih => exact ih (regRead_keeps h)

theorem regWrites_keeps {p : RegPath} {hub : Hub} {l : List (BitVec 32)} {off : Nat} (h : Keeps a s) :
    Keeps a (State.regWrites p hub l off s) := by
  induction l generalizing s off with
  | nil => exact h
  | cons v l ih => exact ih (regWrite_keeps h)

theorem execRegisterWrite_keeps {hub : Hub} {path : RegPath} {offset : BitVec 16} {value : BitVec 32}
    (h : Keeps a s) : OutKeeps a (execRegisterWrite hub path offset value s) := by
  unfold execRegisterWrite
  refine ite_outKeeps h (ite_outKeeps (regWrite_keeps h) ?_)
  split
  · exact regLatch_keeps h
  · exact h

theorem execI3cPrivateWrite_keeps {hub : Hub} {bytes : List Byte} (h : Keeps a s) :
    OutKeeps a (execI3cPrivateWrite hub bytes s) :=
  ite_outKeeps h (ite_outKeeps (setRegs_keeps (regLatch_keeps h)) (regWrites_keeps (setRegs_keeps h)))

theorem execI3cPrivateRead_keeps {hub : Hub} {count : Fin 33} (h : Keeps a s) :
    OutKeeps a (execI3cPrivateRead hub count s) := by
  unfold execI3cPrivateRead
  refine ite_outKeeps h (setRegs_keeps ?_)
  split
  · exact regReads_keeps h
  · exact h

theorem execI3cBusReset_keeps {hub : Hub} (h : Keeps a s) : OutKeeps a (execI3cBusReset hub s) := abandonAll_keeps h

theorem mailboxServe_keeps {hub : Hub} {line : List Byte} (h : Keeps a s) :
    Keeps a (s.mailboxServe hub line).2.2 := by
  unfold State.mailboxServe
  extract_lets
  refine ite_keeps_snd2 h (ite_keeps_snd2 h ?_)
  split
  · exact regMiss_keeps h
  · exact ite_keeps_snd2 (regReads_keeps h) (regWrites_keeps h)

theorem execMailboxPoll_keeps {hub : Hub} (h : Keeps a s) : OutKeeps a (execMailboxPoll hub s) :=
  ite_outKeeps h (ite_outKeeps (setRegs_keeps h) (ite_outKeeps h (hostWrite_keeps (mailboxServe_keeps
    (setRegs_keeps h)))))

theorem execHubAdminAttach_keeps {value : BitVec 32} (h : Keeps a s) : OutKeeps a (execHubAdminAttach value s) :=
  ite_keeps (adminAttach_keeps h) h

theorem execAdminAttachDone_keeps (h : Keeps a s) : OutKeeps a (execAdminAttachDone s) := by
  unfold execAdminAttachDone
  split
  · refine ite_outKeeps ?_ h
    extract_lets s1
    have k1 : Keeps a s1 := setRing_keeps h
    exact readControl_keeps k1.of
  · exact h

theorem execJtagTap_keeps {op : JtagOp} (h : Keeps a s) : OutKeeps a (execJtagTap op s) := by
  unfold execJtagTap
  refine ite_outKeeps h ?_
  split
  · exact h.of
  · exact h.of
  · exact (fresh_keeps (w := 40) h).of

/-! ### A command and a step -/

/-- Every command keeps what no operation undoes. -/
theorem exec_keeps {i : Instr} (h : Keeps a s) : OutKeeps a (exec i s) := by
  cases i with
  | nop => exact execNop_keeps h
  | register => exact execRegister_keeps h
  | free => exact execFree_keeps h
  | freeSet => exact execFreeSet_keeps h
  | handleFreed => exact execHandleFreed_keeps h
  | offload => exact execOffload_keeps h
  | readyBlockRead => exact execReadyBlockRead_keeps h
  | fillComplete => exact execFillComplete_keeps h
  | offloadFwd => exact execOffloadFwd_keeps h
  | restore => exact execRestore_keeps h
  | migrate => exact execMigrate_keeps h
  | stripeCommit => exact execStripeCommit_keeps h
  | oldLocationRelease => exact execOldLocationRelease_keeps h
  | migrationStopped => exact execMigrationStopped_keeps h
  | update => exact execUpdate_keeps h
  | queryHandle => exact execQueryHandle_keeps h
  | loadPlan => exact execLoadPlan_keeps h
  | stepBegin => exact execStepBegin_keeps h
  | mark => exact execMark_keeps h
  | stepEnd => exact execStepEnd_keeps h
  | stepEndComplete => exact execStepEndComplete_keeps h
  | batchIssue => exact execBatchIssue_keeps h
  | batchComplete => exact execBatchComplete_keeps h
  | controllerEvaluate => exact execControllerEvaluate_keeps h
  | streamArm => exact execStreamArm_keeps h
  | streamFlush => exact execStreamFlush_keeps h
  | streamFetchStart => exact execStreamFetchStart_keeps h
  | streamFetchDone => exact execStreamFetchDone_keeps h
  | streamDeliver => exact execStreamDeliver_keeps h
  | streamDeliveryDone => exact execStreamDeliveryDone_keeps h
  | slotRelease => exact execSlotRelease_keeps h
  | allReduce => exact execAllReduce_keeps h
  | reduceScatter => exact execReduceScatter_keeps h
  | allGather => exact execAllGather_keeps h
  | permute => exact execPermute_keeps h
  | reduceUpdate => exact execReduceUpdate_keeps h
  | updateSeal => exact execUpdateSeal_keeps h
  | sealDecide => exact execSealDecide_keeps h
  | sealTimeout => exact execSealTimeout_keeps h
  | collData => exact execCollData_keeps h
  | collForm => exact execCollForm_keeps h
  | collSeal => exact execCollSeal_keeps h
  | collAbort => exact execCollAbort_keeps h
  | formationTimeout => exact execFormationTimeout_keeps h
  | groupBroken => exact execGroupBroken_keeps h
  | checkpoint => exact execCheckpoint_keeps h
  | snapshotSend => exact execSnapshotSend_keeps h
  | ckptRestore => exact execCkptRestore_keeps h
  | ckptDrop => exact execCkptDrop_keeps h
  | ckptList => exact execCkptList_keeps h
  | snapshotRead => exact execSnapshotRead_keeps h
  | vaultCreate => exact execVaultCreate_keeps h
  | vaultSeal => exact execVaultSeal_keeps h
  | vaultDrop => exact execVaultDrop_keeps h
  | vaultList => exact execVaultList_keeps h
  | vaultStatus => exact execVaultStatus_keeps h
  | writingImageExpiry => exact execWritingImageExpiry_keeps h
  | ownImagePoll => exact execOwnImagePoll_keeps h
  | contextCreate => exact execContextCreate_keeps h
  | contextDestroy => exact execContextDestroy_keeps h
  | ringCreate => exact execRingCreate_keeps h
  | ringDestroy => exact execRingDestroy_keeps h
  | getRingState => exact execGetRingState_keeps h
  | ringAttach => exact execRingAttach_keeps h
  | ringResume => exact execRingResume_keeps h
  | setQuota => exact execSetQuota_keeps h
  | setExport => exact execSetExport_keeps h
  | setSeed => exact execSetSeed_keeps h
  | groupCreate => exact execGroupCreate_keeps h
  | groupDestroy => exact execGroupDestroy_keeps h
  | groupQuery => exact execGroupQuery_keeps h
  | ckptBind => exact execCkptBind_keeps h
  | vaultQuery => exact execVaultQuery_keeps h
  | vaultRelease => exact execVaultRelease_keeps h
  | bistGrant => exact execBistGrant_keeps h
  | bistResults => exact execBistResults_keeps h
  | bistFailView => exact execBistFailView_keeps h
  | bistFieldNow => exact execBistFieldNow_keeps h
  | evrRead => exact execEvrRead_keeps h
  | evrCperRead => exact execEvrCperRead_keeps h
  | evrNonce => exact execEvrNonce_keeps h
  | evrClear => exact execEvrClear_keeps h
  | evrProvision => exact execEvrProvision_keeps h
  | telemRead => exact execTelemRead_keeps h
  | shutdown => exact execShutdown_keeps h
  | imageLoad => exact execImageLoad_keeps h
  | slotQuery => exact execSlotQuery_keeps h
  | slotActivate => exact execSlotActivate_keeps h
  | slotConfirm => exact execSlotConfirm_keeps h
  | linkQuery => exact execLinkQuery_keeps h
  | linkSetCap => exact execLinkSetCap_keeps h
  | linkDisable => exact execLinkDisable_keeps h
  | linkEnable => exact execLinkEnable_keeps h
  | linkRetrain => exact execLinkRetrain_keeps h
  | summaryPoll => exact execSummaryPoll_keeps h
  | watch => exact execWatch_keeps h
  | swapData => exact execSwapData_keeps h
  | descriptorFetch => exact execDescriptorFetch_keeps h
  | seqGap => exact execSeqGap_keeps h
  | cqHeadReread => exact execCqHeadReread_keeps h
  | hostFlitReceive => exact execHostFlitReceive_keeps h
  | hostPortResend => exact execHostPortResend_keeps h
  | rdData => exact execRdData_keeps h
  | wrErr => exact execWrErr_keeps h
  | fenceAck => exact execFenceAck_keeps h
  | fenceTimeout => exact execFenceTimeout_keeps h
  | hostPortTimeout => exact execHostPortTimeout_keeps h
  | hostModuleLeftOut => exact execHostModuleLeftOut_keeps h
  | unitReduced => exact execUnitReduced_keeps h
  | unitFreeze => exact execUnitFreeze_keeps h
  | drainStart => exact execDrainStart_keeps h
  | unitEmptied => exact execUnitEmptied_keeps h
  | unitOut => exact execUnitOut_keeps h
  | unitReturn => exact execUnitReturn_keeps h
  | penumbraResend => exact execPenumbraResend_keeps h
  | penumbraOut => exact execPenumbraOut_keeps h
  | laneJob => exact execLaneJob_keeps h
  | courseCompress => exact execCourseCompress_keeps h
  | blockExpand => exact execBlockExpand_keeps h
  | laneRetired => exact execLaneRetired_keeps h
  | glintRequest => exact execGlintRequest_keeps h
  | glintMemData => exact execGlintMemData_keeps h
  | glintReset => exact execGlintReset_keeps h
  | waveStart => exact execWaveStart_keeps h
  | tileEnd => exact execTileEnd_keeps h
  | duplicateCompare => exact execDuplicateCompare_keeps h
  | engineRetired => exact execEngineRetired_keeps h
  | chainSplice => exact execChainSplice_keeps h
  | recipeStall => exact execRecipeStall_keeps h
  | waitReevaluate => exact execWaitReevaluate_keeps h
  | opConfig => exact execOpConfig_keeps h
  | opLoop => exact execOpLoop_keeps h
  | opWait => exact execOpWait_keeps h
  | opSignal => exact execOpSignal_keeps h
  | opLoad => exact execOpLoad_keeps h
  | opStore => exact execOpStore_keeps h
  | opLdls => exact execOpLdls_keeps h
  | opStls => exact execOpStls_keeps h
  | opLdrows => exact execOpLdrows_keeps h
  | opStacc => exact execOpStacc_keeps h
  | opAdd => exact execOpAdd_keeps h
  | opSub => exact execOpSub_keeps h
  | opMul => exact execOpMul_keeps h
  | opFma => exact execOpFma_keeps h
  | opMax => exact execOpMax_keeps h
  | opMin => exact execOpMin_keeps h
  | opAdds => exact execOpAdds_keeps h
  | opMuls => exact execOpMuls_keeps h
  | opRelu => exact execOpRelu_keeps h
  | opLrelu => exact execOpLrelu_keeps h
  | opGelu => exact execOpGelu_keeps h
  | opSigmoid => exact execOpSigmoid_keeps h
  | opTanh => exact execOpTanh_keeps h
  | opSilu => exact execOpSilu_keeps h
  | opLnorm => exact execOpLnorm_keeps h
  | opRmsnorm => exact execOpRmsnorm_keeps h
  | opRsum => exact execOpRsum_keeps h
  | opRsumsq => exact execOpRsumsq_keeps h
  | opAcczero => exact execOpAcczero_keeps h
  | opAccrd => exact execOpAccrd_keeps h
  | opPool => exact execOpPool_keeps h
  | opCat => exact execOpCat_keeps h
  | opTransp => exact execOpTransp_keeps h
  | opMm => exact execOpMm_keeps h
  | opMmout => exact execOpMmout_keeps h
  | opMaskgen => exact execOpMaskgen_keeps h
  | opMaskapply => exact execOpMaskapply_keeps h
  | opDropout => exact execOpDropout_keeps h
  | opRelumask => exact execOpRelumask_keeps h
  | opQuant => exact execOpQuant_keeps h
  | opDequant => exact execOpDequant_keeps h
  | opCvt => exact execOpCvt_keeps h
  | opDigest => exact execOpDigest_keeps h
  | movLoad => exact execMovLoad_keeps h
  | movAbort => exact execMovAbort_keeps h
  | movResume => exact execMovResume_keeps h
  | movPrioWrite => exact execMovPrioWrite_keeps h
  | burstGrant => exact execBurstGrant_keeps h
  | transferComplete => exact execTransferComplete_keeps h
  | busError => exact execBusError_keeps h
  | channelRetired => exact execChannelRetired_keeps h
  | movDirectReq => exact execMovDirectReq_keeps h
  | directGrant => exact execDirectGrant_keeps h
  | linkFrameReceive => exact execLinkFrameReceive_keeps h
  | linkResend => exact execLinkResend_keeps h
  | linkRetrainDone => exact execLinkRetrainDone_keeps h
  | laneBad => exact execLaneBad_keeps h
  | laneCtrl => exact execLaneCtrl_keeps h
  | spareLaneTrained => exact execSpareLaneTrained_keeps h
  | linkTrained => exact execLinkTrained_keeps h
  | trainingRetry => exact execTrainingRetry_keeps h
  | hello => exact execHello_keeps h
  | grant => exact execGrant_keeps h
  | pnRd => exact execPnRd_keeps h
  | pnWr => exact execPnWr_keeps h
  | pnRdData => exact execPnRdData_keeps h
  | pnWrAck => exact execPnWrAck_keeps h
  | remoteSignal => exact execRemoteSignal_keeps h
  | signalResend => exact execSignalResend_keeps h
  | signalTimeout => exact execSignalTimeout_keeps h
  | barrier => exact execBarrier_keeps h
  | linkL1Entry => exact execLinkL1Entry_keeps h
  | linkL1Wake => exact execLinkL1Wake_keeps h
  | eventPulse => exact execEventPulse_keeps h
  | mirrorWrite => exact execMirrorWrite_keeps h
  | postPoll => exact execPostPoll_keeps h
  | wakeIn => exact execWakeIn_keeps h
  | longWait => exact execLongWait_keeps h
  | barrierArrive => exact execBarrierArrive_keeps h
  | beaconComplete => exact execBeaconComplete_keeps h
  | beaconHoldEnd => exact execBeaconHoldEnd_keeps h
  | barrierComplete => exact execBarrierComplete_keeps h
  | barrierTimeout => exact execBarrierTimeout_keeps h
  | synBarCfgWrite => exact execSynBarCfgWrite_keeps h
  | synCtrCfgWrite => exact execSynCtrCfgWrite_keeps h
  | synCtrValWrite => exact execSynCtrValWrite_keeps h
  | lockAcquire => exact execLockAcquire_keeps h
  | lockRelease => exact execLockRelease_keeps h
  | lockAbandon => exact execLockAbandon_keeps h
  | scrubPass => exact execScrubPass_keeps h
  | targetedTest => exact execTargetedTest_keeps h
  | testDecision => exact execTestDecision_keeps h
  | rowRetire => exact execRowRetire_keeps h
  | sliceReplace => exact execSliceReplace_keeps h
  | pageRetire => exact execPageRetire_keeps h
  | shutdownTest => exact execShutdownTest_keeps h
  | sliceStart => exact execSliceStart_keeps h
  | sliceEnd => exact execSliceEnd_keeps h
  | sliceTimeout => exact execSliceTimeout_keeps h
  | bistStart => exact execBistStart_keeps h
  | fieldTestDue => exact execFieldTestDue_keeps h
  | fieldTestStart => exact execFieldTestStart_keeps h
  | deferTimeout => exact execDeferTimeout_keeps h
  | fieldTestEnd => exact execFieldTestEnd_keeps h
  | paceWindowEnd => exact execPaceWindowEnd_keeps h
  | pwrModeWrite => exact execPwrModeWrite_keeps h
  | pwrCapWrite => exact execPwrCapWrite_keeps h
  | budgetWithdraw => exact execBudgetWithdraw_keeps h
  | retainEntry => exact execRetainEntry_keeps h
  | wakeRequest => exact execWakeRequest_keeps h
  | rampDone => exact execRampDone_keeps h
  | domainOn => exact execDomainOn_keeps h
  | calibrationRecheck => exact execCalibrationRecheck_keeps h
  | driftCheck => exact execDriftCheck_keeps h
  | tbclkLoss => exact execTbclkLoss_keeps h
  | pllLockTimeout => exact execPllLockTimeout_keeps h
  | align => exact execAlign_keeps h
  | start => exact execStart_keeps h
  | ringLevel => exact execRingLevel_keeps h
  | umbraReady => exact execUmbraReady_keeps h
  | linksReady => exact execLinksReady_keeps h
  | patchBankSwitch => exact execPatchBankSwitch_keeps h
  | rstNAssert => exact execRstNAssert_keeps h
  | pgoodFall => exact execPgoodFall_keeps h
  | shdnReq => exact execShdnReq_keeps h
  | graceExpiry => exact execGraceExpiry_keeps h
  | drainExpiry => exact execDrainExpiry_keeps h
  | offReady => exact execOffReady_keeps h
  | quenchChannel => exact execQuenchChannel_keeps h
  | discrepancyExpiry => exact execDiscrepancyExpiry_keeps h
  | quench => exact execQuench_keeps h
  | quenchClear => exact execQuenchClear_keeps h
  | mfSelectWrite => exact execMfSelectWrite_keeps h
  | mfReleaseEnd => exact execMfReleaseEnd_keeps h
  | eventRecord => exact execEventRecord_keeps h
  | journalWrite => exact execJournalWrite_keeps h
  | journalCompact => exact execJournalCompact_keeps h
  | journalReadAtStart => exact execJournalReadAtStart_keeps h
  | storeFault => exact execStoreFault_keeps h
  | telemetrySnapshot => exact execTelemetrySnapshot_keeps h
  | evrReadSlotWrite => exact execEvrReadSlotWrite_keeps h
  | hubAdminAttach => exact execHubAdminAttach_keeps h
  | adminAttachDone => exact execAdminAttachDone_keeps h
  | mailboxPoll => exact execMailboxPoll_keeps h
  | i3cPrivateWrite => exact execI3cPrivateWrite_keeps h
  | i3cPrivateRead => exact execI3cPrivateRead_keeps h
  | registerWrite => exact execRegisterWrite_keeps h
  | recalibrationDone => exact execRecalibrationDone_keeps h
  | hostPortRetrained => exact execHostPortRetrained_keeps h
  | clearReady => exact execClearReady_keeps h
  | nonceLockoutEnd => exact execNonceLockoutEnd_keeps h
  | retentionMonitor => exact execRetentionMonitor_keeps h
  | i3cBusReset => exact execI3cBusReset_keeps h
  | jtagTap => exact execJtagTap_keeps h

theorem idle_keeps (h : Keeps a s) : Keeps a s.idle := ite_keeps h h.of

theorem step_of_nil (e : s.pending = []) : step s = .next s.idle := by
  unfold step
  split
  · rfl
  · rename_i e2
    cases e.symm.trans e2

theorem step_of_cons {c : Instr} {rest : List Instr} (e : s.pending = c :: rest) :
    step s = exec c { s with pending := rest } := by
  unfold step
  split
  · rename_i e2
    cases e.symm.trans e2
  · rename_i e2
    cases e.symm.trans e2
    rfl

/-- A step takes the front command from the queue, and keeps what no operation undoes of the state without it. -/
theorem step_keeps : OutKeeps { s with pending := s.pending.tail } (step s) := by
  cases e : s.pending with
  | nil =>
    rw [step_of_nil e]
    exact idle_keeps ⟨e, Nat.le_refl _, id, Nat.le_refl _, rfl, rfl⟩
  | cons c rest =>
    rw [step_of_cons e]
    exact exec_keeps (Keeps.refl _)

/-! ### The statements of the scope -/

/-- Settles O5: no operation a step calls takes host memory or its poison marks out of canonical form. -/
theorem stepKeepsHostMemoryCanonical : Obligations.StepKeepsHostMemoryCanonical := by
  intro s t hs e
  exact (OutKeeps.of_eq e step_keeps).host hs

/-- Settles O2: on an empty queue a step is the tick of `State.idle`. -/
theorem emptyQueueCountsOneTick : Obligations.EmptyQueueCountsOneTick := by
  intro s e
  have hq : (s.start.quench.state == 2 && s.start.quench.cause == 3) = true
      ↔ s.start.quench.state = 2 ∧ s.start.quench.cause = 3 := by simp
  rw [step_of_nil e]
  simp only [State.idle, hq]

/-- Settles O4: at reset host memory and its poison marks are empty. -/
theorem resetHostMemoryIsCanonical : Obligations.ResetHostMemoryIsCanonical := rfl

end Sys2Proof.Machine
end

section
/-!
PROOF. Answers and timeouts at a host port (Machine/Ports.lean): the statement O14. Lemmas say what a failed read does by
the use it was for, what a wait of a completion does when it ends, and what a command does where the request it answers is
out at the port; each claim follows from them.
-/
namespace Sys2Proof.Machine

variable {s : State} {hub : Hub}

/-! ### Reads and exchanges (R157, R316, R343) -/

section

variable {q : PortReq} {k : HKey} {b : Nat}

theorem portError_eq {addr : Nat} : s.portError hub addr = s.event hub (ev 0x0033 2 addr) := rfl

/-- The failed read of a block also ends the fill that asked for it, where its handle is still registered (R157). -/
theorem readFailed_of_handle {x : Handle} (hu : q.use = .readyBlock k b)
    (hx : (s.event hub (ev 0x0033 2 q.addr)).handle? k = some x) :
    s.readFailed hub q = (s.event hub (ev 0x0033 2 q.addr)).failFill x 0x22 := by
  simp only [State.readFailed, portError_eq, hu, hx]

theorem readFailed_of_no_handle (hu : q.use = .readyBlock k b)
    (hx : (s.event hub (ev 0x0033 2 q.addr)).handle? k = none) :
    s.readFailed hub q = s.event hub (ev 0x0033 2 q.addr) := by
  simp only [State.readFailed, portError_eq, hu, hx]

/-- The failure of a request that no fill waits for is recorded and nothing more. -/
theorem readFailed_of_no_block (hu : ∀ k b, q.use ≠ .readyBlock k b) :
    s.readFailed hub q = s.event hub (ev 0x0033 2 q.addr) := by
  cases e : q.use with
  | readyBlock k b => exact absurd e (hu k b)
  | summary _ => simp only [State.readFailed, portError_eq, e]
  | other => simp only [State.readFailed, portError_eq, e]

/-- The answer to a block's read takes the request off the port; it failed, or the block joins its fill. -/
theorem exec_rdData_of_block {tag poison : BitVec 16} {error : Bool}
    (hq : s.rg.ports[hub].reads.find? (fun q : PortReq => q.tag == tag) = some q) (hu : q.use = .readyBlock k b) :
    let p := s.rg.ports[hub]
    let u := s.setPort hub { p with reads := p.reads.filter (fun x : PortReq => x.tag ≠ tag) }
    exec (.rdData hub tag error poison) s
      = .next (if error then u.readFailed hub q else u.blockIn k b (poison != 0)) := by
  change execRdData hub tag error poison s = _
  simp only [execRdData, hq, hu]
  cases error <;> rfl

/-- A request unanswered for 10 ms leaves the port and ends as one that failed. -/
theorem exec_hostPortTimeout_of_due {tag : BitVec 16}
    (hq : (s.rg.ports[hub].reads ++ s.rg.ports[hub].swaps).find? (fun q : PortReq => q.tag == tag) = some q)
    (hdue : q.since + 10 * msTicks ≤ s.tick) :
    let p := s.rg.ports[hub]
    exec (.hostPortTimeout hub tag) s
      = .next ((s.setPort hub { p with reads := p.reads.filter (fun x : PortReq => x.tag ≠ tag)
                                       swaps := p.swaps.filter (fun x : PortReq => x.tag ≠ tag) }).readFailed hub q) := by
  change execHostPortTimeout hub tag s = _
  simp only [execHostPortTimeout, hq, if_neg (Nat.not_lt.mpr hdue)]

end

theorem rdData_leaves : Claims.rdData := by
  rintro s hub tag error poison q k b ⟨hq, hu⟩ p u
  rw [exec_rdData_of_block hq hu]
  cases error with
  | false => rfl
  | true =>
    cases hx : (u.event hub (ev 0x0033 2 q.addr)).handle? k with
    | none =>
      simp only [hx, if_true]
      exact congrArg _ (readFailed_of_no_handle hu hx)
    | some x =>
      simp only [hx, if_true]
      exact congrArg _ (readFailed_of_handle hu hx)

theorem hostPortTimeout_leaves : Claims.hostPortTimeout := by
  rintro s hub tag q ⟨hq, hdue⟩ p u
  rw [exec_hostPortTimeout_of_due hq hdue]
  cases hu : q.use with
  | readyBlock k b =>
    cases hx : u.handle? k with
    | none =>
      simp only [hx]
      exact congrArg _ (readFailed_of_no_handle hu hx)
    | some x =>
      simp only [hx]
      exact congrArg _ (readFailed_of_handle hu hx)
  | summary _ => exact congrArg _ (readFailed_of_no_block (by simp [hu]))
  | other => exact congrArg _ (readFailed_of_no_block (by simp [hu]))

/-! ### Writes (R376) -/

theorem wrErr_leaves : Claims.wrErr := by
  intro s hub tag w hw
  change execWrErr hub tag s = _
  simp only [execWrErr, hw]

/-! ### Fences (R31, R32, R346) -/

@[simp] theorem setPort_rg_fenceWaits {p : HostPort} : (s.setPort hub p).rg.fenceWaits = s.rg.fenceWaits := rfl

/-- A completion that ends with the status it was formed with keeps its RESULT. -/
theorem endWait_of_completion {w : FenceWait} (hk : w.kind = 0) :
    s.endWait w w.status
      = s.complete w.ticket { status := w.status, flags := w.flags, result := w.result, xbytes := w.xbytes } := by
  simp [State.endWait, hk]

/-- The answer to the last fence of the only wait ends that wait with its own status. -/
theorem exec_fenceAck_of_last {number : BitVec 32} {w : FenceWait}
    (hf : s.rg.ports[hub].fences.any (fun f : PortFence => f.number == number) = true)
    (hws : s.rg.fenceWaits = [w]) (hw : w.fences = [(hub, number)]) :
    let p := s.rg.ports[hub]
    let u := s.setPort hub { p with fences := p.fences.filter (fun f : PortFence => f.number ≠ number) }
    exec (.fenceAck hub number) s
      = .next (({ u with rg := { u.rg with fenceWaits := [] } }).endWait { w with fences := [] } w.status) := by
  change execFenceAck hub number s = _
  simp only [execFenceAck, hf]
  simp [hws, hw]

theorem fenceAck_leaves : Claims.fenceAck := by
  rintro s hub number w ⟨hf, hws, hw, hk⟩ p u
  rw [exec_fenceAck_of_last hf hws hw]
  exact congrArg _ (endWait_of_completion (w := { w with fences := [] }) hk)

theorem fenceTimeout_leaves : Claims.fenceTimeout := by
  rintro s hub number f ⟨hf, hdue⟩
  change execFenceTimeout hub number s = _
  simp only [execFenceTimeout, hf, if_neg (Nat.not_lt.mpr hdue), State.fresh, portError_eq]

/-! ### The statement -/

/-- Settles O14: what each answer and each timeout does where its request is out at the port. -/
theorem hostPortAnswersAndTimeouts : Obligations.HostPortAnswersAndTimeouts :=
  ⟨rdData_leaves, wrErr_leaves, fenceAck_leaves, fenceTimeout_leaves, hostPortTimeout_leaves⟩

end Sys2Proof.Machine
end

section
/-!
PROOF. Plans, steps and batches (Machine/Plans.lean): the statement O23. First what a descriptor's start gives where it is
accepted, and which operations leave every context, or the tick count, as it was; then what a charge and a plan made active
give a context; each claim follows from them.
-/
namespace Sys2Proof.Machine

variable {s : State}

/-! ### A descriptor that is accepted -/

/-- The command of an accepted descriptor acts (R313). -/
theorem withDesc_of_accepts {d : Desc} {x : DescSpec} {act : Ticket → State → State}
    (h : Claims.accepts s d x = true) : s.withDesc d x act = act d.ticket s := by
  unfold Claims.accepts at h
  cases hr : s.ring? d.ring.toNat with
  | none => simp [hr] at h
  | some r =>
    simp only [hr, Bool.and_eq_true, Bool.not_eq_true', Option.isNone_iff_eq_none] at h
    obtain ⟨⟨⟨⟨hserves, hstart⟩, hwait⟩, hcheck⟩, hmoves⟩ := h
    simp [State.withDesc, hr, hserves, hstart, hwait, hcheck, hmoves]

/-! ### What is found of a context -/

theorem ctx_id {n : Nat} {c : Ctx} (hc : s.ctx? n = some c) : c.id = n := by
  simpa using List.find?_some hc

/-- A context replaced by one of the same number is found. -/
theorem ctx_setCtx_of_ctx {n : Nat} {c x : Ctx} (hc : s.ctx? n = some c) (hx : x.id = c.id) :
    (s.setCtx x).ctx? n = some x := by
  obtain rfl : x.id = n := hx.trans (ctx_id hc)
  exact ctx_setCtx (by simp [hc])

theorem ctx_of_ctxs {t : State} {n : Nat} (h : t.ctxs = s.ctxs) : t.ctx? n = s.ctx? n := by
  simp only [State.ctx?, h]

theorem stepOf_iff {n : Nat} {c : Ctx} {r : StepRun} :
    s.stepOf n = some (c, r) ↔ s.ctx? n = some c ∧ c.step = some r := by
  simp only [State.stepOf, Option.bind_eq_some_iff, Option.map_eq_some_iff, Prod.mk.injEq]
  constructor
  · rintro ⟨_, hc, _, hr, rfl, rfl⟩
    exact ⟨hc, hr⟩
  · rintro ⟨hc, hr⟩
    exact ⟨c, hc, r, hr, rfl, rfl⟩

/-- A context replaced while its step runs is found with the step it then has. -/
theorem stepOf_setCtx {n : Nat} {c x : Ctx} {r q : StepRun} (h : s.stepOf n = some (c, r)) (hx : x.id = c.id)
    (hq : x.step = some q) : (s.setCtx x).stepOf n = some (x, q) := by
  obtain ⟨hc, -⟩ := stepOf_iff.mp h
  exact stepOf_iff.mpr ⟨ctx_setCtx_of_ctx hc hx, hq⟩

/-! ### Operations that leave every context -/

@[simp] theorem event_ctxs {h : Hub} {e : Event} : (s.event h e).ctxs = s.ctxs := by
  unfold State.event
  dsimp only
  split
  · rfl
  · split <;> rfl

@[simp] theorem post_ctxs {ring ssl kind : Nat} {uns xres : Bool} {st : BitVec 8} {fl : BitVec 3} {res : BitVec 64} :
    (s.post ring uns ssl st fl xres kind res).ctxs = s.ctxs := by
  unfold State.post
  split
  · rfl
  · dsimp only
    split
    · rfl
    · split
      · split
        · rfl
        · exact event_ctxs
      · rfl

@[simp] theorem answer_ctxs {t : Ticket} {d : Done} : (s.answer t d).ctxs = s.ctxs := by
  have hwrite : (if t.xres then s.hostWrite t.resultAddr d.xbytes else s).ctxs = s.ctxs := by split <;> rfl
  unfold State.answer
  dsimp only
  split
  · exact hwrite
  · exact post_ctxs.trans hwrite

@[simp] theorem endDestroy_ctxs {ring : Nat} : (s.endDestroy ring).ctxs = s.ctxs := by
  unfold State.endDestroy
  split
  · split
    · split
      · rw [answer_ctxs]
        split <;> rfl
      · rfl
    · rfl
  · rfl

@[simp] theorem complete_ctxs {t : Ticket} {d : Done} : (s.complete t d).ctxs = s.ctxs := by
  unfold State.complete
  split
  · rfl
  · simp

@[simp] theorem dropReader_ctxs {k : HKey} : (s.dropReader k).ctxs = s.ctxs := by
  unfold State.dropReader
  split <;> rfl

/-- The end of a stream changes handles and rings (R158). -/
@[simp] theorem endStream_ctxs {x : Stream} : (s.endStream x).ctxs = s.ctxs := by
  refine List.foldlRecOn _ _ (motive := fun u : State => u.ctxs = s.ctxs) ?_ (fun u hu e _ => complete_ctxs.trans hu)
  refine List.foldlRecOn _ _ (motive := fun u : State => u.ctxs = s.ctxs) rfl (fun u hu y _ => ?_)
  split
  · exact dropReader_ctxs.trans hu
  · exact hu

theorem endStreams_ctxs {xs : List Stream} : (xs.foldl State.endStream s).ctxs = s.ctxs :=
  List.foldlRecOn _ _ (motive := fun u : State => u.ctxs = s.ctxs) rfl (fun _ hu _ _ => endStream_ctxs.trans hu)

/-! ### Operations that count no tick -/

@[simp] theorem event_tick {h : Hub} {e : Event} : (s.event h e).tick = s.tick := by
  unfold State.event
  dsimp only
  split
  · rfl
  · split <;> rfl

@[simp] theorem wakeOut_tick {h : Hub} : (s.wakeOut h).tick = s.tick := by
  unfold State.wakeOut
  split <;> rfl

@[simp] theorem setHostCtr_tick {h : Hub} {c : Nat} {v : BitVec 32} : (s.setHostCtr h c v).tick = s.tick := by
  unfold State.setHostCtr
  rw [setSync_tick]
  split
  · exact wakeOut_tick
  · rfl

@[simp] theorem zeroCtr_tick {h : Hub} {c : Nat} : (s.zeroCtr h c).tick = s.tick := setHostCtr_tick (v := 0)

@[simp] theorem realign_tick {h : Hub} {c : Nat} : (s.realign h c).tick = s.tick := by
  unfold State.realign
  dsimp only
  split
  · split
    · split <;> simp
    · exact event_tick
  · split <;> simp

@[simp] theorem realignOn_tick {sel : Nat → Bool} {h : Hub} : (s.realignOn sel h).tick = s.tick :=
  List.foldlRecOn _ _ (motive := fun u : State => u.tick = s.tick) rfl (fun _ hu _ _ => realign_tick.trans hu)

/-- A realignment sets counters and records events; it counts no tick (R484). -/
@[simp] theorem realignWhere_tick {sel : Nat → Bool} : (s.realignWhere sel).tick = s.tick :=
  List.foldlRecOn _ _ (motive := fun u : State => u.tick = s.tick) rfl (fun _ hu _ _ => realignOn_tick.trans hu)

/-! ### Charges, and a plan that becomes active (R92, R104, R158) -/

/-- A context after a charge in Shade, or its return. -/
def Ctx.chargeShade (c : Ctx) (m : Int) : Ctx :=
  let v := ((c.shade.charge : Int) + m).toNat
  { c with shade := { c.shade with charge := v, peak := max c.shade.peak v } }

/-- What a charge replaces its context by. -/
theorem charge_shade {n : Nat} {m : Int} {c : Ctx} (hc : s.ctx? n = some c) :
    s.charge n 2 m = s.setCtx (c.chargeShade m) := by
  simp only [State.charge, hc]
  rfl

theorem ctx_charge_shade {n : Nat} {m : Int} {c : Ctx} (hc : s.ctx? n = some c) :
    (s.charge n 2 m).ctx? n = some (c.chargeShade m) := by
  rw [charge_shade hc]
  exact ctx_setCtx_of_ctx hc rfl

/-- Each stream of a new plan, carried over or new, has the plan's record. -/
theorem streamOf_spec {old : List Stream} {x : PlanStream} : (streamOf old x).spec = x := by
  unfold streamOf
  split <;> rfl

theorem map_spec_streamOf {old : List Stream} {xs : List PlanStream} : (xs.map (streamOf old)).map Stream.spec = xs := by
  simp [Function.comp_def, streamOf_spec]

/-- What a context holds once a plan has become its active plan. -/
theorem activate_ctx {n : Nat} {p : Plan} {c : Ctx} (hc : s.ctx? n = some c) : ∃ x : Ctx,
    (s.activate n p).ctx? n = some x ∧ x.planRing = c.planRing ∧ x.active = some p ∧ x.staged = none
      ∧ x.rules = p.rules ∧ x.streams.map Stream.spec = p.streams := by
  have hback (xs : List Stream) (m : Int) : ((xs.foldl State.endStream s).charge n 2 m).ctx? n = some (c.chargeShade m) :=
    ctx_charge_shade ((ctx_of_ctxs endStreams_ctxs).trans hc)
  simp only [State.activate, hc, hback]
  exact ⟨_, ctx_setCtx_of_ctx (hback _ _) rfl, rfl, rfl, rfl, rfl, map_spec_streamOf⟩

/-! ### LOAD_PLAN (R90 to R94) -/

theorem exec_loadPlan_of_accepts {d : Desc} (h : Claims.accepts s d (loadPlanSpec d) = true) :
    exec (.loadPlan d) s = .next (s.loadPlan d d.ticket) :=
  congrArg _ (withDesc_of_accepts h)

/-- A context charged in Shade for a plan's copy and windows, that names the ring the plan came on. The charge is a number
of its own here, so that no proof about the context's other fields computes it. -/
def Ctx.planTaken (c : Ctx) (ring n : Nat) : Ctx :=
  { c.chargeShade n with planRing := ring }

theorem planTaken_charge {c : Ctx} {ring n : Nat} : (c.planTaken ring n).shade.charge = c.shade.charge + n := by
  simp only [Ctx.planTaken, Ctx.chargeShade]
  omega

/-- An image that passes every check is charged, then staged while a step runs and made active otherwise. -/
theorem loadPlan_of_checked {d : Desc} {t : Ticket} {c : Ctx} {img : Image9} {p : Plan} {n : Nat}
    (hc : s.ctx? (s.descCtx d) = some c) (hstaged : c.staged = none)
    (himg : s.readImage (d.f 127 64) (d.f 159 128) = some img) (hcheck : imageCheck img (s.descCtx d) = none)
    (hp : planOf img = p) (hn : c.planCharge p = n) (htakes : s.ledgerTakes (s.descCtx d) 2 n = true) : ∃ u : State,
    u.ctx? (s.descCtx d) = some (c.planTaken d.ring.toNat n)
      ∧ s.loadPlan d t = (if c.step.isSome then u.setCtx { c.planTaken d.ring.toNat n with staged := some p }
        else u.activate (s.descCtx d) p).complete t { status := 0, result := p.planId } := by
  have hcharge := ctx_charge_shade (m := (n : Int)) hc
  have hfound := ctx_setCtx_of_ctx (x := c.planTaken d.ring.toNat n) hcharge rfl
  refine ⟨_, hfound, ?_⟩
  have hset : { c.chargeShade n with planRing := d.ring.toNat } = c.planTaken d.ring.toNat n := rfl
  simp only [State.loadPlan, hc, hstaged, himg, hcheck, hp, hn, htakes, hcharge, hset, hfound, Option.isSome_none,
    Bool.not_true, Bool.false_eq_true, if_false]

/-- What a context holds once a plan has been staged. -/
theorem stage_ctx {u : State} {k ring n : Nat} {c : Ctx} {p : Plan} (hu : u.ctx? k = some (c.planTaken ring n)) : ∃ x : Ctx,
    (u.setCtx { c.planTaken ring n with staged := some p }).ctx? k = some x ∧ x.planRing = ring ∧ x.staged = some p
      ∧ x.active = c.active ∧ x.rules = c.rules ∧ x.streams = c.streams ∧ x.shade.charge = c.shade.charge + n :=
  ⟨_, ctx_setCtx_of_ctx hu rfl, rfl, rfl, rfl, rfl, rfl, planTaken_charge (ring := ring)⟩

theorem loadPlan_leaves : Claims.loadPlan := by
  rintro s d c img ⟨hacc, hc, hstaged, himg, hcheck, htakes⟩
  obtain ⟨u, hu, hload⟩ := loadPlan_of_checked (t := d.ticket) hc hstaged himg hcheck rfl rfl htakes
  have hexec := (exec_loadPlan_of_accepts hacc).trans (congrArg _ hload)
  cases hstep : c.step.isSome with
  | true =>
    obtain ⟨x, hx, hring, hkept⟩ := stage_ctx (p := planOf img) hu
    rw [hstep, if_pos rfl] at hexec
    exact ⟨_, x, hexec, hx, hring, hkept⟩
  | false =>
    obtain ⟨x, hx, hring, hkept⟩ := activate_ctx (p := planOf img) hu
    rw [hstep, if_neg Bool.false_ne_true] at hexec
    exact ⟨_, x, hexec, hx, hring, hkept⟩

theorem planRefused_leaves : Claims.planRefused := by
  intro s d c img e i hacc hc hstaged himg hcheck
  rw [exec_loadPlan_of_accepts hacc]
  simp [State.loadPlan, hc, hstaged, himg, hcheck]

/-! ### Steps (R94 to R97, R163, R223, R484) -/

theorem stepBegin_leaves : Claims.stepBegin := by
  rintro s d c ⟨hacc, hc, hstep, hmark⟩ n bs u
  refine congrArg Host.Outcome.next ((withDesc_of_accepts hacc).trans ?_)
  cases hm : c.active.bind Plan.markCounter with
  | none =>
    simp only [State.stepBegin, hc, hstep, hm, Option.isSome_none, Bool.false_eq_true, if_false, realignWhere_tick] <;> rfl
  | some x =>
    have hown : s.ownsCtr x.1 x.2 (s.descCtx d) = true := by simpa only [hm] using hmark
    simp only [State.stepBegin, hc, hstep, hm, hown, Bool.not_true, Option.isSome_none, Bool.false_eq_true, if_false,
      realignWhere_tick] <;> rfl

theorem mark_leaves : Claims.mark := by
  rintro s d c r ⟨hacc, hstep, hlt⟩
  have hnot : ¬ BitVec.ofNat 32 (d.f 95 64) ≤ c.mark := BitVec.not_le.mpr hlt
  refine congrArg Host.Outcome.next ((withDesc_of_accepts hacc).trans ?_)
  simp only [hstep, if_neg hnot]

theorem stepEnd_leaves : Claims.stepEnd := by
  rintro s d c r ⟨hacc, hstep, hend⟩
  refine congrArg Host.Outcome.next ((withDesc_of_accepts hacc).trans ?_)
  simp [hstep, hend]

theorem stepEndComplete_leaves : Claims.stepEndComplete := by
  rintro s ctx c r t n ⟨hstep, hend, hdone⟩ len u
  change execStepEndComplete ctx s = _
  simp only [execStepEndComplete, hstep, hend, hdone]
  rfl

/-! ### The statement -/

/-- Settles O23: what each command of a plan and a step does where its checks pass, and what a refused image does. -/
theorem plansAndSteps : Obligations.PlansAndSteps :=
  ⟨loadPlan_leaves, planRefused_leaves, stepBegin_leaves, mark_leaves, stepEnd_leaves, stepEndComplete_leaves⟩

end Sys2Proof.Machine
end

section
/-!
PROOF. Batches and the deadline controller (Machine/Plans.lean, Machine/Controller.lean): the statement O24. Lemmas say when
the conditions of R108 hold, what a batch of no failed restore answers, that an evaluation watches the batches the claim
names, and what the controller's first action leaves of its context.
-/
namespace Sys2Proof.Machine

variable {s : State}

/-! ### The issue of a batch (R108, R109) -/

/-- The four conditions of R108, in the words of the claim. -/
theorem mayIssue_iff {r : StepRun} {mark tick b : Nat} {p : PlanBatch} {x : BatchRun} :
    r.mayIssue mark tick b p x = true ↔ x.issued = false ∧ r.ending = none
      ∧ (r.batches.take b).all (fun y : BatchRun => y.issued) = true ∧ p.afterMark ≤ mark
      ∧ p.deadline - (if x.widened then p.openMax else p.openTicks) ≤ tick - r.start
      ∧ (r.batches.filter (fun y : BatchRun => y.issued && !y.done)).length
          < (if x.widened then p.lookMax else p.look) := by
  simp only [StepRun.mayIssue, Bool.and_eq_true, Bool.not_eq_true', Option.isNone_iff_eq_none, decide_eq_true_eq, and_assoc]
  rfl

/-- No restore of a batch waits where the tiers of every handle it names are up and no permutation holds one (R315). -/
theorem restores_ready {ctx : Nat} {qs : List PlanRestore}
    (h : qs.all (fun q => match s.handle? { ctx := ctx, obj := q.obj } with
      | some h => s.tiersUp h && !s.permuting h.key
      | none => true) = true) :
    qs.any (fun q => match s.handle? { ctx := ctx, obj := q.obj } with
      | some h => !s.tiersUp h || s.permuting h.key
      | none => false) = false := by
  rw [List.any_eq_false]
  intro q hq
  have hready := List.all_eq_true.mp h q hq
  cases hx : s.handle? { ctx := ctx, obj := q.obj } with
  | none => simp
  | some x => simpa [hx] using hready

theorem batchIssue_leaves : Claims.batchIssue := by
  rintro s ctx b c r a p x
    ⟨hstalled, hshut, hstep, hactive, hp, hx, hissued, hending, hbefore, hmark, hopen, hlook, hready⟩ u
  have hmay := mayIssue_iff.mpr ⟨hissued, hending, hbefore, hmark, hopen, hlook⟩
  have hwaits := restores_ready hready
  have hbatch : (c.active.bind fun p => p.batches[b]?) = some p := by rw [hactive, Option.bind_some, hp]
  change execBatchIssue ctx b s = _
  simp only [execBatchIssue, hstalled, hshut, hstep, hbatch, hx, hmay, Bool.or_self, Bool.false_eq_true, if_false]
  refine if_neg (fun h => ?_)
  rw [Bool.not_true, Bool.false_or] at h
  exact Bool.false_ne_true (hwaits.symm.trans h)

/-! ### The completion of a batch (R111, R123 to R125) -/

/-- A batch whose restores all succeeded has the status SUCCESS. -/
theorem status_of_succeeded {x : BatchRun} {n : Nat} (h : (List.range n).all (fun i => x.statusOf i == 0) = true) :
    x.status n = 0 := by
  have hnone : ((List.range n).map x.statusOf).find? (fun e => e != 0) = none := by
    simpa using h
  simp only [BatchRun.status, hnone, Option.getD_none]

theorem statusOf_succeeded {x : BatchRun} {n i : Nat} (h : (List.range n).all (fun i => x.statusOf i == 0) = true)
    (hi : i < n) : x.statusOf i = 0 := by
  simpa using List.all_eq_true.mp h i (List.mem_range.mpr hi)

/-- No completion of kind 2 is posted for the restores of a batch that all succeeded. -/
theorem posts_of_succeeded {x : BatchRun} {ps : List PlanRestore} {post : State → PlanRestore × Nat → State}
    (h : (List.range ps.length).all (fun i => x.statusOf i == 0) = true) :
    ps.zipIdx.foldl (fun (s : State) q => if x.statusOf q.2 = 0 then s else post s q) s = s := by
  refine List.foldlRecOn _ _ (motive := fun u : State => u = s) rfl (fun u hu q hq => ?_)
  rw [if_pos (statusOf_succeeded h (List.snd_lt_of_mem_zipIdx hq))]
  exact hu

theorem batchComplete_leaves : Claims.batchComplete := by
  rintro s ctx b c r a p x ⟨hstep, hactive, hp, hx, hissued, hdone, hended, hok⟩ late k u u'
  have hbatch : (c.active.bind fun p => p.batches[b]?) = some p := by rw [hactive, Option.bind_some, hp]
  have hwait : (!x.issued || x.done || decide (x.ended.length < p.restores.length)) = false := by
    simp [hissued, hdone, hended]
  change execBatchComplete ctx b s = _
  simp only [execBatchComplete, hstep, hbatch, hx, hwait, posts_of_succeeded hok, status_of_succeeded hok]
  rfl

/-! ### Evaluations (R113 to R115) -/

theorem controllerEvaluate_leaves : Claims.controllerEvaluate := by
  rintro s ctx c r p ⟨hstep, hactive, hen⟩ u now
  change execControllerEvaluate ctx s = _
  simp only [execControllerEvaluate, hstep, hactive, State.evaluate, State.fresh, hen, Nat.add_sub_cancel]
  split
  next h =>
    have hwatched : Claims.watchedOf s c r p = [] := h
    simp only [hwatched]
    rfl
  next e es h =>
    have hwatched : Claims.watchedOf s c r p = e :: es := h
    simp only [h, hwatched]
    rfl

/-! ### The first action (R115, R116) -/

@[simp] theorem raiseRuns_ctxs {ctx b prio : Nat} : (s.raiseRuns ctx b prio).ctxs = s.ctxs := rfl

theorem stepOf_of_ctxs {t : State} {n : Nat} (h : t.ctxs = s.ctxs) : t.stepOf n = s.stepOf n := by
  simp only [State.stepOf, ctx_of_ctxs h]

/-- A running step's batches changed by number, and all else of the context as it was. -/
theorem stepOf_mapBatches {n : Nat} {c : Ctx} {r : StepRun} {f : Nat → BatchRun → BatchRun}
    (h : s.stepOf n = some (c, r)) :
    let q : StepRun := { r with batches := r.batches.zipIdx.map (fun x => f x.2 x.1) }
    (s.mapBatches n f).stepOf n = some ({ c with step := some q }, q) := by
  simp only [State.mapBatches, h]
  exact stepOf_setCtx h rfl rfl

/-- An evaluation counted leaves the step that runs. -/
theorem stepOf_countEval {n : Nat} {c : Ctx} {r : StepRun} {f : StepCounts → StepCounts}
    (h : s.stepOf n = some (c, r)) : (s.countEval n f).stepOf n = some ({ c with counts := f c.counts }, r) := by
  obtain ⟨hc, hr⟩ := stepOf_iff.mp h
  simp only [State.countEval, hc]
  exact stepOf_setCtx h rfl hr

/-- Action 1 as its context shows it: batches raised, one action of the kind counted. -/
theorem stepOf_actPriority {n w : Nat} {c : Ctx} {r : StepRun} {p : Plan} (h : s.stepOf n = some (c, r)) :
    ∃ (x : Ctx) (q : StepRun), (s.actPriority n w p r).stepOf n = some (x, q)
      ∧ x.counts = { c.counts with priority := c.counts.priority + 1 }
      ∧ q.batches = r.batches.zipIdx.map (fun e =>
          if decide (e.2 ≤ w) && !e.1.done && decide (e.1.prio < p.prioMax) then
            { e.1 with prio := e.1.prio + 1, actions := e.1.actions ||| 1 }
          else e.1) := by
  have hmap := stepOf_mapBatches (f := fun i x => if decide (i ≤ w) && !x.done && decide (x.prio < p.prioMax) then
    { x with prio := x.prio + 1, actions := x.actions ||| 1 } else x) h
  refine ⟨_, _, stepOf_countEval ((stepOf_of_ctxs ?_).trans hmap), rfl, rfl⟩
  refine List.foldlRecOn _ _ (motive := fun u : State => u.ctxs = _) rfl (fun u hu e _ => ?_)
  dsimp only
  split
  · exact raiseRuns_ctxs.trans hu
  · exact hu

/-- Where the stage of the batch in need is shared and a higher priority is left, the controller takes its first action. -/
theorem controllerAct_of_low {c : Ctx} {p : Plan} {r : StepRun} {now : Nat} {ps : List Proj} {w : Proj}
    (hstage : w.stage ≠ 6) (hlow : w.low = true) (hprio : ((r.batches[w.batch]?).map BatchRun.prio).getD 0 < p.prioMax) :
    s.controllerAct c p r now ps w = s.actPriority c.id w.batch p r := by
  simp [State.controllerAct, hstage, hlow, hprio]

theorem controllerPriority_leaves : Claims.controllerPriority := by
  intro s c r p now ps w hstep hstage hlow hprio
  rw [controllerAct_of_low hstage hlow hprio]
  obtain ⟨x, q, hx, hcounts, hbatches⟩ := stepOf_actPriority (w := w.batch) (p := p) hstep
  exact ⟨x, q, hx, hcounts, by simpa [and_assoc] using hbatches⟩

/-! ### The statement -/

/-- Settles O24: what the issue and the completion of a batch and an evaluation leave, and the controller's first action. -/
theorem batchesAndTheController : Obligations.BatchesAndTheController :=
  ⟨batchIssue_leaves, batchComplete_leaves, controllerEvaluate_leaves, controllerPriority_leaves⟩

end Sys2Proof.Machine
end

section
/-!
PROOF. NOP, contexts, quotas, grants and seeds (Machine/Rings.lean, Machine/Contexts.lean): the statement O15. Each command
ends with what its action does where its descriptor is accepted; lemmas before CONTEXT_DESTROY say what the destruction of a
context does to the list of contexts, to handles and to counters.
-/
namespace Sys2Proof.Machine

variable {s : State}

/-! ### Commands that end with SUCCESS -/

/-- A command ends with SUCCESS where its descriptor is accepted and its action completes so (R313). -/
theorem endsOk_of_accepts {i : Instr} {d : Desc} {x : DescSpec} {act : Ticket → State → State} {u : State} {r : BitVec 64}
    (hacc : Claims.accepts s d x = true) (hexec : exec i s = .next (s.withDesc d x act))
    (hact : act d.ticket s = u.complete d.ticket { status := 0, result := r }) : Claims.endsOk i s u d r :=
  hexec.trans (congrArg _ ((withDesc_of_accepts hacc).trans hact))

theorem nop_leaves : Claims.nop := fun _ _ hacc => endsOk_of_accepts hacc rfl rfl

theorem contextCreate_leaves : Claims.contextCreate := by
  rintro s d ⟨hacc, hfree, hdirect, htest⟩
  refine ⟨Ctx.fresh (d.f 91 80), endsOk_of_accepts hacc rfl ?_, rfl, rfl, rfl, rfl, rfl, rfl, rfl, rfl, rfl, rfl, rfl⟩
  simp only [hfree, hdirect, htest, Option.isSome_none, Bool.or_self, Bool.false_eq_true, if_false]

/-! ### CONTEXT_DESTROY (R49, R470, Table 9-17) -/

/-- Where a context has no handle, no handle changes. -/
theorem freeContext_of_no_handle {n : Nat} (h : s.hs.list.any (fun x : Handle => x.key.ctx == n) = false) :
    s.freeContext n = s := by
  have hne : ∀ x ∈ s.hs.list, x.key.ctx ≠ n := by simpa using h
  have hfreed : s.hs.list.filter (fun x : Handle => x.key.ctx == n && x.state != .freeing) = [] :=
    List.filter_eq_nil_iff.mpr (fun x hx => by simp [hne x hx])
  have hcleared : s.hs.list.map (fun x : Handle =>
      if x.key.ctx = n then { x with chargeShade := 0, chargeUmbra := 0, chargePenumbra := 0 } else x) = s.hs.list :=
    (List.map_congr_left (fun x hx => if_neg (hne x hx))).trans (List.map_id' _)
  simp only [State.freeContext, hfreed, List.foldl_nil, hcleared]

/-- Where a context owns no counter, no counter changes. -/
theorem dropCounters_of_none_owned {n : Nat}
    (h : ∀ i : Hub, (s.syn.hubs[i].cfg.any (fun e => bitOf e.2.toNat 31 && bitsOf e.2.toNat 11 0 == n)) = false) :
    s.dropCounters n = s := by
  refine List.foldlRecOn _ _ (motive := fun u : State => u = s) rfl (fun u hu i _ => ?_)
  have hmine : s.syn.hubs[i].cfg.filter (fun e => bitOf e.2.toNat 31 && bitsOf e.2.toNat 11 0 == n) = [] :=
    List.filter_eq_nil_iff.mpr (by simpa only [List.any_eq_false] using h i)
  rw [hu, hmine, List.foldl_nil]

/-- A destroyed context is found no more. -/
theorem ctx_destroyContext {c : Ctx} : (s.destroyContext c).ctx? c.id = none := by
  simp [State.destroyContext, State.ctx?, List.find?_eq_none]

/-- The destruction of a context that has no group, stream, step, handle or counter takes it off the list, and its counts
with it. -/
theorem destroyContext_of_bare {c : Ctx} (hgroups : s.groups.any (fun g : Group => g.ctx == c.id) = false)
    (hstreams : c.streams = []) (hstep : c.step = none)
    (hhandles : s.hs.list.any (fun x : Handle => x.key.ctx == c.id) = false)
    (hctrs : ∀ i : Hub, (s.syn.hubs[i].cfg.any (fun e => bitOf e.2.toNat 31 && bitsOf e.2.toNat 11 0 == c.id)) = false) :
    s.destroyContext c = { s with ctxs := s.ctxs.filter (fun x : Ctx => x.id ≠ c.id), regs :=
      { s.regs with lastCounts := s.regs.lastCounts.filter (fun x : Nat × List Byte => x.1 ≠ c.id) } } := by
  have hgone : s.groups.filter (fun g : Group => g.ctx == c.id) = [] :=
    List.filter_eq_nil_iff.mpr (by simpa only [List.any_eq_false] using hgroups)
  simp only [State.destroyContext, hgone, hstreams, hstep, Option.bind_none, List.foldl_nil,
    freeContext_of_no_handle hhandles, dropCounters_of_none_owned hctrs]

/-- CONTEXT_DESTROY destroys a live context to which no job ring is bound. -/
theorem exec_contextDestroy_of_no_ring {d : Desc} {c : Ctx} (h : Claims.Pre.contextDestroy s d c) :
    Claims.endsOk (.contextDestroy d) s (s.destroyContext c) d 0 := by
  obtain ⟨hacc, hc, hrings⟩ := h
  refine endsOk_of_accepts hacc rfl ?_
  have hunbound : s.rg.list.any (fun r : Ring => r.ctx == c.id && decide (r.id ≠ 0)) = false := by
    simpa using hrings
  simp only [hc, hunbound, Bool.false_eq_true, if_false]

theorem contextDestroy_leaves : Claims.contextDestroy := by
  intro s d c hpre
  have hends := exec_contextDestroy_of_no_ring hpre
  refine ⟨⟨_, hends, ctx_destroyContext⟩, fun hgroups hstreams hstep hhandles hctrs => ?_⟩
  rwa [destroyContext_of_bare hgroups hstreams hstep hhandles hctrs] at hends

/-! ### Quotas, grants and seeds (R136, R137, R285, R402) -/

/-- A quota or a grant that does not rise, or that fits the capacity, is not refused. -/
theorem quota_not_refused {old new cap sum : Nat} (h : new ≤ old ∨ sum ≤ cap) :
    (decide (old < new) && decide (cap < sum)) = false := by
  rw [Bool.and_eq_false_iff, decide_eq_false_iff_not, decide_eq_false_iff_not, not_lt, not_lt]
  exact h

theorem setQuota_leaves : Claims.setQuota := by
  rintro s d c ⟨hacc, hc, hfits⟩
  refine endsOk_of_accepts hacc rfl ?_
  simp only [hc, quota_not_refused hfits, Bool.false_eq_true, if_false]

theorem setExport_leaves : Claims.setExport := by
  rintro s d pkg p ⟨hacc, hpkg, hp, hfits⟩
  refine endsOk_of_accepts hacc rfl ?_
  simp only [hpkg, hp, Option.getD_some, quota_not_refused hfits, Bool.false_eq_true, if_false]

theorem setSeed_leaves : Claims.setSeed := by
  rintro s d c ⟨hacc, hc⟩
  refine endsOk_of_accepts hacc rfl ?_
  simp only [hc]

/-! ### The statement -/

/-- Settles O15: what each of these commands leaves where its descriptor is accepted and its checks pass. -/
theorem contextsQuotasAndSeeds : Obligations.ContextsQuotasAndSeeds :=
  ⟨nop_leaves, contextCreate_leaves, contextDestroy_leaves, setQuota_leaves, setExport_leaves, setSeed_leaves⟩

end Sys2Proof.Machine
end

section
/-!
PROOF. Weight streams (Machine/Streams.lean): the statement O25. Each claim's conditions choose one branch of its command;
the lemmas before them say those branches in the words of the claims.
-/
namespace Sys2Proof.Machine

variable {s : State}

/-! ### Arms and flushes (R160, R161, R163, R167) -/

/-- An entry that fits its queue, passes Table 4-6 and signals no other context's counter is queued. -/
theorem streamArm_of_checked {d : Desc} {t : Ticket} {x : Stream} {e : ArmEntry}
    (hx : s.stream? (s.descCtx d) (d.f 69 64) = some x)
    (he : armOf d t x.nextSerial (!bitOf (d.p 55 1) 1
      || ((s.ctx? (s.descCtx d)).bind Ctx.lastStep).map (fun n => n.toNat % 65536) == some (d.p 56 2)) = e)
    (hroom : (x.queue.filter (fun y : ArmEntry => !y.flushed)).length < 16) (hok : e.ok x.spec = true)
    (hsignal : ∀ h c, e.signal = some (h, c) → s.ownsCtr h c (s.descCtx d) = true) :
    s.streamArm d t
      = s.setStream (s.descCtx d) { x with queue := x.queue ++ [e], nextSerial := x.nextSerial + 1 } := by
  simp only [State.streamArm, hx, he, if_neg (Nat.not_le.mpr hroom), hok, Bool.not_true, Bool.false_eq_true, if_false]
  cases hs : e.signal with
  | none => simp
  | some p => simp [hsignal p.1 p.2 hs]

theorem streamArm_leaves : Claims.streamArm := by
  rintro s d x ⟨hacc, hx, hroom, hok, hsignal⟩
  refine congrArg Host.Outcome.next ((withDesc_of_accepts hacc).trans
    (streamArm_of_checked hx rfl hroom hok (fun h c hs => ?_)))
  simpa only [hs] using hsignal

theorem streamFlush_leaves : Claims.streamFlush := by
  rintro s d x ⟨hacc, hx⟩
  refine endsOk_of_accepts hacc rfl ?_
  simp only [hx]

/-! ### Fetches (R161, R162, R165, R166) -/

theorem streamFetchStart_leaves : Claims.streamFetchStart := by
  rintro s ctx stream x e i h off ⟨hstalled, hx, hfetch, hslot, hsource, hperm⟩
  have hexec : exec (.streamFetchStart ctx stream) s = execStreamFetchStart ctx stream s := rfl
  simp only [execStreamFetchStart, hstalled, hx, hfetch, hslot, hsource, hperm, Bool.false_eq_true, if_false] at hexec
  exact ⟨_, hexec, rfl, rfl, rfl, rfl, rfl, rfl, rfl⟩

/-- A slot changed leaves the queue. -/
@[simp] theorem entry_onSlot {x : Stream} {i n : Nat} {f : StreamSlot → StreamSlot} :
    (x.onSlot i f).entry? n = x.entry? n := rfl

theorem streamFetchDone_leaves : Claims.streamFetchDone := by
  rintro s ctx stream slot x y k e result ⟨hstalled, hx, hy, hstate, hsource, hflushed, he⟩
  change execStreamFetchDone ctx stream slot result s = _
  have hfetching : (y.state != SlotState.fetching) = false := by simp [hstate]
  by_cases hok : result = .ok
  · simp [execStreamFetchDone, hstalled, hx, hy, hfetching, hsource, hflushed, he, hok]
  · simp [execStreamFetchDone, hstalled, hx, hy, hfetching, hsource, hflushed, hok]

/-! ### Deliveries (R31, R163, R166, R343) -/

theorem streamDeliver_leaves : Claims.streamDeliver := by
  rintro s ctx stream x c e n i y ⟨hstalled, hx, hc, hnext, hslot, hy, hgate, hmark⟩
  have hallowed : (!e.gateOpen || decide (c.mark.toNat < e.deliverMark + n * e.markStride)) = false := by
    simpa [hgate] using hmark
  change execStreamDeliver ctx stream s = _
  simp only [execStreamDeliver, hstalled, hx, hc, hnext, hslot, hy, hallowed, Bool.false_eq_true, if_false]

theorem streamDeliveryDone_leaves : Claims.streamDeliveryDone := by
  rintro s ctx stream slot x y e result ⟨hstalled, hx, hy, hstate, he, hdest⟩
  change execStreamDeliveryDone ctx stream slot result s = _
  simp [execStreamDeliveryDone, hstalled, hx, hy, hstate, he, hdest]

/-! ### Slots (R164) -/

theorem slotRelease_leaves : Claims.slotRelease := by
  rintro s ctx stream slot x c y ⟨hx, hc, hy, hstate, he, hmark, hread⟩
  change execSlotRelease ctx stream slot s = _
  simp only [execSlotRelease, hx, hc, hy, he, hread]
  simp [hstate, hmark]

/-! ### The statement -/

/-- Settles O25: what each command of a weight stream leaves where its conditions hold. -/
theorem weightStreams : Obligations.WeightStreams :=
  ⟨streamArm_leaves, streamFlush_leaves, streamFetchStart_leaves, streamFetchDone_leaves, streamDeliver_leaves,
   streamDeliveryDone_leaves, slotRelease_leaves⟩

end Sys2Proof.Machine
end

section
/-!
PROOF. Codec lanes and glints (Machine/Codec.lean): the statement O27. Each claim's conditions choose one branch of its command;
for GLINT_MEM_DATA the lemmas before it say that a glint's answer touches nothing of the state but the count of free values.
-/
namespace Sys2Proof.Machine

variable {s : State}

/-! ### Lane jobs, compression and expansion (R195, R196, R197, R201, R227) -/

theorem laneJob_leaves : Claims.laneJob := by
  rintro s hub lane j ⟨hstalled, hlevel, hserves, hidle, hnext⟩
  change execLaneJob hub lane s = _
  simp only [execLaneJob, hstalled, hlevel, hserves, hidle, hnext, bne_self_eq_false,
    Bool.not_true, Option.isSome_none, Bool.or_self, Bool.false_eq_true, if_false]

/-- A lane that takes a job or stands idle leaves the handles. -/
@[simp] theorem handle_setLane {hub : Hub} {lane : Fin 18} {j : Option LaneJob} {k : HKey} :
    (s.setLane hub lane j).handle? k = s.handle? k := rfl

theorem courseCompress_leaves : Claims.courseCompress := by
  rintro s hub lane n j x ⟨hstalled, hjob, hcompress, hstaged, hx, hmig⟩
  change execCourseCompress hub lane n s = _
  simp only [execCourseCompress, State.verifierFailed, hstalled, hjob, hcompress, hstaged, handle_setLane, hx, hmig,
    Bool.not_true, Bool.or_self, Bool.false_eq_true, if_false, Option.map_none, Option.none_beq_some, Bool.or_false]
  exact (apply_ite Host.Outcome.next _ _ _).symm

/-- With one request at the lanes, that request is the one its job names. -/
theorem laneRequest_of_single {q : LaneRequest} {id : Nat} (hreqs : s.codec.requests = [q]) (hid : q.id = id) :
    s.laneRequest? id = some q := by
  simp [State.laneRequest?, hreqs, hid]

/-- An update of the requests with the identity of the only one replaces it. -/
theorem updWhere_single {q x : LaneRequest} : updWhere (fun y : LaneRequest => y.id == q.id) (fun _ => x) [q] = [x] := by
  simp [updWhere]

/-- Other requests at the lanes are no other lane jobs. -/
theorem laneJobs_setRequests {qs : List LaneRequest} :
    State.laneJobs { s with codec := { s.codec with requests := qs } } = s.laneJobs := rfl

theorem blockExpand_leaves : Claims.blockExpand := by
  rintro s hub lane ok1 ok2 j q ⟨hstalled, hjob, hcompress, hrestoring, hreqs, hid, hlast⟩
  have hreqs' : (s.setLane hub lane none).codec.requests = [q] := hreqs
  have hfound := laneRequest_of_single hreqs' hid
  change execBlockExpand hub lane ok1 ok2 s = _
  simp only [execBlockExpand, hstalled, hjob, hcompress, hrestoring, hfound, hreqs', Bool.false_eq_true, if_false, if_true]
  generalize hx : (if ok1 then q else { q with retries := q.retries + 1 }) = x
  have hsame : x.id = q.id := by rw [← hx]; split <;> rfl
  simp only [hsame, updWhere_single, laneJobs_setRequests, hlast, Bool.false_eq_true, if_false, Bool.and_eq_true,
    Bool.not_eq_true']
  exact (apply_ite Host.Outcome.next _ _ _).symm

/-- Lane work given up leaves the handles. -/
@[simp] theorem handle_dropJobs {p : LaneJob → Bool} {k : HKey} : (s.dropJobs p).handle? k = s.handle? k := rfl

/-- A change of the codec leaves the handles. -/
theorem handle_setCodec {c : CodecStore} {k : HKey} : State.handle? { s with codec := c } k = s.handle? k := rfl

theorem endLaneRequest_ends : Claims.endLaneRequest := by
  intro s q h failed (hh : s.handle? q.key = some h)
  simp only [State.endLaneRequest, handle_setCodec, handle_dropJobs, hh]

theorem laneRetired_leaves : Claims.laneRetired := by
  intro s hub lane hserves
  change Host.Outcome.next (s.retireLane hub lane) = _
  simp only [State.retireLane, hserves, State.laneTake, Bool.false_eq_true, if_false, Bool.or_true] <;> rfl

/-! ### Glints (R205 to R209) -/

theorem glintRequest_leaves : Claims.glintRequest := fun _ _ _ hroom => if_neg (Nat.not_le.mpr hroom)

theorem glintReset_leaves : Claims.glintReset := fun _ _ => rfl

/-- A state that differs from another in the count of free values at most (assumption 2). -/
def OnlyFree (s t : State) : Prop := ∃ n, t = { s with freeCount := n }

theorem OnlyFree.refl : OnlyFree s s := ⟨s.freeCount, rfl⟩

theorem OnlyFree.fresh {t : State} (h : OnlyFree s t) (w : Nat) : OnlyFree s (t.fresh w).2 := by
  obtain ⟨n, rfl⟩ := h
  exact ⟨n + 1, rfl⟩

/-- A glint written in a state that differs in the count of free values at most. -/
theorem OnlyFree.setGlint {t : State} (h : OnlyFree s t) {g : Fin 256} {x : Glint} : t.setGlint g x = { s with
    codec := { s.codec with glints := (t.setGlint g x).codec.glints }, freeCount := (t.setGlint g x).freeCount } := by
  obtain ⟨n, rfl⟩ := h
  rfl

theorem glintWalk_block_onlyFree {w : GlintWalk} {base hdr ob lo hi : Nat} (h : OnlyFree s w.state) :
    OnlyFree s (w.block base hdr ob lo hi).state := by
  unfold GlintWalk.block
  extract_lets n
  split
  · exact h
  · exact h.fresh (8 * n)

theorem glintFail_onlyFree {r : GlintReq} {st : Nat} : OnlyFree s (s.glintFail r st).2 :=
  OnlyFree.refl.fresh (8 * r.len.toNat)

/-- The cases of a glint's answer: without one expanded block, past the end of the stream, or block by block; each names
the request's tag and changes the count of free values at most. -/
theorem glintAnswer_tag_onlyFree {r : GlintReq} {memErr : Bool} :
    (s.glintAnswer r memErr).1.tag = r.tag ∧ OnlyFree s (s.glintAnswer r memErr).2 := by
  unfold State.glintAnswer
  extract_lets base hdr crc off len b0 first w0 w
  split
  · exact ⟨rfl, glintFail_onlyFree⟩
  · split
    · exact ⟨rfl, glintFail_onlyFree⟩
    · split
      · exact ⟨rfl, OnlyFree.refl⟩
      · exact ⟨rfl, List.foldlRecOn (motive := fun v : GlintWalk => OnlyFree s v.state) _ _ OnlyFree.refl
          (fun _ h _ _ => glintWalk_block_onlyFree h)⟩

/-- Data that failed on its way answers with status 5 and every byte poisoned (R207). -/
theorem glintAnswer_of_memErr {r : GlintReq} : s.glintAnswer r true = s.glintFail r 5 := rfl

/-- What is written of a glint with a reply is what is read. -/
theorem glint_setGlint_of_reply {g : Fin 256} {x : Glint} (hx : x.replies ≠ []) : (s.setGlint g x).glint g = x := by
  have hbusy : x ≠ Glint.idle := fun h => hx (h ▸ rfl)
  simp only [State.glint, State.setGlint, tabPut, if_neg hbusy, tabGet_ins, if_true]

/-- GLINT_MEM_DATA answers the request at the front; what becomes of the cache is left open here. -/
theorem exec_glintMemData_of_queue {g : Fin 256} {memErr : Bool} {q : GlintReq} {rest : List GlintReq}
    (hq : (s.glint g).queue = q :: rest) : ∃ cache, exec (.glintMemData g memErr) s
      = .next ((s.glintAnswer q memErr).2.setGlint g
          { queue := rest, cache := cache, replies := (s.glint g).replies ++ [(s.glintAnswer q memErr).1]
            err := if (s.glintAnswer q memErr).1.status == 2 || (s.glintAnswer q memErr).1.status == 3
              || (s.glintAnswer q memErr).1.status == 5 then some (s.glintAnswer q memErr).1.status else none }) := by
  change ∃ cache, execGlintMemData g memErr s = _
  simp only [execGlintMemData, hq]
  exact ⟨_, rfl⟩

theorem glintMemData_leaves : Claims.glintMemData := by
  intro s g memErr q rest hq
  obtain ⟨cache, hexec⟩ := exec_glintMemData_of_queue (memErr := memErr) hq
  obtain ⟨htag, hfree⟩ := glintAnswer_tag_onlyFree (s := s) (r := q) (memErr := memErr)
  refine ⟨_, (s.glintAnswer q memErr).1, hexec, ?_⟩
  rw [glint_setGlint_of_reply (by simp)]
  refine ⟨rfl, rfl, htag, by simp [or_assoc], ?_, hfree.setGlint⟩
  rintro rfl
  rw [glintAnswer_of_memErr]
  exact ⟨rfl, rfl⟩

/-! ### The statement -/

/-- Settles O27: what each command of the codec's lanes and of the glints leaves where its conditions hold. -/
theorem codecLanesAndGlints : Obligations.CodecLanesAndGlints :=
  ⟨laneJob_leaves, courseCompress_leaves, blockExpand_leaves, endLaneRequest_ends, laneRetired_leaves,
   glintRequest_leaves, glintMemData_leaves, glintReset_leaves⟩

end Sys2Proof.Machine
end

section
/-!
PROOF. The recipe ops on elements (Machine/RunOps.lean, Machine/Engine.lean): the statement O30. An op that changes its
engine alone does so in every state in which its tile has come to it; an elementwise op is then described by the function
that `elementwise` is at its code, and each mask op by its own definition.
-/
namespace Sys2Proof.Machine

variable {mk : Hub → EngNo → BitVec 256 → Instr} {code n : Nat} {c : OpCtx} {g : Engine}

/-! ### An op that changes its engine alone -/

/-- The op a tile has come to has the code asked for. -/
theorem opcode_of_opAt {s : State} {hub : Hub} {e : EngNo} {w : BitVec 256} (hat : s.opAt hub e w code = some (g, c)) :
    c.op.opcode = code := by
  simp only [State.opAt] at hat
  split at hat
  · split at hat
    · split at hat
      · next hcond =>
        obtain ⟨-, rfl⟩ := Prod.mk.inj (Option.some.inj hat)
        simp only [Bool.and_eq_true, beq_iff_eq] at hcond
        obtain ⟨⟨-, hcode⟩, -⟩ := hcond
        exact hcode
      · cases hat
    · cases hat
  · cases hat

/-- An op that changes its engine alone changes it as every function says that agrees with its own on ops of its code. -/
theorem opRuns_of_engineOp {f f' : OpCtx → Engine → Engine}
    (hexec : ∀ hub e w s, exec (mk hub e w) s = s.engineOp hub e w code f')
    (hf : ∀ c g, c.op.opcode = code → f' c g = f c g) : Claims.opRuns mk code f := by
  intro s hub e w g c hat
  rw [hexec, State.engineOp, hat, ← hf c g (opcode_of_opAt hat)]

/-! ### Elementwise ops (R241, R244, R245, R246)

Each op owes two facts: its command is the elementwise one of its number of sources, and the branch of `elementwise` at its
code is the function its claim writes out. -/

/-- An op of n sources writes VD with the results of any function that `elementwise` is for this op. -/
theorem opElementwise_eq_elems {f : OpCtx → Nat → Nat → Nat → Nat → Rounded}
    (hf : ∀ j a b d, elementwise c.op c.draws j a b d = f c j a b d) :
    opElementwise n c.op c.draws g = Claims.elems n f c g := by
  have hsrc (k j : Nat) (l : List Nat) : (if n ≥ k then l else []).getD j 0 = if k ≤ n then l.getD j 0 else 0 := by
    split <;> rfl
  simp only [opElementwise, Claims.elems, hsrc, hf]

/-- An elementwise command of n sources runs the function that `elementwise` is at its code. -/
theorem opRuns_of_elementwise {f : OpCtx → Nat → Nat → Nat → Nat → Rounded}
    (hexec : ∀ hub e w s, exec (mk hub e w) s = s.engineOp hub e w code (fun c g => opElementwise n c.op c.draws g))
    (hf : ∀ c j a b d, elementwise { c.op with opcode := code } c.draws j a b d = f c j a b d) :
    Claims.opRuns mk code (Claims.elems n f) := by
  refine opRuns_of_engineOp hexec (fun c g hcode => opElementwise_eq_elems (fun j a b d => ?_))
  rw [← hf, ← hcode]

theorem opAdd_runs : Claims.opAdd := opRuns_of_elementwise (fun _ _ _ _ => rfl) (fun _ _ _ _ _ => rfl)
theorem opSub_runs : Claims.opSub := opRuns_of_elementwise (fun _ _ _ _ => rfl) (fun _ _ _ _ _ => rfl)
theorem opMul_runs : Claims.opMul := opRuns_of_elementwise (fun _ _ _ _ => rfl) (fun _ _ _ _ _ => rfl)
theorem opFma_runs : Claims.opFma := opRuns_of_elementwise (fun _ _ _ _ => rfl) (fun _ _ _ _ _ => rfl)
theorem opMax_runs : Claims.opMax := opRuns_of_elementwise (fun _ _ _ _ => rfl) (fun _ _ _ _ _ => rfl)
theorem opMin_runs : Claims.opMin := opRuns_of_elementwise (fun _ _ _ _ => rfl) (fun _ _ _ _ _ => rfl)
theorem opAdds_runs : Claims.opAdds := opRuns_of_elementwise (fun _ _ _ _ => rfl) (fun _ _ _ _ _ => rfl)
theorem opMuls_runs : Claims.opMuls := opRuns_of_elementwise (fun _ _ _ _ => rfl) (fun _ _ _ _ _ => rfl)
theorem opRelu_runs : Claims.opRelu := opRuns_of_elementwise (fun _ _ _ _ => rfl) (fun _ _ _ _ _ => rfl)
theorem opLrelu_runs : Claims.opLrelu := opRuns_of_elementwise (fun _ _ _ _ => rfl) (fun _ _ _ _ _ => rfl)
theorem opGelu_runs : Claims.opGelu := opRuns_of_elementwise (fun _ _ _ _ => rfl) (fun _ _ _ _ _ => rfl)
theorem opSigmoid_runs : Claims.opSigmoid := opRuns_of_elementwise (fun _ _ _ _ => rfl) (fun _ _ _ _ _ => rfl)
theorem opTanh_runs : Claims.opTanh := opRuns_of_elementwise (fun _ _ _ _ => rfl) (fun _ _ _ _ _ => rfl)
theorem opSilu_runs : Claims.opSilu := opRuns_of_elementwise (fun _ _ _ _ => rfl) (fun _ _ _ _ _ => rfl)

/-! ### Masks and dropout (R252) -/

/-- Of one source, only its own flags and those of the results reach VD. -/
theorem elems_one {f : OpCtx → Nat → Nat → Nat → Nat → Rounded} : Claims.elems 1 f c g =
    let rs := ((readVec g c.op.va c.op.span (elemBits c.op.fmt) (opN c.op)).zipIdx).map (fun p => f c p.2 p.1 0 0)
    writeVec g c.op.vd c.op.span (elemBits c.op.fmt) (rs.map (fun r => r.bits))
      (vecFlags g c.op.va c.op.span ||| flagsOf rs) := by
  simp [Claims.elems]

theorem opMaskgen_runs : Claims.opMaskgen := opRuns_of_engineOp (fun _ _ _ _ => rfl) (fun _ _ _ => rfl)
theorem opMaskapply_runs : Claims.opMaskapply := opRuns_of_engineOp (fun _ _ _ _ => rfl) (fun _ _ _ => rfl)
theorem opDropout_runs : Claims.opDropout := by
  refine opRuns_of_engineOp (fun _ _ _ _ => rfl) (fun c g _ => ?_)
  rw [elems_one]
  rfl

theorem opRelumask_runs : Claims.opRelumask := opRuns_of_engineOp (fun _ _ _ _ => rfl) (fun _ _ _ => rfl)

/-! ### The statement -/

/-- Settles O30: each op on elements writes VD with the results of its claim and their flags, and changes nothing else. -/
theorem opsOnElements : Obligations.OpsOnElements :=
  ⟨opAdd_runs, opSub_runs, opMul_runs, opFma_runs, opMax_runs, opMin_runs, opAdds_runs, opMuls_runs, opRelu_runs,
   opLrelu_runs, opGelu_runs, opSigmoid_runs, opTanh_runs, opSilu_runs, opMaskgen_runs, opMaskapply_runs,
   opDropout_runs, opRelumask_runs⟩

end Sys2Proof.Machine
end

section
/-!
PROOF. The checks of a descriptor, ORDER, and the fetching of descriptors (Machine/Ops.lean, Machine/Rings.lean): the
statements O8, O9 and O11. Lemmas say that every descriptor command goes through `withDesc`, what keeps one waiting there, what
each check of R313 is in the words of the claims, and what a fetch run over one slot takes.
-/
namespace Sys2Proof.Machine

variable {s : State} {r : Ring} {d : Desc} {x : DescSpec} {act : Ticket → State → State}

/-! ### What a descriptor's start does (R33, R313, R327, R606, R621) -/

/-- Each of the 64 descriptor commands goes through the start of a descriptor, with its own action. -/
theorem exec_of_described {i : Instr} (h : Claims.described s i = some (d, x)) :
    ∃ act, exec i s = .next (s.withDesc d x act) := by
  cases i <;> cases h <;> exact ⟨_, rfl⟩

/-- A command whose descriptor waits, whatever its action would be, changes nothing. -/
theorem exec_of_waits {i : Instr} (h : Claims.described s i = some (d, x)) (hw : ∀ act, s.withDesc d x act = s) :
    exec i s = .next s := by
  obtain ⟨act, hexec⟩ := exec_of_described h
  rw [hexec, hw]

theorem withDesc_of_held_back (hr : s.ring? d.ring.toNat = some r)
    (h : s.serves d.ring.toNat = false ∨ r.mayStart d = false ∨ s.writeWaits r d = true) : s.withDesc d x act = s := by
  have hwaits : (!s.serves d.ring.toNat || !r.mayStart d || s.writeWaits r d) = true := by
    rcases h with h | h | h <;> simp [h]
  simp only [State.withDesc, hr, hwaits, if_true]

theorem withDesc_of_stalled (hr : s.ring? d.ring.toNat = some r) (hmoves : x.moves = true) (hstall : s.stalled = true)
    (hcheck : descCheck r.sqOrder d x = none) : s.withDesc d x act = s := by
  simp [State.withDesc, hr, hcheck, hmoves, hstall]

theorem withDesc_of_failed_check {e : BitVec 8} (hr : s.ring? d.ring.toNat = some r) (hserves : s.serves d.ring.toNat = true)
    (hstart : r.mayStart d = true) (hwait : s.writeWaits r d = false) (hcheck : descCheck r.sqOrder d x = some e) :
    s.withDesc d x act = s.complete { d.ticket with xres := false } { status := e } := by
  simp [State.withDesc, hr, hserves, hstart, hwait, hcheck]

theorem failed_check_ends : Claims.checkFails := by
  rintro s i d x r e ⟨hd, hr, hserves, hstart, hwait, hcheck⟩
  obtain ⟨act, hexec⟩ := exec_of_described hd
  rw [hexec, withDesc_of_failed_check hr hserves hstart hwait hcheck]

theorem write_waits : Claims.writeWaits := by
  rintro s i d x r ⟨hd, hr, hwait | hserves | ⟨hmoves, hstall, hcheck⟩⟩
  · exact exec_of_waits hd (fun _ => withDesc_of_held_back hr (.inr (.inr hwait)))
  · exact exec_of_waits hd (fun _ => withDesc_of_held_back hr (.inl hserves))
  · exact exec_of_waits hd (fun _ => withDesc_of_stalled hr hmoves hstall hcheck)

/-! ### The checks in their order (R313) -/

theorem checks_in_order : Claims.checkOrder := by
  intro n d x ringBad extBad rangeBad addrBad
  have hring : ((d.ring == 0 && !x.admin) || (d.ring != 0 && !x.job)) = true ↔ ringBad := by simp [ringBad]
  have hext : (d.ext != x.ext || (d.ext && decide (ringSize n < d.sseq.toNat % ringSize n + 4))) = true ↔ extBad := by
    simp [extBad]
  have hrange : (decide (6 < d.prio.toNat) || !x.range || (x.needX && !d.xres)) = true ↔ rangeBad := by
    simp [rangeBad, or_assoc]
  have haddr : (x.addrs.any (fun a => a.1 % a.2 != 0 || decide (2 ^ 57 ≤ a.1))
      || (d.xres && (d.resultAddr == 0 || d.resultAddr.toNat % 64 != 0 || decide (2 ^ 57 ≤ d.resultAddr.toNat)))) = true
      ↔ addrBad := by
    simp [addrBad, or_assoc]
  simp only [descCheck, hring, hext, hrange, haddr]
  refine ⟨fun h1 => ?_, fun h1 h2 => ?_, fun h1 h2 h3 => ?_, fun h1 h2 h3 h4 => ?_, fun h1 h2 h3 h4 h5 => ?_,
    fun h1 h2 h3 h4 h5 => ?_⟩
  · rw [if_pos h1]
  · rw [if_neg h1, if_pos h2]
  · rw [if_neg h1, if_neg h2, if_pos h3]
  · rw [if_neg h1, if_neg h2, h3, if_neg Bool.false_ne_true, if_pos h4]
  · rw [if_neg h1, if_neg h2, h3, if_neg Bool.false_ne_true, if_neg h4, if_pos h5]
  · rw [if_neg h1, if_neg h2, h3, if_neg Bool.false_ne_true, if_neg h4, if_neg h5]

/-! ### ORDER (R327) -/

/-- A descriptor of lower SSEQ in flight keeps one with ORDER from starting, and one with ORDER keeps any. -/
theorem mayStart_of_earlier {f : Fetched} (hf : f ∈ r.inflight) (he : Claims.earlier d f)
    (ho : d.order = true ∨ f.slot.getLsbD 54 = true) : r.mayStart d = false := by
  unfold Ring.mayStart
  extract_lets earlier
  have hmem : f ∈ earlier := List.mem_filter.mpr ⟨hf, decide_eq_true he⟩
  rw [Bool.and_eq_false_iff]
  rcases ho with ho | ho
  · have hne : earlier ≠ [] := List.ne_nil_of_mem hmem
    exact .inl (by simp [ho, hne])
  · exact .inr (List.all_eq_false.mpr ⟨f, hmem, by simp [ho]⟩)

/-! ### One slot is fetched (R309 to R312) -/

/-- A descriptor of one slot, as a fetch takes it. -/
def State.plainFetched (s : State) (r : Ring) : Fetched :=
  { sseq := r.sqHead, slot := s.slotOf r r.sqHead, payload := 0 }

/-- A ring whose descriptor of one slot at SQ_HEAD has been taken. -/
def Ring.took (r : Ring) (f : Fetched) : Ring :=
  { r with sqHead := r.sqHead + 1, lastSseq := r.sqHead, inflight := r.inflight ++ [f] }

/-- One slot lies between SQ_HEAD and SQ_TAIL, the ring may take it, and it holds its own SSEQ and no extended form. -/
structure PlainSlot (s : State) (r : Ring) : Prop where
  limit : r.inflight.length < r.limit
  tail : r.sqTail = r.sqHead + 1
  sseq : (s.slotOf r r.sqHead).extractLsb' 0 32 = r.sqHead
  ext : (s.slotOf r r.sqHead).getLsbD 55 = false

theorem PlainSlot.waiting (p : PlainSlot s r) : (r.sqTail - r.sqHead).toNat = 1 := by
  simp [p.tail]

/-- A run whose ring has fetched up to SQ_TAIL goes no further. -/
theorem fetchOne_of_empty {f : FetchRun} (h : f.ring.sqTail = f.ring.sqHead) : s.fetchOne f = { f with on := false } := by
  simp [State.fetchOne, h]

theorem fetchOne_of_plain {n : Nat} (p : PlainSlot s r) :
    s.fetchOne { ring := r, bad := [], left := n + 1, on := true }
      = { ring := r.took (s.plainFetched r), left := n, on := true
          bad := if opcodeListed (bitsOf (s.slotOf r r.sqHead).toNat 63 56) then [] else [s.plainFetched r] } := by
  have hgoes : (!true || decide (n + 1 = 0) || decide (1 = 0) || decide (r.limit ≤ r.inflight.length)) = false := by
    simpa using p.limit
  have hroom : (decide (1 < 1) || decide (n + 1 < 1)) = false := by simp
  simp only [State.fetchOne, p.waiting, hgoes, p.sseq, p.ext, hroom, ne_eq, not_true_eq_false, Bool.false_eq_true, if_false,
    Nat.add_sub_cancel]
  rfl

/-- A run over the only slot between SQ_HEAD and SQ_TAIL takes it and ends. -/
theorem fetchRun_of_plain (p : PlainSlot s r) :
    s.fetchRun r = { ring := r.took (s.plainFetched r), left := 63, on := false
                     bad := if opcodeListed (bitsOf (s.slotOf r r.sqHead).toNat 63 56) then [] else [s.plainFetched r] } := by
  have hdone {f : FetchRun} (h : f.ring = r.took (s.plainFetched r)) : s.fetchOne f = { f with on := false } :=
    fetchOne_of_empty (by rw [h]; exact p.tail)
  unfold State.fetchRun
  rw [List.foldl_const, List.length_range, Function.iterate_succ_apply, fetchOne_of_plain p,
    Function.iterate_succ_apply, hdone rfl, Function.iterate_fixed (hdone rfl)]

/-- DESCRIPTOR_FETCH of one slot, whatever its OPCODE. -/
theorem exec_descriptorFetch_of_plain {ring : BitVec 16} (hr : s.ring? ring.toNat = some r) (hserves : s.serves r.id = true)
    (hstall : s.stalled = false) (hshut : s.shutting = false) (hfetches : r.fetches = true) (p : PlainSlot s r) :
    let u := (s.setRing (r.took (s.plainFetched r))).hostWrite (r.ctrlAddr + 64) (leBytes 8 (r.sqHead + 1).toNat)
    exec (.descriptorFetch ring) s = .next (if opcodeListed (bitsOf (s.slotOf r r.sqHead).toNat 63 56) then u
      else u.complete { ring := r.id, sseq := r.sqHead, quiet := false, xres := false, resultAddr := 0 } { status := 0x01 }) := by
  have hfits : ¬ ringSize r.sqOrder < (r.sqTail - r.sqHead).toNat := by
    rw [p.waiting, Nat.not_lt]
    exact Nat.two_pow_pos _
  have hpassed : (r.took (s.plainFetched r)).sqHead ≠ r.sqHead := by simp [Ring.took]
  change execDescriptorFetch ring s = _
  simp only [execDescriptorFetch, hr, hserves, hstall, hshut, hfetches, hfits,
    fetchRun_of_plain p, if_neg hpassed, decide_false, Bool.not_true, Bool.or_self,
    Bool.false_eq_true, if_false]
  cases opcodeListed (bitsOf (s.slotOf r r.sqHead).toNat 63 56) <;> rfl

theorem descriptorFetch_leaves : Claims.descriptorFetch := by
  rintro s ring r ⟨hr, hserves, hstall, hshut, hfetches, hlimit, htail, hsseq, hext, hlisted⟩
  rw [exec_descriptorFetch_of_plain hr hserves hstall hshut hfetches ⟨hlimit, htail, hsseq, hext⟩, if_pos hlisted]
  rfl

theorem fetchOpcode_ends : Claims.fetchOpcode := by
  rintro s ring r ⟨hr, hserves, hstall, hshut, hfetches, hlimit, htail, hsseq, hext, hlisted⟩
  refine ⟨_, ?_, rfl⟩
  rw [exec_descriptorFetch_of_plain hr hserves hstall hshut hfetches ⟨hlimit, htail, hsseq, hext⟩, hlisted]
  rfl

/-- A ring that holds a completion does not fetch (R330). -/
theorem fetches_of_held (h : r.held ≠ []) : r.fetches = false := by
  simp [Ring.fetches, h]

theorem fetchHeld_fetches_nothing : Claims.fetchHeld := by
  rintro s ring r ⟨hr, hheld⟩
  change execDescriptorFetch ring s = _
  simp [execDescriptorFetch, hr, fetches_of_held hheld]

/-! ### A gap in the sequence, and CQ_HEAD read again (R310, R311, R329, R332) -/

/-- An SQ_TAIL beyond the SQ stops the ring at once. -/
theorem exec_seqGap_of_beyond {ring : BitVec 16} (hr : s.ring? ring.toNat = some r) (hserves : s.serves r.id = true)
    (hactive : r.state = .active) (hbeyond : ringSize r.sqOrder < (r.sqTail - r.sqHead).toNat) :
    exec (.seqGap ring) s = .next (s.seqGap r r.sqTail) := by
  change execSeqGap ring s = _
  simp only [execSeqGap, hr, hserves, hactive, hbeyond, Bool.not_true, bne_self_eq_false, Bool.or_self,
    Bool.false_eq_true, if_false, if_true]

/-- A slot that still differs 2 µs after it was read stops the ring. -/
theorem exec_seqGap_of_suspect {ring : BitVec 16} {q : BitVec 32} {t : Nat} (hr : s.ring? ring.toNat = some r)
    (hserves : s.serves r.id = true) (hactive : r.state = .active)
    (hfits : (r.sqTail - r.sqHead).toNat ≤ ringSize r.sqOrder) (hsuspect : r.suspect = some (q, t))
    (hdue : t + twoUs ≤ s.tick) (hdiffers : (s.slotOf r q).extractLsb' 0 32 ≠ q) :
    exec (.seqGap ring) s = .next (s.seqGap r q) := by
  change execSeqGap ring s = _
  simp only [execSeqGap, hr, hserves, hactive, Nat.not_lt.mpr hfits, hsuspect, Nat.not_lt.mpr hdue, hdiffers,
    Bool.not_true, bne_self_eq_false, Bool.or_self, Bool.false_eq_true, if_false]

theorem seqGap_leaves : Claims.seqGap := by
  rintro s ring r named ⟨hr, hserves, hactive, ⟨hfits, t, hsuspect, hdue, hdiffers⟩ | ⟨hbeyond, rfl⟩⟩
  · exact exec_seqGap_of_suspect hr hserves hactive hfits hsuspect hdue hdiffers
  · exact exec_seqGap_of_beyond hr hserves hactive hbeyond

theorem cqHeadReread_leaves : Claims.cqHeadReread := by
  rintro s ring r ⟨hr, hserves, hroom⟩ head w
  have hreads : (s.serves r.id && (r.tight || !r.held.isEmpty)) = true := by simpa [hserves] using hroom
  change execCqHeadReread ring s = _
  simp only [execCqHeadReread, hr, hreads, if_true]
  rfl

/-! ### The statements -/

/-- Settles O8: a failed check ends the command, the checks come in order, and what must wait changes nothing. -/
theorem descriptorChecksInOrder : Obligations.DescriptorChecksInOrder :=
  ⟨failed_check_ends, checks_in_order, write_waits, fetchOpcode_ends⟩

/-- Settles O9: a descriptor that ORDER keeps from starting changes nothing. -/
theorem orderFlagHoldsDescriptorsBack : Obligations.OrderFlagHoldsDescriptorsBack := by
  rintro s i d x r f ⟨hd, hr, hf, he, ho⟩
  exact exec_of_waits hd (fun _ => withDesc_of_held_back hr (.inr (.inl (mayStart_of_earlier hf he ho))))

/-- Settles O11: a fetch takes the one slot there is, and each of the others does what its claim says. -/
theorem descriptorsAreFetched : Obligations.DescriptorsAreFetched :=
  ⟨descriptorFetch_leaves, fetchHeld_fetches_nothing, seqGap_leaves, cqHeadReread_leaves⟩

end Sys2Proof.Machine
end

section
/-!
PROOF. Completions (Machine/Ops.lean): the statement O10. First what is read of host memory after a write and what is found of a
ring after it is replaced; then what a completion entry's writing, its holding and a command's end do, each said once.
-/
namespace Sys2Proof.Machine

variable {s : State} {r : Ring} {t : Ticket} {d : Done}

/-! ### Host memory after a write (R28, R304) -/

@[simp] theorem length_leBytes {n w : Nat} : (leBytes n w).length = n := by
  induction n generalizing w with
  | zero => rfl
  | succ n ih => simp [leBytes, ih]

theorem mem_wf_of_hostWf (h : hostWf s = true) : tabWf 0 s.host.mem = true :=
  (Bool.and_eq_true_iff.mp h).1

theorem hostWrite_mem_wf {addr : Nat} {bytes : List Byte} (h : tabWf 0 s.host.mem = true) :
    tabWf 0 (s.hostWrite addr bytes).host.mem = true :=
  putBytes_wf h

/-- A write leaves every byte outside its range. -/
theorem tabGet_hostWrite_outside {addr j : Nat} {bytes : List Byte} (h : tabWf 0 s.host.mem = true)
    (hj : j < addr ∨ addr + bytes.length ≤ j) :
    tabGet 0 (s.hostWrite addr bytes).host.mem j = tabGet 0 s.host.mem j := by
  refine (tabGet_putBytes h).trans (if_neg ?_)
  omega

/-- What was written is read. -/
theorem hostRead_hostWrite_same {addr : Nat} {bytes : List Byte} (h : tabWf 0 s.host.mem = true) :
    (s.hostWrite addr bytes).hostRead addr bytes.length = bytes := by
  refine List.ext_getElem (by simp [State.hostRead]) (fun i hi hb => ?_)
  simp only [State.hostRead, List.getElem_map, List.getElem_range]
  refine (tabGet_putBytes h).trans ((if_pos (by omega)).trans ?_)
  rw [Nat.add_sub_cancel_left, List.getD_eq_getElem _ _ hb]

/-- A range that a write does not meet reads as before. -/
theorem hostRead_hostWrite_disjoint {addr a n : Nat} {bytes : List Byte} (h : tabWf 0 s.host.mem = true)
    (hd : a + n ≤ addr ∨ addr + bytes.length ≤ a) : (s.hostWrite addr bytes).hostRead a n = s.hostRead a n := by
  refine List.map_congr_left (fun i hi => tabGet_hostWrite_outside h ?_)
  have hlt : i < n := List.mem_range.mp hi
  omega

/-! ### Rings found -/

theorem ring_id {n : Nat} (hr : s.ring? n = some r) : r.id = n := by
  simpa using List.find?_some hr

/-- A ring replaced by one of the same number is found, and every other is found as before. -/
theorem ring_setRing_of_ring {n : Nat} {x : Ring} (hr : s.ring? n = some r) (hx : x.id = r.id) :
    (s.setRing x).ring? n = some x := by
  obtain rfl : x.id = n := hx.trans (ring_id hr)
  exact ring_setRing (by simp [hr])

theorem ring_setRing_of_ne {n m : Nat} {x : Ring} (hr : s.ring? n = some r) (hx : x.id = r.id) (hm : m ≠ n) :
    (s.setRing x).ring? m = s.ring? m :=
  ring_setRing_ne (by rwa [hx, ring_id hr])

/-! ### One entry (R304, R309, R329, R331) -/

/-- The entry written is read at its place. -/
theorem hostRead_cqWrite_entry {e : BitVec 128} (h : tabWf 0 s.host.mem = true)
    (hd : r.ctrlAddr + 80 ≤ Claims.nextEntry r ∨ Claims.nextEntry r + 16 ≤ r.ctrlAddr + 72) :
    (s.cqWrite r e).hostRead (Claims.nextEntry r) 16 = leBytes 16 e.toNat := by
  have hsame := hostRead_hostWrite_same (addr := Claims.nextEntry r) (bytes := leBytes 16 e.toNat) h
  rw [length_leBytes] at hsame
  refine (hostRead_hostWrite_disjoint (hostWrite_mem_wf h) ?_).trans hsame
  rw [length_leBytes]
  omega

/-- The CQ_TAIL written is read in the control block. -/
theorem hostRead_cqWrite_tail {e : BitVec 128} (h : tabWf 0 s.host.mem = true) :
    (s.cqWrite r e).hostRead (r.ctrlAddr + 72) 8 = leBytes 8 (r.cqTail + 1).toNat := by
  have hsame := hostRead_hostWrite_same (addr := r.ctrlAddr + 72) (bytes := leBytes 8 (r.cqTail + 1).toNat)
    (hostWrite_mem_wf (addr := Claims.nextEntry r) (bytes := leBytes 16 e.toNat) h)
  rwa [length_leBytes] at hsame

/-- A byte that lies neither in the entry nor in CQ_TAIL is as it was. -/
theorem tabGet_cqWrite {e : BitVec 128} {j : Nat} (h : tabWf 0 s.host.mem = true)
    (hentry : j < Claims.nextEntry r ∨ Claims.nextEntry r + 16 ≤ j)
    (htail : j < r.ctrlAddr + 72 ∨ r.ctrlAddr + 72 + 8 ≤ j) :
    tabGet 0 (s.cqWrite r e).host.mem j = tabGet 0 s.host.mem j :=
  (tabGet_hostWrite_outside (hostWrite_mem_wf h) (by rwa [length_leBytes])).trans
    (tabGet_hostWrite_outside h (by rwa [length_leBytes]))

/-- An entry written changes host memory and the rings alone. -/
theorem cqWrite_eq {e : BitVec 128} : s.cqWrite r e = { s with host := (s.cqWrite r e).host, rg := (s.cqWrite r e).rg } := rfl

theorem ring_cqWrite {n : Nat} {e : BitVec 128} (hr : s.ring? n = some r) :
    (s.cqWrite r e).ring? n = some { r with cqTail := r.cqTail + 1 } := by
  unfold State.cqWrite
  exact ring_setRing_of_ring (r := r) hr rfl

theorem ring_cqWrite_ne {n m : Nat} {e : BitVec 128} (hr : s.ring? n = some r) (hm : m ≠ n) :
    (s.cqWrite r e).ring? m = s.ring? m := by
  unfold State.cqWrite
  exact ring_setRing_of_ne (r := r) hr rfl hm

section

variable {n ssl kind : Nat} {uns xres : Bool} {st : BitVec 8} {fl : BitVec 3} {res : BitVec 64}

/-- With room, and none held before it, an entry is written. -/
theorem post_of_room (hr : s.ring? n = some r) (hheld : r.held = []) (hroom : (r.cqTail - r.cqHead).toNat < ringSize r.cqOrder) :
    s.post n uns ssl st fl xres kind res
      = s.cqWrite r (cqEntry (r.cqTail + BitVec.ofNat 32 r.held.length) ssl st fl xres kind res) := by
  have hfree : (r.held.isEmpty && r.room) = true := by rw [hheld, Ring.room, decide_eq_true hroom]; rfl
  simp only [State.post, hr, hfree, if_true]

/-- Without room, or behind others, the entry of a command is held. -/
theorem post_of_full (hr : s.ring? n = some r)
    (hfull : r.held ≠ [] ∨ ringSize r.cqOrder ≤ (r.cqTail - r.cqHead).toNat) : s.post n false ssl st fl xres kind res
      = s.setRing { r with
          held := r.held ++ [cqEntry (r.cqTail + BitVec.ofNat 32 r.held.length) ssl st fl xres kind res] } := by
  have hno : (r.held.isEmpty && r.room) = false := by
    rw [Bool.and_eq_false_iff, Ring.room, decide_eq_false_iff_not, Nat.not_lt]
    exact hfull.imp_left (fun h => by simp [h])
  simp only [State.post, hr, hno, Bool.false_and, Bool.false_eq_true, if_false]

end

theorem unsolicited_lost : Claims.unsolicitedLost := by
  rintro s ring r ssl status flags xres kind result ⟨hr, hshort⟩
  have hheld : r.held ≠ [] := by
    rintro hnil
    simp [hnil] at hshort
  have hno : (r.held.isEmpty && r.room) = false := by simp [hheld]
  have hlost : (true && (decide (65536 ≤ r.held.length) || decide (262144 ≤ s.heldOn (hubOf ring)))) = true := by
    simpa using hshort.imp_right And.left
  simp only [State.post, hr, hno, hlost, Bool.false_eq_true, if_false, if_true]

/-! ### The end of a command (R309, R321 to R324) -/

/-- The state once a command's extended result is written, where it has one. -/
def State.extended (s : State) (t : Ticket) (d : Done) : State :=
  if t.xres then s.hostWrite t.resultAddr d.xbytes else s

@[simp] theorem ring_extended {n : Nat} : (s.extended t d).ring? n = s.ring? n := by
  unfold State.extended
  split <;> rfl

/-- An extended result changes host memory alone. -/
theorem extended_eq : s.extended t d = { s with host := (s.extended t d).host } := by
  unfold State.extended
  split <;> rfl

theorem extended_mem_wf (h : tabWf 0 s.host.mem = true) : tabWf 0 (s.extended t d).host.mem = true := by
  unfold State.extended
  split
  · exact hostWrite_mem_wf h
  · exact h

/-- A byte outside the extended result's range is as it was. -/
theorem tabGet_extended {j : Nat} (h : tabWf 0 s.host.mem = true)
    (hj : t.xres = true → j < t.resultAddr ∨ t.resultAddr + d.xbytes.length ≤ j) :
    tabGet 0 (s.extended t d).host.mem j = tabGet 0 s.host.mem j := by
  unfold State.extended
  split
  · exact tabGet_hostWrite_outside h (hj ‹_›)
  · rfl

theorem answer_of_quiet (hquiet : t.quiet = true) (hok : d.status = 0) : s.answer t d = s.extended t d := by
  have hnone : (t.quiet && d.status == 0) = true := by simp [hquiet, hok]
  simp only [State.answer, hnone, if_true]
  rfl

theorem answer_of_entry (h : t.quiet = false ∨ d.status ≠ 0) : s.answer t d
    = (s.extended t d).post t.ring false (t.sseq.toNat % 65536) d.status d.flags t.xres 0 d.result := by
  have hentry : (t.quiet && d.status == 0) = false := by
    rw [Bool.and_eq_false_iff, beq_eq_false_iff_ne]
    exact h
  simp only [State.answer, hentry, Bool.false_eq_true, if_false]
  rfl

/-- A ring that is not being destroyed stays. -/
theorem endDestroy_of_not_destroying {n : Nat} (hr : s.ring? n = some r) (hd : r.destroying = none) : s.endDestroy n = s := by
  simp only [State.endDestroy, hr, hd]

/-- A command on a ring that is not being destroyed ends with its answer, its descriptor out of flight. -/
theorem complete_of_answer {u : State} {x : Ring} (hr : s.ring? t.ring = some r)
    (ha : (s.setRing (r.ended t.sseq)).answer t d = u) (hx : u.ring? t.ring = some x) (hd : x.destroying = none) :
    s.complete t d = u := by
  simp only [State.complete, hr, ha, endDestroy_of_not_destroying hx hd]

/-- The ring of a command that has ended, before its completion. -/
theorem ring_ended_extended (hr : s.ring? t.ring = some r) :
    ((s.setRing (r.ended t.sseq)).extended t d).ring? t.ring = some (r.ended t.sseq) := by
  rw [ring_extended]
  exact ring_setRing_of_ring hr rfl

theorem complete_of_quiet (hr : s.ring? t.ring = some r) (hd : r.destroying = none) (hquiet : t.quiet = true)
    (hok : d.status = 0) : s.complete t d = (s.setRing (r.ended t.sseq)).extended t d :=
  complete_of_answer hr (answer_of_quiet hquiet hok) (ring_ended_extended hr) hd

theorem complete_of_room (hr : s.ring? t.ring = some r) (hd : r.destroying = none) (hentry : t.quiet = false ∨ d.status ≠ 0)
    (hheld : r.held = []) (hroom : (r.cqTail - r.cqHead).toNat < ringSize r.cqOrder) : s.complete t d
      = ((s.setRing (r.ended t.sseq)).extended t d).cqWrite (r.ended t.sseq) (Claims.entryOf r t d) := by
  have hx := ring_ended_extended (d := d) hr
  refine complete_of_answer hr ((answer_of_entry hentry).trans (post_of_room hx hheld hroom)) (ring_cqWrite hx) hd

theorem complete_of_full (hr : s.ring? t.ring = some r) (hd : r.destroying = none) (hentry : t.quiet = false ∨ d.status ≠ 0)
    (hfull : r.held ≠ [] ∨ ringSize r.cqOrder ≤ (r.cqTail - r.cqHead).toNat) : s.complete t d
      = ((s.setRing (r.ended t.sseq)).extended t d).setRing
          { r.ended t.sseq with held := r.held ++ [Claims.entryOf r t d] } := by
  have hx := ring_ended_extended (d := d) hr
  exact complete_of_answer hr ((answer_of_entry hentry).trans (post_of_full hx hfull)) (ring_setRing_of_ring hx rfl) hd

theorem quiet_success_takes_no_cseq : Claims.completionQuiet := by
  rintro s t d r ⟨hr, hd, hquiet, hok⟩
  exact complete_of_quiet hr hd hquiet hok

theorem full_completion_held : Claims.completionHeld := by
  rintro s t d r ⟨hr, hd, hentry, hfull⟩
  exact complete_of_full hr hd hentry hfull

theorem completion_written : Claims.completionWritten := by
  rintro s t d r ⟨hwf, hr, hheld, hd, hroom, hentry, hapart⟩ u
  have hx := ring_ended_extended (d := d) hr
  have hmem : tabWf 0 ((s.setRing (r.ended t.sseq)).extended t d).host.mem = true := extended_mem_wf (mem_wf_of_hostWf hwf)
  rw [show u = _ from complete_of_room hr hd hentry hheld hroom]
  refine ⟨hostRead_cqWrite_entry hmem hapart, hostRead_cqWrite_tail hmem, ring_cqWrite hx, fun id hid => ?_,
    fun a ha => ?_, ?_⟩
  · rw [ring_cqWrite_ne hx hid, ring_extended]
    exact ring_setRing_of_ne hr rfl hid
  · have hresult : t.xres = true → a < t.resultAddr ∨ t.resultAddr + d.xbytes.length ≤ a :=
      fun hxres => ha (t.resultAddr, d.xbytes.length) (by simp [hxres])
    exact (tabGet_cqWrite hmem (ha (Claims.nextEntry r, 16) (by simp)) (ha (r.ctrlAddr + 72, 8) (by simp))).trans
      (tabGet_extended (mem_wf_of_hostWf hwf) hresult)
  · rw [cqWrite_eq, extended_eq]
    rfl

/-! ### The statement -/

/-- Settles O10: a command's entry is not formed, written or held as the claims say, and a lost one is counted. -/
theorem completionEntriesOfCommands : Obligations.CompletionEntriesOfCommands :=
  ⟨completion_written, quiet_success_takes_no_cseq, full_completion_held, unsolicited_lost⟩

end Sys2Proof.Machine
end

section
/-!
PROOF. Doorbells (Machine/Rings.lean): the statement O12. A bit of a little-endian number is a bit of one of its bytes, which
gives the place of each ring's doorbell; a poll is followed word by word, by what has been asked for so far.
-/
namespace Sys2Proof.Machine

variable {s t : State} {h : Hub}

/-! ### The bit of a ring (R11, R305) -/

theorem bitOf_eq_testBit {w i : Nat} : bitOf w i = w.testBit i := by
  rw [bitOf, Nat.testBit_eq_decide_div_mod_eq, Nat.shiftRight_eq_div_pow]

/-- Bit i of a little-endian number is bit i mod 8 of byte i / 8. -/
theorem bitOf_leValue {l : List Byte} {i : Nat} : bitOf (leValue l) i = bitOf (l.getD (i / 8) 0).toNat (i % 8) := by
  induction l generalizing i with
  | nil => simp [leValue, bitOf_eq_testBit]
  | cons b bs ih =>
    have hsplit : leValue (b :: bs) = 2 ^ 8 * leValue bs + b.toNat := Nat.add_comm _ _
    rw [bitOf_eq_testBit, hsplit, Nat.testBit_two_pow_mul_add _ b.isLt]
    by_cases hi : i < 8
    · rw [if_pos hi, Nat.div_eq_of_lt hi, Nat.mod_eq_of_lt hi, List.getD_cons_zero, bitOf_eq_testBit]
    · rw [if_neg hi, ← bitOf_eq_testBit, ih, show i / 8 = (i - 8) / 8 + 1 by omega, List.getD_cons_succ,
        show (i - 8) % 8 = i % 8 by omega]

/-- A byte of a range of host memory that is read. -/
theorem getD_hostRead {a n k : Nat} (hk : k < n) : (s.hostRead a n).getD k 0 = tabGet 0 s.host.mem (a + k) := by
  simp [State.hostRead, List.getD_eq_getElem?_getD, hk]

theorem bitOf_hostNum {a n i : Nat} (hi : i / 8 < n) :
    bitOf (s.hostNum a n) i = bitOf (tabGet 0 s.host.mem (a + i / 8)).toNat (i % 8) := by
  rw [State.hostNum, bitOf_leValue, getD_hostRead hi]

theorem doorbellBits_hold : Claims.doorbellBits := by
  intro s n hn b
  have hb : b = 16384 * (n % 4) + n / 4 := rfl
  refine ⟨by omega, by omega, by omega, ?_⟩
  rw [bitOf_hostNum (by omega), show s.lineAddr 0 + 8 * (b / 64) + b % 64 / 8 = s.lineAddr 0 + b / 8 by omega,
    show b % 64 % 8 = b % 8 by omega]

/-! ### A poll, word by word (R307, R308) -/

section

variable {p : HostPort} {m : HMsg}

@[simp] theorem send_swaps : (p.send m).swaps = p.swaps := by unfold HostPort.send; split <;> rfl
@[simp] theorem send_nextTag : (p.send m).nextTag = p.nextTag := by unfold HostPort.send; split <;> rfl
@[simp] theorem send_reads : (p.send m).reads = p.reads := by unfold HostPort.send; split <;> rfl
@[simp] theorem send_fences : (p.send m).fences = p.fences := by unfold HostPort.send; split <;> rfl

theorem setPort_rg_ne {g : Hub} (hg : g ≠ h) : (s.setPort h p).rg.ports[g] = s.rg.ports[g] := by
  have hne : h.val ≠ g.val := fun e => hg (Fin.ext e.symm)
  simp [State.setPort, hne]

end

/-- What a poll has left once it has asked for these words: `Claims.polled` of a list of words. -/
structure Asked (s t : State) (h : Hub) (ws : List Nat) : Prop where
  swaps : t.rg.ports[h].swaps = s.rg.ports[h].swaps ++ Claims.swapReqs s h ws
  nextTag : t.rg.ports[h].nextTag = s.rg.ports[h].nextTag + BitVec.ofNat 16 ws.length
  reads : t.rg.ports[h].reads = s.rg.ports[h].reads
  fences : t.rg.ports[h].fences = s.rg.ports[h].fences
  others : ∀ g : Hub, g ≠ h → t.rg.ports[g] = s.rg.ports[g]
  portsOnly : ∃ v, t = { s with rg := { s.rg with ports := v } }

theorem Asked.refl : Asked s s h [] :=
  ⟨by simp [Claims.swapReqs], by simp, rfl, rfl, fun _ _ => rfl, s.rg.ports, rfl⟩

theorem Asked.polled {lines : List Nat} (a : Asked s t h (lines.flatMap (Claims.lineWords s))) :
    Claims.polled s t h lines := by
  obtain ⟨hswaps, htag, hreads, hfences, hothers, v, rfl⟩ := a
  exact ⟨hswaps, htag, hreads, hfences, hothers, rfl⟩

/-- The request for a word that comes after others. -/
theorem swapReqs_concat {ws : List Nat} {w : Nat} : Claims.swapReqs s h (ws ++ [w]) = Claims.swapReqs s h ws
    ++ [{ tag := s.rg.ports[h].nextTag + BitVec.ofNat 16 ws.length, addr := s.lineAddr 0 + 8 * w, len := 8
          since := s.tick, use := .summary w }] := by
  simp [Claims.swapReqs, List.zipIdx_append]

/-- A word of a line asked for by SWAP0. -/
def State.askWord (t : State) (h : Hub) (line w : Nat) : State :=
  let a := t.lineAddr line + 8 * w
  let p := t.rg.ports[h]
  let q : PortReq := { tag := p.nextTag, addr := a, len := 8, since := t.tick, use := .summary (8 * line + w) }
  t.setPort h (({ p with swaps := p.swaps ++ [q], nextTag := p.nextTag + 1 } : HostPort).send
    { typ := 3, addr := a, tag := p.nextTag, arg := 0, len := 8 })

/-- A line is read word by word, and each word that is not zero is asked for. -/
theorem swapLine_eq {line : Nat} : t.swapLine h line = (List.range 8).foldl (fun (u : State) w =>
    if u.hostNum (u.lineAddr line + 8 * w) 8 = 0 then u else u.askWord h line w) t := rfl

theorem Asked.hostNum {ws : List Nat} {line w : Nat} (a : Asked s t h ws) :
    t.hostNum (t.lineAddr line + 8 * w) 8 = s.hostNum (s.lineAddr line + 8 * w) 8 := by
  obtain ⟨v, rfl⟩ := a.portsOnly
  rfl

/-- The request for a word names the place that the claim gives it. -/
theorem Asked.request {ws : List Nat} {line w : Nat} (a : Asked s t h ws) :
    ({ tag := t.rg.ports[h].nextTag, addr := t.lineAddr line + 8 * w, len := 8, since := t.tick
       use := .summary (8 * line + w) } : PortReq)
      = { tag := s.rg.ports[h].nextTag + BitVec.ofNat 16 ws.length, addr := s.lineAddr 0 + 8 * (8 * line + w), len := 8
          since := s.tick, use := .summary (8 * line + w) } := by
  have haddr : t.lineAddr line + 8 * w = s.lineAddr 0 + 8 * (8 * line + w) := by
    obtain ⟨v, rfl⟩ := a.portsOnly
    simp only [State.lineAddr]
    omega
  have htick : t.tick = s.tick := by
    obtain ⟨v, rfl⟩ := a.portsOnly
    rfl
  rw [a.nextTag, haddr, htick]

theorem Asked.askWord {ws : List Nat} {line w : Nat} (a : Asked s t h ws) :
    Asked s (t.askWord h line w) h (ws ++ [8 * line + w]) := by
  unfold State.askWord
  refine ⟨?_, ?_, ?_, ?_, fun g hg => (setPort_rg_ne hg).trans (a.others g hg), ?_⟩
  · rw [setPort_rg_self, send_swaps, swapReqs_concat, a.request, a.swaps, List.append_assoc]
  · rw [setPort_rg_self, send_nextTag, a.nextTag, List.length_append, BitVec.ofNat_add, BitVec.add_assoc]
    rfl
  · rw [setPort_rg_self, send_reads, a.reads]
  · rw [setPort_rg_self, send_fences, a.fences]
  · obtain ⟨v, rfl⟩ := a.portsOnly
    exact ⟨_, rfl⟩

/-- Of these words of a line, those that are not zero are asked for. -/
theorem Asked.words {l ws : List Nat} {line : Nat} (a : Asked s t h ws) :
    Asked s (l.foldl (fun (u : State) w => if u.hostNum (u.lineAddr line + 8 * w) 8 = 0 then u else u.askWord h line w) t) h
      (ws ++ (l.filter (fun w => s.hostNum (s.lineAddr line + 8 * w) 8 != 0)).map (fun w => 8 * line + w)) := by
  induction l generalizing t ws with
  | nil => simpa using a
  | cons w l ih =>
    rw [List.foldl_cons, a.hostNum, List.filter_cons]
    by_cases hz : s.hostNum (s.lineAddr line + 8 * w) 8 = 0
    · rw [if_pos hz, if_neg (by simp [hz])]
      exact ih a
    · rw [if_neg hz, if_pos (by simp [hz]), List.map_cons, List.append_cons]
      exact ih a.askWord

/-- A line read after others: each of its words that is not zero is asked for. -/
theorem Asked.swapLine {ws : List Nat} {line : Nat} (a : Asked s t h ws) :
    Asked s (t.swapLine h line) h (ws ++ Claims.lineWords s line) := by
  rw [swapLine_eq]
  exact a.words

/-- Lines read one after another. -/
theorem Asked.swapLines {lines ws : List Nat} (a : Asked s t h ws) :
    Asked s (lines.foldl (fun (u : State) line => u.swapLine h line) t) h (ws ++ lines.flatMap (Claims.lineWords s)) := by
  induction lines generalizing t ws with
  | nil => simpa using a
  | cons line lines ih =>
    rw [List.foldl_cons, List.flatMap_cons, ← List.append_assoc]
    exact ih a.swapLine

theorem exec_summaryPoll_of_serves (hserves : s.hubServes h = true) : exec (.summaryPoll h) s
    = .next (((List.range 32).map (fun i => 32 * h.val + i)).foldl (fun (u : State) line => u.swapLine h line) s) := by
  change execSummaryPoll h s = _
  rw [execSummaryPoll, if_pos hserves, List.foldl_map]

theorem exec_watch_of_line {line : BitVec 7} (hserves : s.hubServes h = true) (hen : s.regs.hubs[h].watchEn = true)
    (hline : line.toNat / 32 = h.val) : exec (.watch h line) s = .next (s.swapLine h line.toNat) := by
  have hreads : (s.hubServes h && s.regs.hubs[h].watchEn && line.toNat / 32 == h.val) = true := by
    rw [hserves, hen, hline, beq_self_eq_true]
    rfl
  change execWatch h line s = _
  rw [execWatch, if_pos hreads]

theorem summaryPoll_asks : Claims.summaryPoll :=
  fun _ _ hserves => ⟨_, exec_summaryPoll_of_serves hserves, Asked.refl.swapLines.polled⟩

theorem watch_asks : Claims.watch := by
  rintro s hub line ⟨hserves, hen, hline⟩
  have hasked : Asked s (s.swapLine hub line.toNat) hub ([line.toNat].flatMap (Claims.lineWords s)) := by
    rw [List.flatMap_singleton, ← List.nil_append (Claims.lineWords s line.toNat)]
    exact Asked.refl.swapLine
  exact ⟨_, exec_watch_of_line hserves hen hline, hasked.polled⟩

/-! ### An exchange answered (R305, R308) -/

theorem swapData_rings : Claims.swapData := by
  rintro s hub tag q word ⟨hq, huse⟩ p u bits
  change execSwapData hub tag s = _
  simp only [execSwapData, hq, huse]
  rfl

/-- Settles O12: where the doorbell of each ring lies, what a poll asks for and what an answered exchange rings. -/
theorem doorbellBitsNameRings : Obligations.DoorbellBitsNameRings :=
  ⟨doorbellBits_hold, summaryPoll_asks, watch_asks, swapData_rings⟩

end Sys2Proof.Machine
end

section
/-!
PROOF. Flits, resending, retraining and modules of a host port (Machine/Ports.lean): the statement O13. Each claim's conditions
choose one branch of its command.
-/
namespace Sys2Proof.Machine

theorem hostFlitReceive_leaves : Claims.hostFlitReceive := by
  rintro s hub f ⟨hretrain, hfcrc, hdcrc, hseq⟩ p
  have hwhole : ¬ (!f.fcrcOk || !f.dcrcOk) = true := by simp [hfcrc, hdcrc]
  change execHostFlitReceive hub f s = _
  unfold execHostFlitReceive
  rw [if_neg (Bool.eq_false_iff.mp hretrain), if_neg hwhole, if_neg (not_not.mpr hseq)]
  rfl

theorem hostFlitBad_leaves : Claims.hostFlitBad := by
  intro s hub f hretrain hbad
  have hfails : (!f.fcrcOk || !f.dcrcOk) = true := by simpa using hbad
  change execHostFlitReceive hub f s = _
  simp only [execHostFlitReceive, hretrain, hfails, Bool.false_eq_true, if_false, if_true]

theorem hostPortResend_leaves : Claims.hostPortResend := by
  rintro s hub ⟨hnak, hretrain⟩ p
  have hacts : ¬ (!p.nakSeen || p.retraining) = true := by
    rw [show p.nakSeen = true from hnak, show p.retraining = false from hretrain]
    decide
  change execHostPortResend hub s = _
  unfold execHostPortResend
  rw [if_neg hacts]
  exact (apply_ite Host.Outcome.next _ _ _).symm

theorem hostPortRetrained_leaves : Claims.hostPortRetrained := by
  intro s hub module hpre p
  change execHostPortRetrained hub module s = _
  cases module with
  | some m =>
    simp only [execHostPortRetrained, show s.rg.ports[hub].modules.getLsbD m.val = false from hpre, Bool.false_eq_true,
      if_false]
    rfl
  | none =>
    simp only [execHostPortRetrained, show s.rg.ports[hub].retraining = true from hpre, Bool.not_true, Bool.false_eq_true,
      if_false]
    rfl

theorem hostModuleLeftOut_leaves : Claims.hostModuleLeftOut := fun _ _ _ hfitted => if_pos hfitted

/-- Settles O13: what a flit, a resend, the end of a retraining and a module left out do to the port. -/
theorem hostPortFlitsAndModules : Obligations.HostPortFlitsAndModules :=
  ⟨hostFlitReceive_leaves, hostFlitBad_leaves, hostPortResend_leaves, hostPortRetrained_leaves, hostModuleLeftOut_leaves⟩

end Sys2Proof.Machine
end

section
/-!
PROOF. The paths to the register window, HUB_ADMIN_ATTACH and the JTAG chain (Machine/Regs.lean): the statement O59. For an
attachment the lemmas before it say that locks abandoned leave the rings, and where ring 0 lies afterwards; for a data shift they
say what leaves the chain.
-/
namespace Sys2Proof.Machine

variable {s : State}

/-! ### I3C and the mailbox (R657, R659 to R663) -/

theorem i3cPrivateWrite_leaves : Claims.i3cPrivateWrite := by
  rintro s hub l ⟨hopen, hlen, hoff, hwhole⟩
  have haligned : ¬ (leValue (l.take 2) % 4 ≠ 0 ∨ (l.drop 2).length % 4 ≠ 0) := by
    rw [List.length_drop]
    exact fun h => h.elim (fun h => h hoff) (fun h => h hwhole)
  change execI3cPrivateWrite hub l s = _
  simp only [execI3cPrivateWrite, hopen, Nat.not_lt.mpr hlen, decide_false, Bool.not_true, Bool.or_self, Bool.false_eq_true,
    if_neg haligned, if_false]
  rfl

theorem i3cPrivateRead_leaves : Claims.i3cPrivateRead := by
  rintro s hub n o ⟨hopen, hoff⟩ r
  change execI3cPrivateRead hub n s = _
  simp only [execI3cPrivateRead, hopen, hoff, Bool.not_true, Bool.false_eq_true, if_false]
  rfl

theorem mailboxPoll_leaves : Claims.mailboxPoll := by
  rintro s hub ⟨hopen, hcrc, hseq⟩ base line u r
  have hnew : ¬ (leValue (line.take 4) = s.regs.hubs[hub].mbSeq.toNat
      ∧ leValue (line.drop 60) = s.regs.hubs[hub].mbCrc.toNat) := fun h => hseq h.1
  change execMailboxPoll hub s = _
  simp only [execMailboxPoll, hopen, Bool.not_true, Bool.false_eq_true, if_false]
  rw [if_neg (not_not.mpr hcrc), if_neg hnew]

theorem mailboxBadCrc_leaves : Claims.mailboxBadCrc := by
  rintro s hub ⟨hopen, hcrc⟩
  change execMailboxPoll hub s = _
  simp only [execMailboxPoll, hopen, Bool.not_true, Bool.false_eq_true, if_false]
  rw [if_pos hcrc, sat16, Nat.min_comm]

/-! ### HUB_ADMIN_ATTACH and its end (R337, R488, R605, R671) -/

/-- An event is a matter of its hub's recorder alone. -/
@[simp] theorem event_rg {h : Hub} {e : Event} : (s.event h e).rg = s.rg := by
  unfold State.event
  dsimp only
  split
  · rfl
  · split <;> rfl

/-- Locks abandoned leave rings, ports and bases as they were. -/
@[simp] theorem abandonWhere_rg {h : Hub} {p : BitVec 8 → Bool} : (s.abandonWhere h p).rg = s.rg := by
  refine List.foldlRecOn _ _ (motive := fun u : State => u.rg = s.rg) rfl (fun u hu e _ => ?_)
  split
  · exact event_rg.trans hu
  · exact hu

@[simp] theorem abandonAll_rg {p : BitVec 8 → Bool} : (s.abandonAll p).rg = s.rg :=
  List.foldlRecOn _ _ (motive := fun u : State => u.rg = s.rg) rfl (fun _ hu _ _ => abandonWhere_rg.trans hu)

theorem ring_of_rg {t : State} {n : Nat} (h : t.rg = s.rg) : t.ring? n = s.ring? n := by
  simp only [State.ring?, h]

/-- Ring 0 attached at a base has its structures there, is deaf, and keeps its SQ_HEAD and CQ_TAIL. -/
theorem reattach_ring {base : Nat} {again : Bool} {r : Ring} (hr : s.ring? 0 = some r) :
    (s.reattach base again).rg.adminUsed = s.rg.adminUsed ∧ (s.reattach base again).rg.attaching = some r.cqTail
      ∧ ∃ x : Ring, (s.reattach base again).ring? 0 = some x ∧ x.ctrlAddr = base + 0x2000 ∧ x.sqAddr = base + 0x3000
        ∧ x.cqAddr = base + 0x7000 ∧ x.deaf = true ∧ x.sqHead = r.sqHead ∧ x.cqTail = r.cqTail := by
  unfold State.reattach
  rw [hr]
  cases again with
  | false => exact ⟨rfl, rfl, _, ring_setRing_of_ring (s := s.setWindow 0 _) hr rfl, rfl, rfl, rfl, rfl, rfl, rfl⟩
  | true => exact ⟨rfl, rfl, _, ring_setRing_of_ring hr rfl, rfl, rfl, rfl, rfl, rfl, rfl⟩

/-- A write with ATTACH and the key attaches ring 0 at the base of HUB_ADMIN_BASE. -/
theorem exec_hubAdminAttach_of_key {v : BitVec 32} (h : Claims.Pre.hubAdminAttach s v) :
    exec (.hubAdminAttach v) s = .next ((State.reattach { s with rg := { s.rg with adminUsed := s.rg.adminReg } }
      s.rg.adminReg.toNat s.rg.attaching.isSome).abandonAll (fun b => b.toNat / 64 == 2)) := by
  obtain ⟨hopen, hattach, hkey⟩ := h
  change execHubAdminAttach v s = _
  simp only [execHubAdminAttach, State.adminAttach, hopen, hattach, hkey, beq_self_eq_true, Bool.and_self, if_true]

/-- A write without ATTACH or without the key does nothing. -/
theorem adminAttach_of_no_key {v : BitVec 32} (h : v.getLsbD 0 = false ∨ v.extractLsb' 16 16 ≠ 0xA7C4#16) :
    s.adminAttach v = s := by
  have hoff : ¬ (v.getLsbD 0 && v.extractLsb' 16 16 == 0xA7C4#16) = true := by
    rw [Bool.and_eq_true, beq_iff_eq]
    exact fun ⟨hattach, hkey⟩ => h.elim (fun hlow => Bool.false_ne_true (hlow.symm.trans hattach)) (fun hne => hne hkey)
  exact if_neg hoff

theorem hubAdminAttach_leaves : Claims.hubAdminAttach := by
  refine fun s v => ⟨exec_hubAdminAttach_of_key, fun h => congrArg Host.Outcome.next ?_⟩
  rw [adminAttach_of_no_key h, ite_self]

theorem adminAttachDone_leaves : Claims.adminAttachDone := by
  rintro s n r ⟨hattaching, hr, hserves, hready⟩ u
  change execAdminAttachDone s = _
  simp only [execAdminAttachDone, hattaching, hr, hserves, hready, Bool.and_self, if_true]
  rfl

theorem adminBase_holds : Claims.adminBase := by
  refine ⟨rfl, rfl, fun s p h v => ⟨rfl, rfl⟩, fun s v r ⟨hpre, hr⟩ => ?_⟩
  let u : State := { s with rg := { s.rg with adminUsed := s.rg.adminReg } }
  obtain ⟨hused, hattaching, x, hx, hctrl, hsq, hcq, hdeaf, hhead, htail⟩ :=
    reattach_ring (s := u) (base := s.rg.adminReg.toNat) (again := s.rg.attaching.isSome) hr
  refine ⟨_, x, exec_hubAdminAttach_of_key hpre, ?_, fun n => ?_, ?_, hctrl, hsq, hcq, hdeaf, hhead, htail, ?_⟩
  · rw [abandonAll_rg]
    exact hused
  · rw [State.lineAddr, abandonAll_rg]
    exact congrArg (fun b : BitVec 57 => b.toNat + 64 * n) hused
  · rw [ring_of_rg abandonAll_rg]
    exact hx
  · rw [abandonAll_rg]
    exact hattaching

/-! ### The JTAG chain (R604, R692, Table 21-7) -/

/-- The levels that a hub's cells sample in a data shift: hub 0's of the balls, the others' of their one cell. -/
def State.sampled (s : State) (ext : BitVec 40) (k : Hub) : List Bool :=
  if k.val = 0 then s.ballLevels (ext.extractLsb' 0 37) else [ext.getLsbD (36 + k.val)]

/-- A data shift reads out of the chain first what hub 3's register captured, then hub 2's, hub 1's, hub 0's and the bits
shifted in. -/
theorem exec_jtagTap_dr_of_pgood {tdi : List Bool} (h : s.start.pins.pgood = true) : ∃ taps : Vector Tap 4,
    let cap (k : Hub) : List Bool := s.regs.taps[k].captures (State.sampled (s.fresh 40).2 (s.fresh 40).1 k)
    exec (.jtagTap (.dr tdi)) s = .next { s with
      freeCount := s.freeCount + 1
      regs := { s.regs with taps := taps, tdo := ((cap 3 ++ cap 2 ++ cap 1 ++ cap 0) ++ tdi).take tdi.length } } := by
  have hlit : ¬ (!s.start.pins.pgood) = true := by simp [h]
  exact ⟨_, if_neg hlit⟩

theorem jtagTap_leaves : Claims.jtagTap := by
  intro s hpgood
  have hlit : ¬ (!s.start.pins.pgood) = true := by simp [hpgood]
  refine ⟨if_neg hlit, fun codes => if_neg hlit, fun tdi => ?_⟩
  obtain ⟨taps, hexec⟩ := exec_jtagTap_dr_of_pgood (tdi := tdi) hpgood
  exact ⟨taps, _, List.length_take_of_le (by simp only [List.length_append]; omega), hexec⟩

/-- A TAP with the instruction IDCODE captures it, whatever its cells sample. -/
theorem captures_of_idcode {t : Tap} {levels : List Bool} (h : t.ir = 1) :
    t.captures levels = (List.range 32).map (fun i => (0x10512E57#32).getLsbD i) :=
  if_pos h

theorem jtagIdcode_reads : Claims.jtagIdcode := by
  rintro s tdi ⟨hpgood, hir⟩ hlen
  obtain ⟨taps, hexec⟩ := exec_jtagTap_dr_of_pgood (tdi := tdi) hpgood
  refine ⟨_, hexec, ?_⟩
  simp only [captures_of_idcode (hir _), hlen]
  exact List.take_left' (by simp)

theorem jtagDark_leaves : Claims.jtagDark := by
  intro s op hdark
  have hnot : (!s.start.pins.pgood) = true := by rw [show s.start.pins.pgood = false from hdark]; rfl
  exact if_pos hnot

/-! ### The statement -/

/-- Settles O59: what each access path, an attachment of ring 0 and the JTAG chain do where the claims' conditions hold. -/
theorem accessPathsAndAdminBase : Obligations.AccessPathsAndAdminBase :=
  ⟨i3cPrivateWrite_leaves, i3cPrivateRead_leaves, mailboxPoll_leaves, mailboxBadCrc_leaves, hubAdminAttach_leaves,
   adminAttachDone_leaves, adminBase_holds, jtagTap_leaves, jtagIdcode_reads, jtagDark_leaves⟩

end Sys2Proof.Machine
end

section
/-!
PROOF. RING_ATTACH (Machine/Rings.lean): the refutation of O16. The end of a command on ring 0 looks for an end of ring 0 that
waits for it, and the claim has no hypothesis that none waits. No command makes such a wait (RING_DESTROY of ring 0 ends with
NO_RING), but a state may hold one, and then the end of RING_ATTACH ends a command of a third ring.
-/
namespace Sys2Proof.Machine

/-- The admin ring at a base, its end waited for by a QUIET command of ring 5. -/
def endingAdminRing : Ring :=
  { Ring.admin 0x1000000 with destroying := some { ring := 5, sseq := 0, quiet := true, xres := false, resultAddr := 0 } }

/-- The job ring that RING_ATTACH names. -/
def namedRing : Ring := { Ring.admin 0x2000000 with id := 1 }

/-- A third ring with one command in flight. -/
def thirdRing : Ring := { Ring.admin 0x3000000 with id := 5, inflight := [{ sseq := 0, slot := 0, payload := 0 }] }

/-- A package at level RING with these three rings and blank host memory. -/
def endingAdmin : State :=
  { State.reset with
    start := { State.reset.start with level := .ring }
    rg := { State.reset.rg with list := [endingAdminRing, namedRing, thirdRing], adminUsed := 0x1000000 } }

/-- RING_ATTACH of ring 1 on the admin ring, with its structures at 0x4000000, 0x5000000 and 0x6000000. -/
def attachRing1 : Desc :=
  { ring := 0, sseq := 0, context := 0, rsvd := 0, prio := 0, xres := false, quiet := false, order := false, ext := false
    ops := 0#128 ++ 0x6000000#64 ++ 0x5000000#64 ++ 0x4000000#64 ++ 0x40000000001#64, resultAddr := 0, payload := 0 }

theorem attachRing1_meets_pre : Claims.Pre.ringAttach endingAdmin attachRing1 namedRing := by decide

/-- Its end ends the command of the third ring too. -/
theorem exec_attachRing1_thirdRing : ∃ t, exec (.ringAttach attachRing1) endingAdmin = .next t
    ∧ t.ring? 5 = some { thirdRing with inflight := [] } := ⟨_, rfl, by decide⟩

/-- Refutes O16: the third ring is not as it was once RING_ATTACH of ring 1 has ended. -/
theorem not_ringsAreCreatedAndAttached : ¬ Obligations.RingsAreCreatedAndAttached := by
  rintro ⟨-, -, -, hattach, -⟩
  obtain ⟨t, x, hexec, hclaim⟩ := hattach _ _ _ attachRing1_meets_pre
  obtain ⟨-, -, -, -, -, -, -, -, -, -, -, -, hothers, -⟩ := hclaim
  obtain ⟨u, hexec', hthird⟩ := exec_attachRing1_thirdRing
  obtain rfl : t = u := Host.Outcome.next.inj (hexec.symm.trans hexec')
  have hkept : t.ring? 5 = some thirdRing := hothers 5 (by decide) (by decide)
  exact absurd (hthird.symm.trans hkept) (by decide)

end Sys2Proof.Machine
end

section
/-!
PROOF. Mover channels (Machine/Movers.lean) and their registers (Machine/Regs.lean): the statements O32 and O33. The
lemmas say what a channel is after it has been replaced, what a write of MOV_CMD does for the writer that reaches the
channel, which state a copying burst from host memory to a bank leaves, and that the wait at the sync point after it
moves no byte; each claim follows from them.
-/
namespace Sys2Proof.Machine

variable {s : State} {h hub : Hub} {ch : Fin 64} {c : Nat}

/-! ### A channel replaced -/

section

variable {x : Channel}

/-- A channel that differs from one after RST_N is listed, in whatever form the table was. -/
theorem chan_setChan (hx : x ≠ Channel.reset) : (s.setChan h c x).chan h c = x := by
  unfold State.setChan State.chan
  rw [setMovers_mov_self, tabPut, if_neg hx, tabGet_ins, if_pos rfl]

@[simp] theorem chan_setSync {y : Sync} : (s.setSync hub y).chan h c = s.chan h c := rfl
@[simp] theorem unitMem_setChan {k : Nat} : (s.setChan h c x).unitMem k = s.unitMem k := rfl

/-- A host port replaced by itself changes nothing. -/
theorem setPort_of_eq {p : HostPort} (hp : p = s.rg.ports[hub]) : s.setPort hub p = s := by
  subst hp
  unfold State.setPort
  rw [Fin.getElem_fin, Vector.set_getElem_self]

end

/-! ### MOV_CMD and MOV_PRIO (R348, R361 to R367, R377, R381) -/

section

variable {by_ : MovWriter}

/-- The route that firmware sets leaves every channel as it was. -/
@[simp] theorem chan_loadFrom {k : Hub} {n : Nat} : (Claims.loadFrom s hub ch by_).chan k n = s.chan k n := by
  cases by_ with
  | host => rfl
  | firmware r => unfold Claims.loadFrom; dsimp only; split <;> rfl

@[simp] theorem loadFrom_tick : (Claims.loadFrom s hub ch by_).tick = s.tick := by
  cases by_ with
  | host => rfl
  | firmware r => unfold Claims.loadFrom; dsimp only; split <;> rfl

/-- The writer that reaches a channel has its MOV_CMD acted on, behind the route that firmware's LOAD sets. -/
theorem movWrite_of_reaches {bits : Nat} (hreach : Claims.reachesChan s hub ch by_) :
    s.movWrite hub ch.val bits by_
      = (if bitOf bits 0 = true then Claims.loadFrom s hub ch by_ else s).movCmd hub ch.val bits := by
  cases by_ with
  | host =>
    have hdirect : s.isDirect hub ch.val = true := hreach
    simp only [State.movWrite, hdirect, if_true, Claims.loadFrom, ite_self]
  | firmware r =>
    have hdirect : s.isDirect hub ch.val = false := hreach
    simp only [State.movWrite, hdirect, Bool.false_eq_true, if_false, Claims.loadFrom, Bool.and_eq_true, decide_eq_true_eq,
      ite_and]

/-- LOAD alone, ABORT alone and RESUME alone. -/
theorem movCmd_load : s.movCmd hub c 1 = s.movLoad hub c := rfl
theorem movCmd_abort : s.movCmd hub c 2 = s.movAbort hub c := rfl
theorem movCmd_resume : s.movCmd hub c 4 = s.movResume hub c := rfl

end

theorem movLoad_leaves : Claims.movLoad := by
  intro s hub ch by_ hreach u x e
  change Host.Outcome.next (s.movWrite hub ch.val 1 by_) = _
  rw [movWrite_of_reaches hreach, movCmd_load]
  simp only [show bitOf 1 0 = true from rfl, if_true, State.movLoad, chan_loadFrom, loadFrom_tick, beq_iff_eq]
  by_cases hfails : e ≠ 0
  · rw [if_pos hfails, if_pos hfails]
  · rw [if_neg hfails, if_neg hfails]
    exact congrArg _ (apply_ite _ _ _ _)

theorem movAbort_leaves : Claims.movAbort := by
  intro s hub ch by_ hreach x
  change Host.Outcome.next (s.movWrite hub ch.val 2 by_) = _
  rw [movWrite_of_reaches hreach, movCmd_abort]
  simp only [show bitOf 2 0 = false from rfl, Bool.false_eq_true, if_false, State.movAbort, beq_iff_eq, Bool.and_eq_true,
    decide_eq_true_eq]
  by_cases hidle : x.state = .idle
  · rw [if_pos hidle, if_pos hidle]
  · rw [if_neg hidle, if_neg hidle]
    exact congrArg _ (apply_ite _ _ _ _).symm

theorem movResume_leaves : Claims.movResume := by
  rintro s hub ch by_ ⟨hreach, hhalted, hleft⟩
  change Host.Outcome.next (s.movWrite hub ch.val 4 by_) = _
  rw [movWrite_of_reaches hreach, movCmd_resume]
  simp only [show bitOf 4 0 = false from rfl, Bool.false_eq_true, if_false, State.movResume, hhalted, bne_self_eq_false,
    hleft, if_true, Nat.not_le.mpr hleft, decide_false, Bool.false_and]

theorem movPrioWrite_leaves : Claims.movPrioWrite := by
  intro s hub ch v by_
  change execMovPrioWrite hub ch v by_ s = _
  cases by_ with
  | host => exact congrArg _ (if_congr (beq_iff_eq.trans eq_comm) rfl rfl)
  | firmware r => exact congrArg _ (if_congr (beq_iff_eq.trans eq_comm) rfl rfl)

/-! ### Event lines (R382, R459, R460) -/

theorem eventPulse_leaves : Claims.eventPulse := fun _ _ _ => rfl

/-! ### The grant of a burst (R355, R366) -/

@[simp] theorem chan_granted {port : MovPort} {g : Hub × Fin 64} {n : Nat} : (s.granted port g).chan h n = s.chan h n := rfl

/-- A granted channel has passed one arbiter more. -/
theorem chan_grantStep {port : MovPort} :
    (Claims.grantStep s port h ch).chan h ch.val = { s.chan h ch.val with passed := (s.chan h ch.val).passed + 1 } :=
  chan_setChan fun hreset => Nat.succ_ne_zero _ (congrArg Channel.passed hreset)

/-- The granted burst moves once it has passed its last arbiter. -/
theorem passPort_grantStep {port : MovPort} {f : Bool} : (Claims.grantStep s port h ch).passPort h ch f
    = if (burstPorts (s.chan h ch.val).active h ch).length ≤ (s.chan h ch.val).passed + 1
      then (Claims.grantStep s port h ch).burst h ch f else Claims.grantStep s port h ch := by
  simp only [State.passPort, chan_grantStep]

theorem burstGrant_leaves : Claims.burstGrant := by
  rintro s port h c f ⟨hruns, hgrant, hsrc, hdst⟩
  change execBurstGrant port f s = _
  simp only [execBurstGrant, hruns, hgrant, beq_eq_false_iff_ne.mpr hsrc, beq_eq_false_iff_ne.mpr hdst, Bool.false_and,
    ite_self, Bool.false_eq_true, if_false]
  exact congrArg _ passPort_grantStep

/-! ### A copying burst from host memory to a bank (R353 to R356, R359) -/

section

variable {x a b : Side} {k lo hi from_ : Nat} {fill : Bool}

/-- Host memory answers with no bus error. -/
theorem sideError_of_host {write : Bool} (hx : x.space = 0) : s.sideError x h write = none := by
  simp only [State.sideError, Side.tierUnit, hx]
  rfl

/-- A burst moves at least one element of the narrower side. -/
theorem lt_burstEnd : from_ < burstEnd fill a b from_ := by
  have hstep : 0 < burstStep fill a b := by
    unfold burstStep Side.w
    split
    · exact Nat.two_pow_pos _
    · exact Nat.lt_min.mpr ⟨Nat.two_pow_pos _, Nat.two_pow_pos _⟩
  exact Nat.lt_of_lt_of_le (Nat.lt_add_of_pos_right hstep) (Nat.le_max_left _ _)

/-- A byte of host memory, with its poison mark. -/
def State.markedByte (s : State) (p : Nat) : Byte × Bool := (tabGet 0 s.host.mem p, tabGet false s.host.poison p)

/-- The bytes of host memory at the places of a side's pattern. -/
def State.hostBytes (s : State) (x : Side) (lo hi : Nat) : List (Byte × Bool) :=
  (List.range (hi - lo)).map (fun i => s.markedByte (x.byte (lo + i)))

theorem sideRead_of_host {got : Option (List Byte × Bool)} (hx : x.space = 0) :
    s.sideRead x h lo hi got = (s.hostBytes x lo hi, s) := by
  simp only [State.sideRead, hx, if_true, List.map_map]
  rfl

/-- Bytes written to a side, each with its place in the side's unit. -/
def Side.writes (x : Side) (lo : Nat) (bytes : List (Byte × Bool)) : List (Nat × (Byte × Bool)) :=
  bytes.zipIdx.map (fun q => (x.byte (lo + q.2), q.1))

theorem writes_hostBytes : b.writes lo (s.hostBytes a lo hi)
    = (List.range (hi - lo)).map (fun i => (b.byte (lo + i), s.markedByte (a.byte (lo + i)))) := by
  apply List.ext_getElem
  · simp only [Side.writes, State.hostBytes, List.length_map, List.length_zipIdx]
  · intro i _ _
    simp only [Side.writes, State.hostBytes, List.getElem_map, List.getElem_zipIdx, List.getElem_range, Nat.zero_add]

/-- The state after bytes written to a bank. -/
def State.bankWrite (s : State) (k : Nat) (ws : List (Nat × (Byte × Bool))) : State :=
  { s with mov := { s.mov with mem := tabPut { bytes := [], poison := [] } s.mov.mem k ((s.unitMem k).write ws) } }

theorem sideWrite_of_bank {prio : Nat} {bytes : List (Byte × Bool)} (hx : x.space = 1) :
    s.sideWrite x h c lo prio bytes = s.bankWrite (x.memNo h) (x.writes lo bytes) := by
  simp only [State.sideWrite, hx]
  rfl

/-- A bank written holds what the write leaves, and every other unit what it held. -/
theorem unitMem_bankWrite {j : Nat} {ws : List (Nat × (Byte × Bool))}
    (hmem : tabWf { bytes := [], poison := [] } s.mov.mem = true) :
    (s.bankWrite k ws).unitMem j = if k = j then (s.unitMem k).write ws else s.unitMem j :=
  tabGet_put hmem

@[simp] theorem bankWrite_host {ws : List (Nat × (Byte × Bool))} : (s.bankWrite k ws).host = s.host := rfl

end

/-! #### The wait at the sync point (R370) -/

@[simp] theorem unitMem_sendFence {k : Nat} : (s.sendFence h).unitMem k = s.unitMem k := rfl
@[simp] theorem sendFence_host : (s.sendFence h).host = s.host := rfl

/-- A channel whose last burst is done waits, behind a fence or none, and nothing of its transfer changes. -/
theorem atSync_cases (s : State) (h : Hub) (c : Nat) : s.atSync h c = s
    ∨ ∃ f, ∃ u : State, (u = s ∨ u = s.sendFence h)
      ∧ s.atSync h c = u.setChan h c { s.chan h c with state := .waiting, fence := f } := by
  unfold State.atSync
  dsimp only
  split
  · exact .inl rfl
  · split
    · exact .inr ⟨_, _, .inr rfl, rfl⟩
    · exact .inr ⟨_, _, .inl rfl, rfl⟩

@[simp] theorem unitMem_atSync {k : Nat} : (s.atSync h c).unitMem k = s.unitMem k := by
  obtain hsame | ⟨f, u, rfl | rfl, hwaits⟩ := atSync_cases s h c
  · rw [hsame]
  · rw [hwaits, unitMem_setChan]
  · rw [hwaits, unitMem_setChan, unitMem_sendFence]

@[simp] theorem atSync_host : (s.atSync h c).host = s.host := by
  obtain hsame | ⟨f, u, rfl | rfl, hwaits⟩ := atSync_cases s h c
  · rw [hsame]
  · rw [hwaits, setChan_host]
  · rw [hwaits, setChan_host, sendFence_host]

/-- The channel's place in its transfer, and what PROGRESS shows of it, stay. -/
theorem chan_atSync : ((s.atSync h c).chan h c).done = (s.chan h c).done
    ∧ ((s.atSync h c).chan h c).progress = (s.chan h c).progress := by
  obtain hsame | ⟨f, u, -, hwaits⟩ := atSync_cases s h c
  · rw [hsame]
    exact ⟨rfl, rfl⟩
  · rw [hwaits, chan_setChan fun hreset => ChanState.noConfusion (congrArg Channel.state hreset)]
    exact ⟨rfl, rfl⟩

/-- A channel that has moved bytes is not as RST_N leaves it. -/
theorem afterBurst_ne_reset {x : Channel} {lo hi g : Nat} {miss : List Nat} {failed poison : Bool} (hhi : lo < hi) :
    x.afterBurst lo hi g miss failed poison ≠ Channel.reset :=
  fun hreset => Nat.ne_zero_of_lt hhi (congrArg Channel.done hreset)

/-- The burst writes the bank and goes on at its sync point: its channel is the one after the bytes it moved. -/
theorem burst_of_hostToBank {f : Bool} (hpre : Claims.Pre.burstMoves s h ch) :
    let x := s.chan h ch.val
    let a := srcOf x.active
    let b := dstOf x.active
    let hi := burstEnd false a b x.done
    let moved := s.hostBytes a x.done hi
    s.burst h ch f
      = ((s.bankWrite (b.memNo h) (b.writes x.done moved)).setChan h ch.val
          (x.afterBurst x.done hi (max (a.touched x.done hi) (b.touched x.done hi)) [] (f && ctrlCheck x.active)
            (moved.any Prod.snd || false))).atSync h ch.val := by
  obtain ⟨hmode, hsrc, hdst, hserves, habort, hhalt, -⟩ := hpre
  unfold State.burst
  simp only [hmode, show ((0 : Nat) == 1) = false from rfl, show ((0 : Nat) != 2) = true from rfl, Nat.zero_ne_one,
    OfNat.zero_ne_ofNat, if_false, hserves, sideError_of_host hsrc, sideRead_of_host hsrc, sideWrite_of_bank hdst]
  refine (if_neg (Bool.eq_false_iff.mp habort)).trans ?_
  exact if_neg (Bool.eq_false_iff.mp hhalt)

theorem burstMoves_leaves : Claims.burstMoves := by
  intro s h c f hpre a b lo hi t
  have hburst := burst_of_hostToBank (f := f) hpre
  obtain ⟨-, -, -, -, -, -, hmem⟩ := hpre
  have hunit (k : Nat) : t.unitMem k = (s.bankWrite (b.memNo h) (b.writes lo (s.hostBytes a lo hi))).unitMem k := by
    rw [show t = _ from hburst, unitMem_atSync, unitMem_setChan]
  have hchan : (t.chan h c.val).done = hi ∧ (t.chan h c.val).progress = BitVec.ofNat 64 hi := by
    rw [show t = _ from hburst, chan_atSync.1, chan_atSync.2, chan_setChan (afterBurst_ne_reset lt_burstEnd)]
    exact ⟨rfl, rfl⟩
  refine ⟨?_, fun k hk => ?_, ?_, hchan⟩
  · rw [hunit, unitMem_bankWrite hmem, if_pos rfl, writes_hostBytes]
    rfl
  · rw [hunit, unitMem_bankWrite hmem, if_neg (Ne.symm hk)]
  · rw [show t = _ from hburst, atSync_host, setChan_host, bankWrite_host]

/-! ### The end of a transfer (R363, R369) -/

/-- A port with no write of a channel out has none to drop and none to mark late. -/
theorem setPort_of_no_writes
    (hnone : s.rg.ports[hub].writes.any (fun w : PortWrite => w.ch == c) = false) :
    let p := s.rg.ports[hub]
    s.setPort hub { p with
      writes := (p.writes.filter (fun w : PortWrite => !(w.ch == c && w.late))).map (fun w : PortWrite =>
        if w.ch = c then { w with late := true } else w) } = s := by
  have hother (w : PortWrite) (hw : w ∈ s.rg.ports[hub].writes) : w.ch ≠ c := by
    simpa using List.any_eq_false.mp hnone w hw
  have hkept : s.rg.ports[hub].writes.filter (fun w : PortWrite => !(w.ch == c && w.late)) = s.rg.ports[hub].writes :=
    List.filter_eq_self.mpr fun w hw => by simp [hother w hw]
  have hsame : s.rg.ports[hub].writes.map (fun w : PortWrite => if w.ch = c then { w with late := true } else w)
      = s.rg.ports[hub].writes :=
    (List.map_congr_left fun w hw => if_neg (hother w hw)).trans (List.map_id' _)
  apply setPort_of_eq
  rw [hkept, hsame]

theorem transferComplete_leaves : Claims.transferComplete := by
  rintro s hub ch f ⟨hruns, hwaiting, hsynced, hwrites, hevent⟩ x last y
  have hacts : ¬ (x.state != ChanState.waiting || !s.synced hub ch.val) = true := by
    rw [show x.state = .waiting from hwaiting, hsynced]
    decide
  have hlast : x.endCode f = last := by
    simp only [Channel.endCode, Bool.and_eq_true, decide_eq_true_eq, and_assoc, last, x]
  change execTransferComplete hub ch f s = _
  unfold execTransferComplete
  rw [if_neg (Bool.eq_false_iff.mp hruns)]
  refine (if_neg hacts).trans (congrArg _ ?_)
  refine (if_neg (Bool.eq_false_iff.mp hevent)).trans ((setPort_of_no_writes ?_).trans ?_)
  · exact hwrites
  · rw [show (s.chan hub ch.val).endCode f = last from hlast]

/-! ### Bus errors (R375, R376) -/

@[simp] theorem event_mov {g : Hub} {e : Event} : (s.event g e).mov = s.mov := by
  unfold State.event
  dsimp only
  split
  · rfl
  · split <;> rfl

/-- Neither a channel of the hub nor an event of it says which channels are held in direct mode. -/
theorem isDirect_setChan_event {x : Channel} {e : Event} {g : Hub} {n : Nat} :
    ((s.setChan h c x).event g e).isDirect h n = s.isDirect h n := by
  unfold State.isDirect
  rw [event_mov, State.setChan, setMovers_mov_self]

/-- The mover address of the element at which a channel's transfer meets a bus error. -/
def Channel.errorAt (x : Channel) (write : Bool) : Nat :=
  let side := if write || ctrlMode x.active = 1 then dstOf x.active else srcOf x.active
  side.base / 2 ^ offBits side.space * 2 ^ offBits side.space + side.byte (min x.done (side.total - 1))

/-- A channel with a transfer halts at once, and host software is told where it holds the channel. -/
theorem haltChan_of_transfer {cause : Nat} {w : Bool} (hbusy : (s.chan h c).state ≠ .idle) :
    let x := s.chan h c
    let u := (s.setChan h c { x with
      err := BitVec.ofNat 64 (x.errorAt w), errInfo := BitVec.ofNat 32 (2 ^ 31 + (if w then 2 ^ 30 else 0) + cause * 2 ^ 26)
      halting := false, state := .halted, passed := 0, asked := none, got := [] }).event h (ev 0x0070 2 (c + cause * 64))
    s.haltChan h c cause w false
      = if s.isDirect h c then
          u.setMovers h { u.mov.hubs[h] with evtHalt := u.mov.hubs[h].evtHalt ||| (1#8 <<< (c - 56)) }
        else u := by
  have hnot : ((s.chan h c).state == ChanState.idle) = false := beq_eq_false_iff_ne.mpr hbusy
  -- Both are hypotheses, so that the kernel compares no number it would have to compute.
  have hzero (n : Nat) : n + 0 = n := Nat.add_zero n
  have hmark (n : Nat) : n + false.toNat * 1024 = n := Nat.add_zero n
  simp only [State.haltChan, hnot, Bool.not_false, Bool.true_or, Bool.not_true, Bool.false_eq_true, if_false, if_true,
    hzero, hmark, isDirect_setChan_event, Channel.errorAt]

theorem busError_leaves : Claims.busError := by
  intro s hub ch cause w hpre
  have hactive : ((s.chan hub ch.val).state == ChanState.running
      || (s.chan hub ch.val).state == ChanState.waiting) = true := by
    simpa using hpre
  have hbusy : (s.chan hub ch.val).state ≠ .idle := by
    rcases hpre with hstate | hstate <;> rw [hstate] <;> decide
  refine ⟨BitVec.ofNat 64 ((s.chan hub ch.val).errorAt w), congrArg Host.Outcome.next ?_⟩
  exact (if_pos hactive).trans (haltChan_of_transfer hbusy)

/-! ### Retirement and direct mode (R378 to R383) -/

theorem channelRetired_leaves : Claims.channelRetired := fun _ _ _ => rfl

theorem movDirectReq_leaves : Claims.movDirectReq := by
  intro s hub v m n
  change Host.Outcome.next (s.directReq hub v) = _
  cases hring : s.ring? 0 with
  | none =>
    simp only [State.directReq, hring, Bool.or_eq_true, Bool.and_eq_true, decide_eq_true_eq, List.isEmpty_iff,
      Option.map_none, Option.getD_none, and_true, apply_ite (s.setMovers hub)]
    rfl
  | some r =>
    simp only [State.directReq, hring, Bool.or_eq_true, Bool.and_eq_true, decide_eq_true_eq, List.isEmpty_iff,
      Option.map_some, Option.getD_some, apply_ite (s.setMovers hub)]
    rfl

theorem directGrant_leaves : Claims.directGrant := by
  rintro s hub n ⟨hwanted, hidle⟩ m
  have hall : (List.range 64).all (fun c => c < 64 - max n.toNat m.directGranted.toNat
      || (s.chan hub c).state == ChanState.idle) = true := by
    rw [List.all_eq_true]
    intro c hc
    rw [Bool.or_eq_true, decide_eq_true_eq, beq_iff_eq]
    exact (Nat.lt_or_ge c _).imp id (hidle c hc)
  change execDirectGrant hub s = _
  simp only [execDirectGrant, hwanted]
  exact if_pos hall

/-- Settles O32: what each command of a mover channel leaves, and which bytes a copying burst writes. -/
theorem moverChannels : Obligations.MoverChannels :=
  ⟨eventPulse_leaves, movLoad_leaves, movAbort_leaves, movResume_leaves, movPrioWrite_leaves, burstGrant_leaves,
   burstMoves_leaves, transferComplete_leaves, busError_leaves, channelRetired_leaves, movDirectReq_leaves,
   directGrant_leaves⟩

/-! ### Registers of channels (R362, R381) -/

section

variable {p : RegPath} {off : BitVec 16} {v : BitVec 32} {r : MovReg}

/-- A write, by a path that reaches the hub, at the offset of a channel's register. -/
theorem exec_registerWrite_of_mov (hopen : s.pathOpen p hub = true) (haligned : off.toNat % 4 = 0)
    (hreg : regHere hub off.toNat = some (.mov c r)) :
    exec (.registerWrite hub p off v) s = .next (s.movRegWrite hub c r v) := by
  change execRegisterWrite hub p off v s = _
  simp only [execRegisterWrite, hopen, haligned, State.regWrite, hreg, Bool.not_true, Bool.false_eq_true, if_false, if_true]
  rfl

end

theorem shadowLate_leaves : Claims.shadowLate := by
  rintro s hub p off v c w ⟨hopen, haligned, hreg, hdirect, hvalid⟩
  rw [exec_registerWrite_of_mov hopen haligned hreg]
  simp only [State.movRegWrite, hdirect, hvalid, Bool.not_true, Bool.false_eq_true, if_false, if_true]

theorem notDirect_leaves : Claims.notDirect := by
  rintro s hub p off v c r ⟨hopen, haligned, hreg, hdirect, hkind⟩
  rw [exec_registerWrite_of_mov hopen haligned hreg]
  obtain ⟨w, rfl⟩ | rfl | rfl := hkind
  · simp only [State.movRegWrite, hdirect, Bool.not_false, if_true]
  · simp only [State.movRegWrite, State.movWrite, hdirect, Bool.false_eq_true, if_false]
  · simp only [State.movRegWrite, State.movPrio, hdirect, Bool.true_beq, Bool.false_eq_true, if_false]

theorem movRead_leaves : Claims.movRead := by
  intro s p hub off c r hreg
  simp only [State.regRead, hreg]
  rfl

/-- Settles O33: what a write of a channel's register changes where it is discarded, and what a read of one changes. -/
theorem shadowWritesOfChannels : Obligations.ShadowWritesOfChannels :=
  ⟨shadowLate_leaves, notDirect_leaves, movRead_leaves⟩

end Sys2Proof.Machine
end

section
/-!
PROOF. Chip-to-chip links (Machine/LinkOps.lean, Machine/Links.lean): the statements O37, O38 and O39. First which states a
test of a link's state names, and the messages, lanes and versions in the words of the claims; then what sending leaves of
a link's session, which the marks of a signal name, and what a query of links gives; each claim's conditions choose one
branch of its command.
-/
namespace Sys2Proof.Machine

variable {s : State} {l : LinkNo}

/-! ### The state of a link (Table 11-4) -/

theorem linkIs_iff {sts : List LState} : s.linkIs l sts = true ↔ s.lnk.links[l].state ∈ sts := by
  simp [State.linkIs]

theorem linkReceives_iff : s.linkReceives l = true ↔ Claims.receives s l := by
  simp [State.linkReceives, linkIs_iff, Claims.receives]

theorem linkIs_running_iff : s.linkIs l [.up, .reduced] = true ↔ Claims.runs s l := by
  simp [linkIs_iff, Claims.runs]

theorem counts_iff {st : LState} : st.counts = true ↔ st = .up ∨ st = .reduced ∨ st = .l1 := by
  cases st <;> simp [LState.counts]

/-! ### Frames (R391 to R394) -/

theorem frame_passes_iff {f : LinkFrame} :
    (f.codewordsOk && f.fcrcOk && f.dcrcOk) = true ↔ Claims.frameGood f := by
  simp [Claims.frameGood, and_assoc]

theorem linkFrameReceive_leaves : Claims.linkFrameReceive := by
  rintro s l f ⟨hreceives, hgood, hseq⟩
  change execLinkFrameReceive l f s = _
  simp only [execLinkFrameReceive, linkReceives_iff.mpr hreceives, frame_passes_iff.mpr hgood, hseq, Bool.not_true,
    Bool.false_eq_true, if_false, ne_eq, not_true_eq_false]
  rfl

theorem linkFrameBad_leaves : Claims.linkFrameBad := by
  rintro s l f ⟨hreceives, hbad⟩
  have hfails : (f.codewordsOk && f.fcrcOk && f.dcrcOk) = false := Bool.eq_false_iff.mpr (mt frame_passes_iff.mp hbad)
  have hexec : exec (.linkFrameReceive l f) s = execLinkFrameReceive l f s := rfl
  simp only [execLinkFrameReceive, linkReceives_iff.mpr hreceives, hfails, Bool.not_true, Bool.not_false,
    Bool.false_eq_true, if_false, if_true] at hexec
  exact ⟨_, hexec⟩

theorem linkFrameOther_leaves : Claims.linkFrameOther := by
  rintro s l f ⟨hreceives, hgood, hseq⟩
  change execLinkFrameReceive l f s = _
  simp only [execLinkFrameReceive, linkReceives_iff.mpr hreceives, frame_passes_iff.mpr hgood, hseq, Bool.not_true,
    Bool.false_eq_true, if_false, if_true, ne_eq, not_false_eq_true, ← decide_not, not_lt]
  rfl

theorem linkResend_leaves : Claims.linkResend := by
  rintro s l ⟨hreceives, hnak⟩ k
  change execLinkResend l s = _
  simp only [execLinkResend, linkReceives_iff.mpr hreceives, hnak, Bool.not_true, Bool.or_self, Bool.false_eq_true,
    if_false, List.any_eq_true, decide_eq_true_eq, List.length_map]
  exact (apply_ite Host.Outcome.next _ _ _).symm

/-! ### Retraining and training (R395, R400) -/

theorem linkRetrainDone_leaves : Claims.linkRetrainDone := by
  intro s l hretrain k u
  have hstate : (k.state != .retrain) = false := bne_eq_false_iff_eq.mpr hretrain
  constructor
  · change execLinkRetrainDone l true s = _
    simp only [execLinkRetrainDone, k, hstate, Bool.false_eq_true, if_false, if_true]
  · change execLinkRetrainDone l false s = _
    simp only [execLinkRetrainDone, k, hstate, Bool.false_eq_true, if_false, Nat.reduceLeDiff]
    rfl

theorem linkTrained_leaves : Claims.linkTrained := by
  rintro s l lanes ⟨htraining, hthree⟩ k ok
  have hlength : 3 ≤ ok.length := (le_min (by decide) hthree).trans_eq List.length_take.symm
  have hstays : ¬ (k.state != .training || decide (ok.length < 3)) = true := by
    simp [show k.state = .training from htraining, hlength]
  exact if_neg hstays

theorem trainingRetry_leaves : Claims.trainingRetry := by
  rintro s l ⟨htraining, hdue⟩
  change execTrainingRetry l s = _
  simp only [execTrainingRetry, htraining, hdue, beq_self_eq_true, decide_true, Bool.and_self, if_true]

/-! ### Lanes (R396 to R398) -/

/-- A lane of the rotation leaves it without a spare that could take its place: none is unused or in training. -/
theorem no_spare_iff {k : Link} : (!(k.spareState == 0 || k.spareState == 1)) = true ↔ 2 ≤ k.spareState := by
  simp only [Bool.not_eq_true', Bool.or_eq_false_iff, beq_eq_false_iff_ne]
  omega

theorem toNat_mul_eight {b : Bool} : b.toNat * 8 = if b then 8 else 0 := by
  cases b <;> rfl

/-- The event and the test of a lane that has gone bad (R396). -/
def State.laneReported (s : State) (l : LinkNo) (lane : Nat) (lost : Bool) : State :=
  (s.event (linkHub l) (evU 0x0051 1 10 l.val (lane + if lost then 8 else 0))).sendTest
    { hub := l.val / 8, kind := 10, index := l.val, sub := lane } 6

theorem laneGoesBad_of_rotation {lane : Nat} {lost : Bool} (hgood : lane ∉ s.lnk.links[l].bad)
    (hmap : lane ∈ s.lnk.links[l].map) :
    let k := s.lnk.links[l]
    let v := (s.laneReported l lane lost).setLink l { k with
      bad := k.bad ++ [lane]
      map := if lost = true ∨ 2 ≤ k.spareState then k.map.erase lane else k.map
      spareState := if k.spareState = 0 then 1 else if k.spareState = 2 then 3 else k.spareState }
    s.laneGoesBad l lane lost
      = (if k.spareState = 0 ∧ v.lowerEnd l = true then v.sendMsg l (lmsg 3 0 (BitVec.ofNat 64 k.spare)) else v).linkByLanes l := by
  intro k v
  simp only [State.laneGoesBad, hgood, hmap, toNat_mul_eight, if_false, if_true, Bool.or_eq_true, Bool.and_eq_true, beq_iff_eq,
    no_spare_iff]
  rfl

theorem laneGoesBad_of_spare {lane : Nat} {lost : Bool} (hgood : lane ∉ s.lnk.links[l].bad)
    (hmap : lane ∉ s.lnk.links[l].map) :
    let k := s.lnk.links[l]
    s.laneGoesBad l lane lost = (s.laneReported l lane lost).setLink l { k with
      bad := k.bad ++ [lane], spareState := if lane = k.spare then 3 else k.spareState } := by
  simp only [State.laneGoesBad, hgood, hmap, toNat_mul_eight, if_false]
  rfl

theorem laneBad_leaves : Claims.laneBad := by
  rintro s l lane lost ⟨hgood, hcause⟩ k u
  change execLaneBad l lane lost s = _
  simp only [execLaneBad, Bool.or_eq_true, hcause, if_true]
  by_cases hmap : lane.val ∈ k.map
  · rw [if_pos hmap]
    exact congrArg _ (laneGoesBad_of_rotation hgood hmap)
  · rw [if_neg hmap]
    exact congrArg _ (laneGoesBad_of_spare hgood hmap)

theorem laneBer_leaves : Claims.laneBer := by
  intro s l lane hber
  change execLaneBad l lane false s = _
  simp only [execLaneBad, hber, Bool.or_self, Bool.false_eq_true, if_false]

theorem laneCtrl_leaves : Claims.laneCtrl := by
  rintro s l arg ⟨hruns, hspare⟩ k
  change execLaneCtrl l arg s = _
  simp only [execLaneCtrl, linkIs_running_iff.mpr hruns, hspare, Bool.not_true, ne_eq, not_true_eq_false, decide_false,
    Bool.or_self, Bool.false_eq_true, if_false]
  exact (apply_ite Host.Outcome.next _ _ _).symm

theorem spareLaneTrained_leaves : Claims.spareLaneTrained := by
  rintro s l ⟨hspare, hlocal⟩ k
  change execSpareLaneTrained l s = _
  have hacts : ¬ (decide (k.spareState ≠ 1) || k.localTrained) = true := by
    rw [show k.spareState = 1 from hspare, show k.localTrained = false from hlocal]
    decide
  exact if_neg hacts

/-- Settles O37: what frames, resends, lanes and training leave of a link. -/
theorem linkFramesAndLanes : Obligations.LinkFramesAndLanes :=
  ⟨linkFrameReceive_leaves, linkFrameBad_leaves, linkFrameOther_leaves, linkResend_leaves, linkRetrainDone_leaves,
   laneBad_leaves, laneBer_leaves, laneCtrl_leaves, spareLaneTrained_leaves, linkTrained_leaves, trainingRetry_leaves⟩

/-! ### HELLO and versions (R399, R405, R411) -/

theorem hello_leaves : Claims.hello := by
  rintro s l data ⟨hstate, hsession⟩
  have hnew : ((s.lnk.links[l].peer.map PeerHello.session) == some (helloOf data).session) = false := by
    simpa using hsession
  change execHello l data s = _
  simp only [execHello, linkReceives_iff.mpr (.inl hstate), hnew, hstate, Bool.false_and, Bool.not_true,
    Bool.false_eq_true, if_false, beq_self_eq_true, if_true]

/-- A minor under caps is the least of the minor and of the caps that are not 0xFF. -/
theorem capped_isLeast {m : Nat} {caps : List Nat} :
    capped m caps ∈ m :: caps.filter (fun c => c ≠ 0xFF) ∧ ∀ c ∈ m :: caps.filter (fun c => c ≠ 0xFF), capped m caps ≤ c :=
  List.min?_eq_some_iff.mp List.min?_cons'

theorem capped_le {m : Nat} {caps : List Nat} : capped m caps ≤ m :=
  capped_isLeast.2 m List.mem_cons_self

theorem capped_le_cap {m c : Nat} {caps : List Nat} (hc : c ∈ caps) (h : c ≠ 0xFF) : capped m caps ≤ c :=
  capped_isLeast.2 c (List.mem_cons_of_mem m (List.mem_filter.mpr ⟨hc, by simpa using h⟩))

theorem capped_eq_or_mem {m : Nat} {caps : List Nat} : capped m caps = m ∨ capped m caps ∈ caps :=
  (List.mem_cons.mp capped_isLeast.1).imp_right List.mem_of_mem_filter

section

variable {cap : Nat} {p : PeerHello}

theorem versions_of_major_zero (h : p.major = 0) : versions cap p = none := by
  simp [versions, h]

theorem versions_of_higher_major (h : 2 ≤ p.major.toNat) :
    versions cap p = if p.compat.toNat ≤ 1 then some (1, capped 3 [cap, p.minorCap.toNat]) else none := by
  have hone : p.major ≠ 1 := by
    rintro e
    simp [e] at h
  simp only [versions, if_neg hone, if_pos (show 1 < p.major.toNat from h)]

theorem versions_of_same_major (h : p.major = 1) :
    versions cap p = some (1, capped (min 3 p.minorMax.toNat) [cap, p.minorCap.toNat]) :=
  if_pos h

end

theorem helloVersions_holds : Claims.helloVersions := by
  refine fun cap p => ⟨versions_of_major_zero, fun hmajor hcompat => ?_, fun hmajor hcompat => ?_, fun hmajor => ?_⟩
  · exact ⟨_, capped_le, (versions_of_higher_major hmajor).trans (if_pos hcompat)⟩
  · exact (versions_of_higher_major hmajor).trans (if_neg (Nat.not_le.mpr hcompat))
  · have hle := capped_le (m := min 3 p.minorMax.toNat) (caps := [cap, p.minorCap.toNat])
    refine ⟨_, versions_of_same_major hmajor, hle.trans (min_le_left _ _), hle.trans (min_le_right _ _),
      capped_le_cap (by simp), fun hcap => capped_le_cap (by simp) (fun e => hcap (BitVec.eq_of_toNat_eq e)), ?_⟩
    rcases capped_eq_or_mem (m := min 3 p.minorMax.toNat) (caps := [cap, p.minorCap.toNat]) with h | h
    · rcases min_choice 3 p.minorMax.toNat with hmin | hmin
      · exact .inl (h.trans hmin)
      · exact .inr (.inl (h.trans hmin))
    · exact .inr (.inr (by simpa using h))

/-! ### Grants (R402) -/

theorem grant_leaves : Claims.grant := by
  rintro s l arg p ⟨hstate, hp⟩ u
  have hcarries : s.linkIs l [.hello, .up, .reduced] = true := linkIs_iff.mpr (by simpa [Claims.runs] using hstate)
  change execGrant l arg s = _
  simp only [execGrant, hcarries, hp, Bool.not_true, Bool.false_eq_true, if_false]
  rfl

/-! ### Remote signals (R407 to R409) -/

theorem remoteSignal_leaves : Claims.remoteSignal := by
  rintro s l addr arg marks p ⟨hruns, hp, hraised, htakes⟩ n x
  change execRemoteSignal l addr arg marks s = _
  simp only [execRemoteSignal, linkIs_running_iff.mpr hruns, hp, hraised, htakes, Bool.not_true, Bool.false_eq_true,
    if_false]
  rfl

theorem remoteSignalOnce_leaves : Claims.remoteSignalOnce := by
  rintro s l addr arg marks p ⟨hp, hraised⟩
  change execRemoteSignal l addr arg marks s = _
  simp only [execRemoteSignal, hp, hraised, if_true, ite_self]

theorem signalTimeout_leaves : Claims.signalTimeout := by
  rintro s x t ⟨hx, hdue, ht⟩
  change execSignalTimeout x.number s = _
  simp only [execSignalTimeout, hx, if_neg (Nat.not_lt.mpr hdue), ht]

/-! ### A message sent keeps the session (R394, R399, R408) -/

/-- Frames made of messages that wait change neither the state of a link nor its session. -/
theorem pump_keeps_session {k : Link} : k.pump.state = k.state ∧ k.pump.session = k.session := by
  refine List.foldlRecOn _ _ (motive := fun a : Link × Bool => a.1.state = k.state ∧ a.1.session = k.session) ⟨rfl, rfl⟩
    (fun a ha m _ => ?_)
  dsimp only
  split <;> exact ha

/-- Every link of two states runs the same session in the same state. -/
def sameSessions (s t : State) : Prop :=
  ∀ l : LinkNo, t.lnk.links[l].state = s.lnk.links[l].state ∧ t.lnk.links[l].session = s.lnk.links[l].session

theorem setLink_lnk_ne {j : LinkNo} {k : Link} (h : j ≠ l) : (s.setLink l k).lnk.links[j] = s.lnk.links[j] :=
  Vector.getElem_set_ne l.isLt j.isLt (fun e => h (Fin.ext e.symm))

theorem sameSessions_setLink {k : Link} (hstate : k.state = s.lnk.links[l].state)
    (hsession : k.session = s.lnk.links[l].session) : sameSessions s (s.setLink l k) := by
  intro j
  by_cases h : j = l
  · rw [h, setLink_lnk_self]
    exact ⟨hstate, hsession⟩
  · rw [setLink_lnk_ne h]
    exact ⟨rfl, rfl⟩

theorem sameSessions_sendMsg {m : LMsg} : sameSessions s (s.sendMsg l m) :=
  sameSessions_setLink pump_keeps_session.1 pump_keeps_session.2

theorem sameSessions_moveWrites {n : Nat} : sameSessions s (s.moveWrites n l) :=
  List.foldlRecOn _ _ (motive := sameSessions s) (fun _ => ⟨rfl, rfl⟩) (fun _ hu _ _ j =>
    ⟨(sameSessions_sendMsg j).1.trans (hu j).1, (sameSessions_sendMsg j).2.trans (hu j).2⟩)

/-- A mark lives as long as its link's session does. -/
theorem markLives_of_sameSessions {t : State} {m : BitVec 64} (h : sameSessions s t) : t.markLives m = s.markLives m := by
  obtain ⟨hstate, hsession⟩ := h (Fin.ofNat 32 (bitsOf m.toNat 7 0))
  simp only [State.markLives, hstate, hsession]

/-- The link after any other of a bundle of one is that one. -/
theorem nextLink_singleton {n : Nat} : nextLink [l] n = some l := by
  by_cases h : n < l.val <;> simp [nextLink, h]

theorem signalResend_leaves : Claims.signalResend := by
  rintro s x d l0 ⟨hx, hmarks, hdead, hbundle⟩
  have hstays : (s.moveWrites (bitsOf d.toNat 7 0) l0).markLives d = false :=
    (markLives_of_sameSessions sameSessions_moveWrites).trans hdead
  refine ⟨_, rfl, ?_⟩
  change execSignalResend x.number s = _
  simp [execSignalResend, hx, hmarks, hdead, hbundle, nextLink_singleton, hstays]

/-! ### The power state L1 (R416) -/

theorem linkL1Entry_leaves : Claims.linkL1Entry := by
  rintro s l ⟨hruns, hminor, hset, hidle, hqueue, hunacked⟩ k
  change execLinkL1Entry l s = _
  have hdue : (s.linkIs l [.up, .reduced] && decide (2 ≤ k.minor) && (decide (0 < k.l1Us)
      && decide (k.l1Us * 156250 ≤ (s.tick - k.idleSince) * 1000)) && k.queue.isEmpty && k.unacked.isEmpty) = true := by
    simp only [linkIs_running_iff.mpr hruns, k, hminor, hset, hidle, hqueue, hunacked, decide_true, Bool.and_self,
      List.isEmpty_nil]
  have hflag : k.unacked ++ [⟨k.txSeq, none, 0, 0, false, true⟩] = [⟨k.txSeq, none, 0, 0, false, true⟩] := by
    rw [show k.unacked = [] from hunacked, List.nil_append]
  refine (if_pos hdue).trans ?_
  rw [Link.flag, hflag]

theorem linkL1Wake_leaves : Claims.linkL1Wake := by
  intro s l hl1 u
  change execLinkL1Wake l s = _
  have hstate : (s.lnk.links[l].state != .l1) = false := bne_eq_false_iff_eq.mpr hl1
  simp only [execLinkL1Wake, hstate, Bool.false_eq_true, if_false]
  rfl

/-- Settles O38: what HELLO, grants, remote signals and the L1 state leave of a link and of what it carries. -/
theorem peersGrantsAndSignals : Obligations.PeersGrantsAndSignals :=
  ⟨hello_leaves, helloVersions_holds, grant_leaves, remoteSignal_leaves, remoteSignalOnce_leaves, signalResend_leaves,
   signalTimeout_leaves, linkL1Entry_leaves, linkL1Wake_leaves⟩

/-! ### LINK_QUERY (R414, Table 11-12) -/

/-- A link's record takes 64 bytes, whatever is known of its peer. -/
theorem length_linkRecord : (s.linkRecord l).1.length = 64 := by
  simp only [State.linkRecord]
  cases s.lnk.links[l].peer with
  | none => simp
  | some p =>
    simp only [Option.bind_some]
    cases (s.fresh 144).2.peer? p.pkg <;> simp

/-- The records of some links in order, and the state that their free values leave. -/
def State.linkRecords (s : State) (ls : List LinkNo) : List Byte × State :=
  ls.foldl (fun a l => (a.1 ++ (a.2.linkRecord l).1, (a.2.linkRecord l).2)) ([], s)

/-- Each record appended takes 64 bytes, and only the count of free values advances. -/
theorem linkRecords_spec {ls : List LinkNo} :
    (s.linkRecords ls).1.length = 64 * ls.length ∧ ∃ n, (s.linkRecords ls).2 = { s with freeCount := n } := by
  induction ls using List.reverseRecOn with
  | nil => exact ⟨rfl, _, rfl⟩
  | append_singleton ls l ih =>
    obtain ⟨hlen, n, hstate⟩ := ih
    have happ : s.linkRecords (ls ++ [l])
        = ((s.linkRecords ls).1 ++ ((s.linkRecords ls).2.linkRecord l).1, ((s.linkRecords ls).2.linkRecord l).2) :=
      List.foldl_concat ..
    rw [happ]
    refine ⟨?_, n + 1, ?_⟩
    · simp only [List.length_append, hlen, length_linkRecord, List.length_singleton, Nat.mul_add]
    · rw [hstate]
      rfl

theorem exec_linkQuery_of_accepts {d : Desc} (h : Claims.accepts s d (linkQuerySpec d) = true) :
    let r := s.linkRecords ((List.range (d.f 133 128)).map (fun i => Fin.ofNat 32 (d.f 69 64 + i)))
    exec (.linkQuery d) s = .next (r.2.complete d.ticket
      { status := 0, result := BitVec.ofNat 64 (d.f 133 128), xbytes := r.1 }) := by
  simp only [State.linkRecords, List.foldl_map]
  exact congrArg _ (withDesc_of_accepts h)

theorem linkQuery_leaves : Claims.linkQuery := by
  intro s d hacc
  obtain ⟨hlen, n, hstate⟩ := linkRecords_spec (s := s)
    (ls := (List.range (d.f 133 128)).map (fun i => Fin.ofNat 32 (d.f 69 64 + i)))
  refine ⟨n, _, hlen.trans (by simp), (exec_linkQuery_of_accepts hacc).trans ?_⟩
  rw [hstate]

/-! ### The commands of one link, and the cap (R400, R413, R415) -/

theorem linkSetCap_leaves : Claims.linkSetCap := by
  rintro s d ⟨hacc, hsilent⟩
  refine endsOk_of_accepts hacc rfl ?_
  have hskips (l : LinkNo) : (!s.linkReceives l) = true := by rw [hsilent l]; rfl
  exact congrArg (State.complete · d.ticket { status := 0, result := s.lnk.cap.setWidth 64 })
    (List.foldl_fixed' (fun l => if_pos (hskips l)) _)

theorem linkDisable_leaves : Claims.linkDisable := fun _ _ hacc => endsOk_of_accepts hacc rfl rfl

theorem linkEnable_leaves : Claims.linkEnable := by
  intro s d hacc st
  refine endsOk_of_accepts hacc rfl ?_
  simp only [linkIs_iff, Bool.or_eq_true, Bool.and_eq_true, bne_iff_ne, List.mem_cons, List.not_mem_nil, or_false, or_assoc]
  rfl

theorem linkRetrain_leaves : Claims.linkRetrain := by
  intro s d hacc st
  refine congrArg Host.Outcome.next ((withDesc_of_accepts hacc).trans ?_)
  simp only [counts_iff]
  rfl

/-- Settles O39: what the five admin commands of links leave where their descriptors are accepted. -/
theorem linkAdminCommands : Obligations.LinkAdminCommands :=
  ⟨linkQuery_leaves, linkSetCap_leaves, linkDisable_leaves, linkEnable_leaves, linkRetrain_leaves⟩

end Sys2Proof.Machine
end

section
/-!
PROOF. Collectives (Machine/GroupOps.lean, Machine/CollOps.lean, Machine/Collectives.lean): the statements O40 and O41.
First what a member table that passes R419 says and the group it makes; then the commands that join a group, which of its
collectives starts next, and what messages, timeouts and seals do. The conditions of each claim choose one branch of its
command; what takes an argument of its own is the lowest COLL_SEQ and the reasons a step is skipped for.
-/
namespace Sys2Proof.Machine

variable {s : State} {g : Group} {c : Coll} {d : Desc} {l : LinkNo} {m : CollMsg}

/-! ### Groups found -/

theorem group_slot {n : Nat} (hg : s.group? n = some g) : g.slot = n := by
  simpa using List.find?_some hg

theorem group_of_group {n : Nat} (hg : s.group? n = some g) : s.group? g.slot = some g := by
  rwa [group_slot hg]

/-! ### Member tables (R418, R419) -/

theorem leValue_lt (l : List Byte) : leValue l < 256 ^ l.length := by
  induction l with
  | nil => simp [leValue]
  | cons b bs ih =>
    have hb : b.toNat < 256 := b.isLt
    rw [leValue, List.length_cons, Nat.pow_succ]
    omega

theorem hostNum_lt {a n : Nat} : s.hostNum a n < 256 ^ n := by
  have hlt := leValue_lt (s.hostRead a n)
  rwa [State.hostRead, List.length_map, List.length_range] at hlt

theorem le_and_mem_of_not_tableBad {d1 d2 split : Nat} {members : List (BitVec 64)} (h : tableBad d1 d2 split members = false) :
    d1 + d2 ≤ 34 ∧ Config.packageId ∈ members := by
  simp only [tableBad, Bool.or_eq_false_iff, decide_eq_false_iff_not, not_lt, Bool.not_eq_false',
    List.contains_eq_mem, decide_eq_true_eq] at h
  obtain ⟨⟨⟨⟨⟨⟨-, -⟩, hsum⟩, -⟩, -⟩, -⟩, -⟩ := h.1
  exact ⟨hsum, h.2⟩

theorem pkg_rank_of_findIdx {p : BitVec 64} (h : p ∈ g.members) (hr : g.rank = g.members.findIdx (fun q => q == p)) :
    g.pkg g.rank = p := by
  have hlt : g.members.findIdx (fun q => q == p) < g.members.length := List.findIdx_lt_length_of_exists ⟨p, h, by simp⟩
  rw [Group.pkg, hr, List.getD_eq_getElem _ _ hlt]
  simpa using List.findIdx_getElem (w := hlt)

/-- The packages that the member table of a GROUP_CREATE names (R419). -/
def State.tableMembers (s : State) (d : Desc) : List (BitVec 64) :=
  (List.range (s.hostNum (d.f 191 128 + 8) 2 * s.hostNum (d.f 191 128 + 10) 2)).map
    (fun i => BitVec.ofNat 64 (s.hostNum (d.f 191 128 + 64 + 8 * i) 8))

/-- The group that begins to form from the member table of a GROUP_CREATE (R418, R419). -/
def State.tableGroup (s : State) (d : Desc) : Group :=
  let a := d.f 191 128
  { slot := d.f 67 64, state := .forming, ctx := d.f 91 80, ticket := some d.ticket, since := s.tick
    timeoutMs := if d.f 111 96 = 0 then 10000 else d.f 111 96, key := BitVec.ofNat 64 (s.hostNum a 8)
    d1 := s.hostNum (a + 8) 2, d2 := s.hostNum (a + 10) 2, split := s.hostNum (a + 12) 4
    seedLo := BitVec.ofNat 64 (s.hostNum (a + 16) 8), seedHi := BitVec.ofNat 64 (s.hostNum (a + 24) 8)
    members := s.tableMembers d, rank := (s.tableMembers d).findIdx (fun p => p == Config.packageId)
    digest := digestRange (s.hostSlice a (64 + 8 * (s.hostNum (a + 8) 2 * s.hostNum (a + 10) 2))) 0
      (64 + 8 * (s.hostNum (a + 8) 2 * s.hostNum (a + 10) 2))
    minor := 0, round1 := [], round2 := [], sent1 := [], sent2 := [], seen := [], lastStarted := 0, colls := [], early := []
    openStep := none, sealedSteps := [], pend := [], aborted := [] }

theorem tableOk_iff : Claims.tableOk s d = true ↔
    tableBad (s.hostNum (d.f 191 128 + 8) 2) (s.hostNum (d.f 191 128 + 10) 2) (s.hostNum (d.f 191 128 + 12) 4)
      (if s.hostNum (d.f 191 128 + 8) 2 + s.hostNum (d.f 191 128 + 10) 2 ≤ 34 then s.tableMembers d else []) = false :=
  Iff.of_eq (Bool.not_eq_true' _)

theorem groupCreate_leaves : Claims.groupCreate := by
  rintro s d ⟨hacc, hctx, htable, hfree⟩
  have hok := tableOk_iff.mp htable
  obtain ⟨hsmall, hmem⟩ := le_and_mem_of_not_tableBad hok
  rw [if_pos hsmall] at hok hmem
  have hknown : (s.ctx? (d.f 91 80)).isNone = false := by simpa using hctx
  have hexec : exec (.groupCreate d) s = .next ((State.takeForms { s with groups := s.groups ++ [s.tableGroup d] }
      (s.tableGroup d)).pumpForm (d.f 67 64)) := by
    refine congrArg Host.Outcome.next ((withDesc_of_accepts hacc).trans ?_)
    simp only [decide_eq_true_eq, if_pos hsmall, hknown, hfree, Option.isSome_none, Bool.false_eq_true, if_false]
    exact if_neg (Bool.eq_false_iff.mp hok)
  exact ⟨s.tableGroup d, hexec, rfl, rfl, rfl, rfl, rfl, rfl, rfl, rfl, rfl, Nat.mod_eq_of_lt hostNum_lt,
    (List.length_map ..).trans List.length_range, hmem, pkg_rank_of_findIdx hmem rfl, rfl, rfl, rfl, rfl, rfl⟩

theorem groupDestroy_leaves : Claims.groupDestroy := by
  rintro s d g ⟨hacc, hgroup, hcolls, hticket⟩
  refine ⟨Config.freeValue 64 s.freeCount, endsOk_of_accepts hacc rfl ?_⟩
  simp only [hgroup, State.destroyGroup, hcolls, hticket, List.foldl_nil]
  rfl

theorem groupQuery_leaves : Claims.groupQuery := fun _ _ hacc =>
  ⟨_, congrArg Host.Outcome.next (withDesc_of_accepts hacc)⟩

/-! ### Commands that join a group (R425, R426) -/

theorem plainColl_of_taken {opcode : Nat} (h : Claims.collTaken s d opcode c g) :
    s.plainColl d d.ticket opcode = s.joinColl g c := by
  obtain ⟨hformat, hsource, hgroup⟩ := h
  simp only [State.plainColl, hformat, hsource, hgroup, Bool.not_true, Bool.false_eq_true, if_false]

/-- A command whose descriptor is accepted and whose collective is taken joins its group (R425, R426). -/
theorem joins_of_taken {i : Instr} {x : DescSpec} {opcode : Nat} (hacc : Claims.accepts s d x = true)
    (hexec : exec i s = .next (s.withDesc d x (fun t u => u.plainColl d t opcode)))
    (htaken : Claims.collTaken s d opcode c g) : exec i s = .next (s.joinColl g c) :=
  hexec.trans (congrArg _ ((withDesc_of_accepts hacc).trans (plainColl_of_taken htaken)))

theorem allReduce_leaves : Claims.allReduce := fun _ _ _ _ ⟨hacc, htaken⟩ => joins_of_taken hacc rfl htaken
theorem reduceScatter_leaves : Claims.reduceScatter := fun _ _ _ _ ⟨hacc, htaken⟩ => joins_of_taken hacc rfl htaken
theorem allGather_leaves : Claims.allGather := fun _ _ _ _ ⟨hacc, htaken⟩ => joins_of_taken hacc rfl htaken
theorem updateSeal_leaves : Claims.updateSeal := fun _ _ _ _ ⟨hacc, htaken⟩ => joins_of_taken hacc rfl htaken

@[simp] theorem collOf_ctx {opcode ctx : Nat} {t : Ticket} : (collOf d opcode t ctx).ctx = ctx := rfl
@[simp] theorem collOf_seq {opcode ctx : Nat} {t : Ticket} :
    (collOf d opcode t ctx).seq = BitVec.ofNat 32 (d.f 255 224) := rfl
@[simp] theorem collOf_f {opcode ctx hi lo : Nat} {t : Ticket} : (collOf d opcode t ctx).f hi lo = d.f hi lo := rfl
@[simp] theorem collOf_p {opcode ctx off len : Nat} {t : Ticket} :
    (collOf d opcode t ctx).p off len = bitsOf d.payload.toNat (8 * (off + len) - 1) (8 * off) := rfl

theorem permute_leaves : Claims.permute := by
  rintro s d g hs ⟨hacc, hgroup, hnamed, hrest⟩
  have hfate : (hs.filterMap id).any (fun h : Handle => h.fate != .stash || !h.perms.mutable) = false :=
    List.any_eq_false.mpr (fun h hh => by simp [hrest h hh])
  have hstate : (hs.filterMap id).any (fun h : Handle => h.state != .resident && h.state != .migrating) = false :=
    List.any_eq_false.mpr (fun h hh => by simp [hrest h hh])
  have hread : (hs.filterMap id).any
      (fun h : Handle => !(List.range (stripeCount h.shape.size)).all (s.stripeReadable h)) = false :=
    List.any_eq_false.mpr (fun h hh => by
      obtain ⟨-, -, -, -, -, hstripes, -⟩ := hrest h hh
      simp only [hstripes, Bool.not_true, Bool.false_eq_true, not_false_eq_true])
  have hidle : (hs.filterMap id).any
      (fun h : Handle => h.mig.isSome || 0 < h.readers || s.hasPending h.key || s.permuting h.key) = false :=
    List.any_eq_false.mpr (fun h hh => by simp [hrest h hh])
  refine congrArg Host.Outcome.next ((withDesc_of_accepts hacc).trans ?_)
  simp only [State.permute, collOf_f, collOf_ctx, collOf_seq, collOf_p, hgroup, hnamed, hfate, hstate, hread, hidle,
    Bool.false_eq_true, if_false]

theorem reduceUpdate_leaves : Claims.reduceUpdate := by
  rintro s d c g hs ⟨hacc, ⟨hformat, hsource, hgroup⟩, hopen, hunsealed, hnamed, hfit, hrest⟩
  have hstep : (g.openStep.any (fun x => x ≠ c.step)) = false := by
    rcases hopen with h | h <;> simp [h]
  intro l
  refine congrArg Host.Outcome.next ((withDesc_of_accepts hacc).trans ?_)
  simp only [State.reduceUpdate, hformat, hsource, hgroup, hstep, hunsealed, hnamed, hfit, hrest, Bool.not_true,
    Bool.false_eq_true, if_false]
  rfl

theorem reduceUpdateStep_leaves : Claims.reduceUpdateStep := by
  rintro s d c g ⟨hacc, ⟨hformat, hsource, hgroup⟩, hclosed⟩
  have hstep : (g.openStep.any (fun x => x ≠ c.step)) = true ∨ c.step ∈ g.sealedSteps :=
    hclosed.imp_left (fun ⟨x, hx, hne⟩ => by simp [hx, hne])
  refine congrArg Host.Outcome.next ((withDesc_of_accepts hacc).trans ?_)
  simp only [State.reduceUpdate, hformat, hsource, hgroup, Bool.not_true, Bool.false_eq_true, if_false]
  exact if_pos (by simpa using hstep)

/-! ### Which collective starts (R426, R447, R615) -/

theorem pumpColls_of_shutting {slot : Nat} (h : s.shutting = true) : s.pumpColls slot = s := if_pos h

theorem joinColl_leaves : Claims.joinColl := by
  rintro s g c ⟨hshut, hreads, hlive⟩
  have hfound : g.aborted.find? (fun a => a.1 == c.seq) = none := by simpa using hlive
  simp only [State.joinColl, hreads, List.foldl_nil, hfound]
  exact pumpColls_of_shutting hshut

/-- The collective that starts next is the lowest of those that wait, in a READY group that has room for it (R426, R447). -/
theorem argmin_of_next (h : g.next = some c) :
    c ∈ (g.colls.filter (fun x : Coll => !x.started)).argmin (fun x => x.seq.toNat)
      ∧ g.state = .ready ∧ (g.colls.filter Coll.started).length < 8
      ∧ (c.opcode = 0x45 → ∀ x ∈ g.colls, ¬ x.seq < c.seq) := by
  simp only [Group.next] at h
  split at h
  · simp at h
  · rename_i x hfirst
    have hlow : x ∈ (g.colls.filter (fun x : Coll => !x.started)).argmin (fun x => x.seq.toNat) := by
      rw [Option.mem_def, ← hfirst, List.argmin]
      congr 1
      funext a y
      cases a with
      | none => rfl
      | some b => simp only [List.argAux, BitVec.lt_def]
    simp only [Option.ite_none_left_eq_some, Option.some.injEq] at h
    obtain ⟨hmay, hseal, rfl⟩ := h
    simp only [Bool.or_eq_true, bne_iff_ne, decide_eq_true_eq, not_or, not_not, not_le] at hmay
    simp only [Bool.and_eq_true, decide_eq_true_eq, List.any_eq_true, not_and, not_exists] at hseal
    exact ⟨hlow, hmay.1, hmay.2, hseal⟩

theorem startOrder_holds : Claims.startOrder := by
  intro g c hnext
  obtain ⟨hlow, hready, hroom, hseal⟩ := argmin_of_next hnext
  obtain ⟨hmem, hwaits⟩ := List.mem_filter.mp (List.argmin_mem hlow)
  refine ⟨hmem, by simpa using hwaits, hready, hroom, fun x hx hxwaits => ?_, fun hop x hx => ?_⟩
  · exact List.le_of_mem_argmin (List.mem_filter.mpr ⟨hx, by simp [hxwaits]⟩) hlow
  · exact BitVec.not_lt.mp (hseal hop x hx)

/-- Settles O40: where their descriptors are accepted the commands of groups leave what the claims say, the others join their
group, and the collective that starts is the lowest of those that wait. -/
theorem groupsAndSlabCollectives : Obligations.GroupsAndSlabCollectives :=
  ⟨groupCreate_leaves, groupDestroy_leaves, groupQuery_leaves, allReduce_leaves, reduceScatter_leaves, allGather_leaves,
   updateSeal_leaves, joinColl_leaves, startOrder_holds, permute_leaves⟩

/-! ### Sums (R431, R433) -/

theorem slabTotal_holds : Claims.slabTotal := by
  intro s g c j ls poison x howner hnew hheld
  have hgoes : ¬ (decide (g.owner x ≠ g.rank) || decide (j ∈ c.totals)) = true := by simp [howner, hnew]
  simp only [State.total]
  rw [if_neg hgoes, hheld]

theorem sumOrder_holds : Claims.sumOrder := fun _ _ _ => ⟨rfl, rfl, rfl, rfl⟩

/-! ### Messages (R421, R424, R427, R438) -/

theorem takeColl_of_sender {r : Nat} {x : Option SealRecord} (hsender : s.sender l m = some (g, r))
    (hwhole : g.state ≠ .broken) :
    s.takeColl l m x = (s.collTake g.slot { rank := r, msg := m, record := x }).pumpColls g.slot := by
  simp only [State.takeColl, hsender, beq_eq_false_iff_ne.mpr hwhole, Bool.false_eq_true, if_false]

theorem collData_leaves : Claims.collData := by
  rintro s l m g r ⟨⟨hruns, hsender, hwhole⟩, hkind⟩
  change execCollData l m s = _
  simp only [execCollData, linkIs_running_iff.mpr hruns, not_lt.mpr hkind, Bool.not_true, Bool.false_eq_true, if_false,
    takeColl_of_sender hsender hwhole]

theorem collSeal_leaves : Claims.collSeal := by
  rintro s l m x g r ⟨⟨hruns, hsender, hwhole⟩, hkind⟩
  have hfits : (m.kind ≠ 6 && m.kind ≠ 7) = false := by rcases hkind with h | h <;> simp [h]
  change execCollSeal l m x s = _
  simp only [execCollSeal, linkIs_running_iff.mpr hruns, hfits, Bool.not_true, Bool.false_eq_true, if_false,
    takeColl_of_sender hsender hwhole]

theorem collTake_holds : Claims.collTake := by
  rintro s slot e g c ⟨hgroup, hcoll, hstarted⟩
  simp only [State.collTake, hgroup, hcoll, hstarted, Bool.not_true, Bool.false_eq_true, if_false]

theorem collForm_leaves : Claims.collForm := by
  rintro s l m r pkg g k ⟨hruns, hpeer, hgroup, hforming, hrank, hline, hkind⟩
  change execCollForm l m r s = _
  simp only [execCollForm, linkIs_running_iff.mpr hruns, hpeer, hgroup, hforming, hrank, hline, hkind, Bool.not_true,
    bne_self_eq_false, ne_eq, not_true_eq_false, decide_false, Bool.false_and, Bool.false_eq_true, if_false]
  rfl

theorem collAbort_leaves : Claims.collAbort := by
  rintro s l m g r ⟨hruns, hkind, hsender⟩
  change execCollAbort l m s = _
  simp only [execCollAbort, linkIs_running_iff.mpr hruns, hkind, hsender, Bool.not_true, Bool.false_eq_true,
    ne_eq, not_true_eq_false, if_false]
  exact (apply_ite _ _ _ _).symm

/-! ### Groups that end (R424, Table 12-2) -/

theorem formationTimeout_leaves : Claims.formationTimeout := by
  rintro s k g t ⟨hgroup, hforming, hdue, hcolls, hticket⟩
  have hruns : (g.state != .forming || decide (s.tick < g.since + g.timeoutMs * msTicks)) = false := by
    simp [hforming, hdue]
  change execFormationTimeout k s = _
  simp only [execFormationTimeout, hgroup, hruns, Bool.false_eq_true, if_false, State.endForming, hcolls, List.foldl_nil,
    hticket, List.any_eq_true, List.isEmpty_iff]

/-- The end of a READY group that breaks (R424, R457, R483). -/
theorem breakGroup_of_ready {n : Nat} (hgroup : s.group? n = some g) (hready : g.state = .ready) :
    s.breakGroup n = ((g.colls.foldl (fun (w : State) (c : Coll) => w.failColl n c 0x77)
      (s.setGroup { g with state := .broken, early := [] })).sendAbort g 0 0x77).barsBroken n := by
  simp only [State.breakGroup, hgroup, hready, bne_self_eq_false, Bool.false_eq_true, if_false]

theorem groupBroken_leaves : Claims.groupBroken := by
  rintro s k g ⟨hgroup, hready, r, hline, hlost⟩
  have hbreaks : (g.state == .ready && g.linePeers.any (s.peerLost g)) = true := by
    simpa [hready] using ⟨r, hline, hlost⟩
  change execGroupBroken k s = _
  simp only [execGroupBroken, hgroup, hbreaks, if_true]
  exact congrArg _ (breakGroup_of_ready (group_of_group hgroup) hready)

/-! ### The seal of a step (R447 to R450) -/

/-- No reason to skip a step is found where no member reports NF or FAILED and all agree on count and digest (R448, R449). -/
theorem skipReasons_mod_eq_zero_iff {rs : List SealRecord} : skipReasons rs % 16 = 0 ↔
    ∀ r ∈ rs, r.nf = false ∧ r.failed = false
      ∧ r.count = (rs.headD { rank := 0, nf := false, failed := false, count := 0, digests := 0 }).count
      ∧ r.digests = (rs.headD { rank := 0, nf := false, failed := false, count := 0, digests := 0 }).digests := by
  have hbits (p q u v : Bool) (low : Nat) : (p.toNat + 2 * q.toNat + 4 * u.toNat + 8 * v.toNat + low * 2 ^ 16) % 16 = 0 ↔
      p = false ∧ q = false ∧ u = false ∧ v = false := by
    simp only [← Bool.toNat_eq_zero]
    have := p.toNat_le
    have := q.toNat_le
    have := u.toNat_le
    have := v.toNat_le
    omega
  rw [skipReasons, hbits]
  simp only [List.any_eq_false, decide_eq_true_eq, not_not, Bool.not_eq_true, ← forall₂_and]

theorem sealDecide_leaves : Claims.sealDecide := by
  rintro s k g c ⟨hgroup, hseal, hall⟩ first agree done
  have hsealing : g.sealing = some c := hseal
  have hagree : skipReasons c.seals % 16 = 0 ↔ agree := skipReasons_mod_eq_zero_iff
  change (agree → execSealDecide k s = _) ∧ (¬ agree → execSealDecide k s = _)
  simp only [execSealDecide, hgroup, hsealing, not_lt.mpr hall, if_false, ne_eq, hagree]
  exact ⟨fun h => if_neg (not_not_intro h), fun h => if_pos h⟩

theorem sealTimeout_leaves : Claims.sealTimeout := by
  rintro s k g c ⟨hgroup, hseal, hmissing, hdue⟩
  have hsealing : g.sealing = some c := hseal
  have hskips : (decide (g.d1 * g.d2 ≤ c.seals.length) || decide (s.tick < c.since + c.f 151 136 * msTicks)) = false := by
    simp [hmissing, hdue]
  change execSealTimeout k s = _
  simp only [execSealTimeout, hgroup, hsealing, hskips, Bool.false_eq_true, if_false]

/-- Settles O41: a reduction that suits its handles joins its group and one of a closed step fails, sums run in the order of
their list, and messages, timeouts and seals leave what the claims say. -/
theorem reductionsAndSeals : Obligations.ReductionsAndSeals :=
  ⟨reduceUpdate_leaves, reduceUpdateStep_leaves, slabTotal_holds, sumOrder_holds, collData_leaves, collSeal_leaves,
   collTake_holds, collForm_leaves, collAbort_leaves, formationTimeout_leaves, groupBroken_leaves, sealDecide_leaves,
   sealTimeout_leaves⟩

end Sys2Proof.Machine
end

section
/-!
PROOF. The step itself (Machine/Step.lean): the statements O1 and O6. Both follow from what a step keeps of the state without
its front command.
-/
namespace Sys2Proof.Machine

/-- Settles O1: where a command waits, a step is its meaning on the state with the queue's rest. -/
theorem stepTakesTheFrontCommand : Obligations.StepTakesTheFrontCommand := fun _ _ _ => step_of_cons rfl

theorem step_leaves_queue : Claims.stepQueue := fun _ _ e => (OutKeeps.of_eq e step_keeps).pending

theorem step_leaves_fuses : Claims.stepFuses := by
  intro s t e
  have k := OutKeeps.of_eq e step_keeps
  exact ⟨k.svn, k.pack, k.revoked, k.free⟩

/-- Settles O6: what a step keeps, no operation it calls undoes. -/
theorem stepNeverLowersTheFuses : Obligations.StepNeverLowersTheFuses := ⟨step_leaves_queue, step_leaves_fuses⟩

end Sys2Proof.Machine
end

section
/-!
PROOF. The sync block (Machine/SyncOps.lean, Machine/Sync.lean): the statements O34, O35 and O36. First the bits of a number in
the two ways the model reads them, and what a raise leaves of every counter; then mirrors and posts, barrier slots and locks, where
each claim's conditions choose one branch of its command.
-/
namespace Sys2Proof.Machine

variable {s : State} {h : Hub} {c : Nat} {v : BitVec 32}

/-! ### Bits of a number (R11) -/

theorem bitOf_toNat {w i : Nat} {x : BitVec w} : bitOf x.toNat i = x.getLsbD i := bitOf_eq_testBit

/-- A bit of a field is the bit of the word so many places above the field's lowest. -/
theorem bitOf_bitsOf {w hi lo i : Nat} (h : i < hi + 1 - lo) : bitOf (bitsOf w hi lo) i = bitOf w (lo + i) := by
  rw [bitOf_eq_testBit, bitOf_eq_testBit, bitsOf, Nat.testBit_mod_two_pow, decide_eq_true h, Bool.true_and,
    Nat.testBit_shiftRight]

theorem mem_maskList {n m i : Nat} : i ∈ maskList n m ↔ i < n ∧ bitOf m i = true := by
  simp [maskList]

/-! ### A counter's raise (R96, R459, R472) -/

/-- WAKE is a matter of the pins alone. -/
@[simp] theorem wakeOut_syn : (s.wakeOut h).syn = s.syn := by
  unfold State.wakeOut
  split <;> rfl

@[simp] theorem markRaise_syn : (s.markRaise h c).syn = s.syn := rfl

theorem wakeOut_if_syn {p : Prop} [Decidable p] : (if p then s.wakeOut h else s).syn = s.syn := by
  rw [apply_ite State.syn, wakeOut_syn, ite_self]

/-- A counter's new value is listed and its mirror is to be written; the hub's sync block is otherwise as it was. -/
theorem setHostCtr_syn : (s.setHostCtr h c v).syn.hubs[h] = { s.syn.hubs[h] with
    ctrs := tabPut 0 s.syn.hubs[h].ctrs c v
    dirty := if c ∈ s.syn.hubs[h].dirty then s.syn.hubs[h].dirty else s.syn.hubs[h].dirty ++ [c] } := by
  simp only [State.setHostCtr, setSync_syn_self, wakeOut_if_syn]

theorem setHostCtr_syn_ne {g : Hub} (hg : g ≠ h) : (s.setHostCtr h c v).syn.hubs[g] = s.syn.hubs[g] := by
  simp only [State.setHostCtr, State.setSync, wakeOut_if_syn, Fin.getElem_fin]
  exact Vector.getElem_set_ne _ _ (Fin.val_ne_of_ne hg.symm)

theorem setHostCtr_cfg : (s.setHostCtr h c v).syn.hubs[h].cfg = s.syn.hubs[h].cfg := by
  rw [setHostCtr_syn]

theorem raiseHost_ctrs {n : BitVec 32} :
    (s.raiseHost h c n).syn.hubs[h].ctrs = tabPut 0 s.syn.hubs[h].ctrs c (s.hostCtr h c + n) :=
  congrArg Sync.ctrs setHostCtr_syn

theorem raiseHost_cfg {n : BitVec 32} : (s.raiseHost h c n).syn.hubs[h].cfg = s.syn.hubs[h].cfg :=
  setHostCtr_cfg

theorem raiseHost_syn_ne {n : BitVec 32} {g : Hub} (hg : g ≠ h) : (s.raiseHost h c n).syn.hubs[g] = s.syn.hubs[g] :=
  setHostCtr_syn_ne hg

/-- A raise keeps a hub's counters in canonical form. -/
theorem raiseHost_ctrs_wf {n : BitVec 32} (hwf : tabWf 0 s.syn.hubs[h].ctrs = true) :
    tabWf 0 (s.raiseHost h c n).syn.hubs[h].ctrs = true := by
  rw [raiseHost_ctrs]
  exact tabPut_wf hwf

/-- A raise adds its increment to its own counter, and no other counter of the hub changes. -/
theorem hostCtr_raiseHost {n : BitVec 32} {k : Nat} (hwf : tabWf 0 s.syn.hubs[h].ctrs = true) :
    (s.raiseHost h c n).hostCtr h k = if c = k then s.hostCtr h c + n else s.hostCtr h k := by
  unfold State.hostCtr
  rw [raiseHost_ctrs, tabGet_put hwf]
  rfl

theorem hostCtr_raiseHost_ne {n : BitVec 32} {g : Hub} {k : Nat} (hg : g ≠ h) :
    (s.raiseHost h c n).hostCtr g k = s.hostCtr g k := by
  simp only [State.hostCtr, raiseHost_syn_ne hg]

/-- After a list of raises the counter has risen by their sum, and no other counter of any hub has changed. -/
theorem hostCtr_raises {ns : List (BitVec 32)} (hwf : tabWf 0 s.syn.hubs[h].ctrs = true) :
    let u := ns.foldl (fun (u : State) n => u.raiseHost h c n) s
    u.hostCtr h c = s.hostCtr h c + ns.sum ∧ (∀ k, k ≠ c → u.hostCtr h k = s.hostCtr h k)
      ∧ ∀ g, g ≠ h → ∀ k, u.hostCtr g k = s.hostCtr g k := by
  induction ns generalizing s with
  | nil => simp
  | cons n ns ih =>
    obtain ⟨hsum, hsame, hother⟩ := ih (raiseHost_ctrs_wf (n := n) hwf)
    refine ⟨?_, fun k hk => ?_, fun g hg k => ?_⟩
    · rw [List.foldl_cons, hsum, hostCtr_raiseHost hwf, if_pos rfl, List.sum_cons, BitVec.add_assoc]
    · rw [List.foldl_cons, hsame k hk, hostCtr_raiseHost hwf, if_neg hk.symm]
    · rw [List.foldl_cons, hother g hg k, hostCtr_raiseHost_ne hg]

theorem raises_holds : Claims.raises := by
  intro s h hwf c ns u
  obtain ⟨hsum, hsame, hother⟩ := hostCtr_raises (c := c) (ns := ns) hwf
  refine ⟨hsum, fun ms hperm => ?_, hsame, hother⟩
  rw [(hostCtr_raises hwf).1, hperm.sum_eq, ← hsum]

/-! ### Mirrors, posts and long waits (R464 to R467, R474) -/

theorem mirrorWrite_leaves : Claims.mirrorWrite := by
  rintro s hub c ⟨hmirrors, hdirty, howned⟩ y
  change execMirrorWrite hub c s = _
  simp only [execMirrorWrite, hmirrors, hdirty, howned, not_true_eq_false, decide_false, Bool.not_true, Bool.or_self,
    Bool.false_eq_true, if_false]
  rfl

theorem postPoll_leaves : Claims.postPoll := fun _ _ => rfl
theorem wakeIn_leaves : Claims.wakeIn := fun _ _ => rfl

theorem takePost_leaves : Claims.takePost := by
  intro s hub c howned y p l
  have htaken : ¬ (!bitOf (s.ctrCfg hub c).toNat 31) = true := by simpa using howned
  exact if_neg htaken

theorem longWait_leaves : Claims.longWait := by
  rintro s d ⟨hlimit, hon⟩
  change execLongWait d s = _
  simp only [execLongWait, hlimit, hon, decide_false, bne_self_eq_false, Bool.or_self, Bool.false_eq_true, if_false]

/-! ### Counter registers (R96, R465, R467, R469) -/

/-- SYN_CTR_CFG.REALIGN is bits 28 and 27 (Table 13-9). -/
theorem realign_eq_three_iff : bitsOf v.toNat 28 27 = 3 ↔ v.getLsbD 27 = true ∧ v.getLsbD 28 = true := by
  simp only [← bitOf_toNat, bitOf, bitsOf, Nat.shiftRight_eq_div_pow, decide_eq_true_eq]
  omega

theorem getLsbD_realignMask {i : Nat} : (0x18000000#32).getLsbD i = (decide (i = 27) || decide (i = 28)) := by
  by_cases hi : i < 32
  · revert i
    decide
  · rw [BitVec.getLsbD_of_ge _ _ (Nat.le_of_not_lt hi)]
    simp; omega

theorem and_realignMask_iff : v &&& 0x18000000#32 = 0x18000000#32 ↔ v.getLsbD 27 = true ∧ v.getLsbD 28 = true := by
  constructor
  · intro hmask
    have hbit (i : Nat) : (v.getLsbD i && (0x18000000#32).getLsbD i) = (0x18000000#32).getLsbD i := by
      rw [← BitVec.getLsbD_and, hmask]
    exact ⟨by simpa using hbit 27, by simpa using hbit 28⟩
  · rintro ⟨hlow, hhigh⟩
    refine BitVec.eq_of_getLsbD_eq fun i _ => ?_
    rw [BitVec.getLsbD_and, getLsbD_realignMask]
    by_cases h27 : i = 27
    · simp [h27, hlow]
    · by_cases h28 : i = 28
      · simp [h28, hhigh]
      · simp [h27, h28]

/-- The bits that SYN_CTR_CFG does not hold are none of REALIGN's and not OWNED. -/
theorem getLsbD_and_not_reserved {i : Nat} (hi : i < 32 ∧ (i < 12 ∨ 14 < i)) : (v &&& ~~~0x7000#32).getLsbD i = v.getLsbD i := by
  have hkept : ∀ j < 32, (j < 12 ∨ 14 < j) → (0x7000#32).getLsbD j = false := by decide
  rw [BitVec.getLsbD_and, BitVec.getLsbD_not, hkept i hi.1 hi.2, decide_eq_true hi.1]
  exact Bool.and_true _

theorem synCtrCfgWrite_leaves : Claims.synCtrCfgWrite := by
  intro s hub v hfree y c w
  have hthree : bitsOf (v &&& ~~~0x7000#32).toNat 28 27 = 3 ↔ v &&& 0x18000000#32 = 0x18000000#32 := by
    rw [realign_eq_three_iff, and_realignMask_iff, getLsbD_and_not_reserved (by decide), getLsbD_and_not_reserved (by decide)]
  have hw : (if bitsOf (v &&& ~~~0x7000#32).toNat 28 27 = 3 then v &&& ~~~0x7000#32 &&& ~~~0x18000000#32
      else v &&& ~~~0x7000#32) = w :=
    if_congr hthree (BitVec.and_assoc _ _ _) rfl
  have howned : bitOf w.toNat 31 = v.getLsbD 31 := by
    rw [bitOf_toNat, ← hw]
    split
    · rw [BitVec.getLsbD_and, getLsbD_and_not_reserved (by decide)]
      simp
    · exact getLsbD_and_not_reserved (by decide)
  change Host.Outcome.next (s.ctrCfgWrite hub v) = _
  simp only [State.ctrCfgWrite, show s.ctrWaited hub (s.syn.hubs[hub].sel.toNat % 256) = false from hfree, Bool.false_eq_true,
    if_false]
  rw [hw, howned]
  simp only [Bool.and_eq_true, Bool.not_eq_true']
  rfl

theorem synCtrValWrite_leaves : Claims.synCtrValWrite := by
  intro s hub v c d
  have hrises : (d ≠ 0 && decide (d.toNat < 2 ^ 31)) = true ↔ 0 < d.toNat ∧ d.toNat < 2 ^ 31 := by
    rw [Bool.and_eq_true, decide_eq_true_eq, decide_eq_true_eq, Nat.pos_iff_ne_zero, ne_eq, ← BitVec.toNat_inj]
    rfl
  exact congrArg _ (if_congr hrises rfl rfl)

/-- Settles O34: raises of one counter add up whatever their order, and each command of mirrors, posts and counter registers
leaves what its claim says. -/
theorem countersAreRaised : Obligations.CountersAreRaised :=
  ⟨raises_holds, mirrorWrite_leaves, postPoll_leaves, wakeIn_leaves, takePost_leaves, longWait_leaves, synCtrCfgWrite_leaves,
   synCtrValWrite_leaves⟩

/-! ### Barrier messages and beacons (R475 to R481) -/

/-- A slot that waits has no line to report. -/
theorem barLine_setBar_of_waiting {b : Fin 8} {x : BarSlot} (hstate : x.state = .waiting) :
    (s.setBar b x).barLine b = s.setBar b x := by
  unfold State.barLine
  simp only [setBar_syn_self, hstate]
  split
  · exact if_neg (by simp)
  · rfl

theorem barrier_leaves : Claims.barrier := by
  rintro s m g ⟨hgroup, hlink, hstate, hgrouped, hslot, harrive, hmember, hgen⟩ x
  obtain ⟨l, hlink⟩ := Option.ne_none_iff_exists'.mp hlink
  have hlive : (s.syn.bars[m.slot].state == .waiting || s.syn.bars[m.slot].state == .arrived) = true := by simp only [hstate]; rfl
  change execBarrier m s = _
  simp only [execBarrier, hgroup, hlink, hlive, hgrouped, hslot, harrive, hgen, beq_self_eq_true, Bool.false_eq_true, if_false,
    decide_eq_true hmember, Bool.and_self, Bool.true_or, Bool.not_true, Bool.or_self]
  exact congrArg _ (barLine_setBar_of_waiting hstate)

theorem barrierArrive_leaves : Claims.barrierArrive := by
  rintro s hub b ⟨hstate, hasserts, hreached⟩ x
  change execBarrierArrive hub b s = _
  simp only [execBarrierArrive, hstate, hasserts, hreached, beq_self_eq_true, Bool.and_self, if_true]
  rfl

theorem beaconComplete_leaves : Claims.beaconComplete := by
  rintro s b ⟨hstate, hhubs, hreleased, hpackage⟩ x
  have hempty : s.syn.bars[b].hubs.isEmpty = false := by simpa using hhubs
  have hall : s.syn.bars[b].hubs.all (fun h => s.syn.bars[b].beacon[hubOf h] == .released) = true := by
    simpa using hreleased
  change execBeaconComplete b s = _
  simp only [execBeaconComplete, hstate, hempty, hall, hpackage, bne_self_eq_false, Bool.not_true, Bool.or_self,
    Bool.false_eq_true, if_false]
  rfl

theorem beaconHoldEnd_leaves : Claims.beaconHoldEnd := by
  rintro s hub b ⟨hhold, hdue⟩ x
  change execBeaconHoldEnd hub b s = _
  simp only [execBeaconHoldEnd, hhold, hdue, beq_self_eq_true, decide_true, Bool.and_self, if_true]
  rfl

/-! ### The end of a generation (R480, R482, R483) -/

theorem barrierComplete_leaves : Claims.barrierComplete := by
  rintro s b ⟨hstate, hpackage⟩ x
  have hdone : s.barComplete s.syn.bars[b] = true := by
    simp only [State.barComplete, hstate, hpackage, beq_self_eq_true, Bool.not_false, Bool.true_or, Bool.and_self]
  change execBarrierComplete b s = _
  simp only [execBarrierComplete, hdone, Bool.not_true, Bool.false_eq_true, if_false]
  rfl

/-- A hub all of whose counters' configurations are at reset has none to realign. -/
theorem realignOn_of_no_cfg {sel : Nat → Bool} (hcfg : s.syn.hubs[h].cfg = []) : s.realignOn sel h = s := by
  rw [State.realignOn, hcfg]
  rfl

theorem barDone_holds : Claims.barDone := by
  rintro s b x h ⟨hdiffer, hcfg, hquiet, hwf⟩
  let u : State := (s.raiseHost h x.arriveCtr (0 - BitVec.ofNat 32 x.arriveStep))
  have huwf : tabWf 0 u.syn.hubs[h].ctrs = true := raiseHost_ctrs_wf hwf
  have hdone : s.barDone b x h = u.raiseHost h x.releaseCtr 1 := by
    simp only [State.barDone, hquiet, Bool.false_eq_true, if_false]
    exact realignOn_of_no_cfg (raiseHost_cfg.trans (raiseHost_cfg.trans hcfg))
  rw [hdone]
  refine ⟨?_, ?_, fun c _ harrive hrelease => ?_⟩
  · rw [hostCtr_raiseHost huwf, if_neg hdiffer.symm, hostCtr_raiseHost hwf, if_pos rfl, BitVec.sub_eq_add_neg, BitVec.sub_eq_add_neg,
      show (0 : BitVec 32) = 0#32 from rfl, BitVec.zero_add]
  · rw [hostCtr_raiseHost huwf, if_pos rfl, hostCtr_raiseHost hwf, if_neg hdiffer]
  · rw [hostCtr_raiseHost huwf, if_neg hrelease.symm, hostCtr_raiseHost hwf, if_neg harrive.symm]

theorem barrierTimeout_leaves : Claims.barrierTimeout := by
  rintro s b ⟨hstate, hgrouped, hlimit, hopen, hdue⟩
  change execBarrierTimeout b s = _
  simp only [execBarrierTimeout, hstate, hgrouped, ne_eq, hlimit, hopen, hdue, beq_self_eq_true, not_false_eq_true, decide_true,
    Bool.not_false, Bool.and_self, if_true]

/-- The bits that SYN_BAR_CFG does not hold are its lowest five. -/
theorem getLsbD_and_not_low {i : Nat} (hi : i < 32 ∧ 4 < i) : (v &&& ~~~0x1F#32).getLsbD i = v.getLsbD i := by
  have hkept : ∀ j < 32, 4 < j → (0x1F#32).getLsbD j = false := by decide
  rw [BitVec.getLsbD_and, BitVec.getLsbD_not, hkept i hi.1 hi.2, decide_eq_true hi.1]
  exact Bool.and_true _

theorem on_of_cfg {x : BarSlot} (hcfg : x.cfg = v &&& ~~~0x1F#32) : x.on = v.getLsbD 31 := by
  rw [BarSlot.on, hcfg, getLsbD_and_not_low (by decide)]

/-- A hub takes part where its bit of HUBS is 1. -/
theorem mem_hubs_of_cfg {x : BarSlot} (hcfg : x.cfg = v &&& ~~~0x1F#32) : h.val ∈ x.hubs ↔ v.getLsbD (22 + h.val) = true := by
  have hbit : bitOf (bitsOf x.cfg.toNat 25 22) h.val = bitOf x.cfg.toNat (22 + h.val) := bitOf_bitsOf h.isLt
  rw [BarSlot.hubs, mem_maskList, hbit, bitOf_toNat, hcfg, getLsbD_and_not_low (by omega)]
  exact and_iff_right h.isLt

/-- A write of SYN_BAR_CFG with ENABLE 0 disables the slot, and every hub leaves its beacon line. -/
theorem barCfgWrite_of_disable {b : Fin 8} (hoff : v.getLsbD 31 = false) : s.barCfgWrite b false v
    = s.setBar b { s.syn.bars[b] with
        cfg := v &&& ~~~0x1F#32, state := .disabled, cause := 0, beacon := Vector.replicate 4 .out } := by
  unfold State.barCfgWrite
  extract_lets x _ y phase z
  have hy : y.on = false := (on_of_cfg rfl).trans hoff
  have hz : z.on = false := (on_of_cfg rfl).trans hoff
  have hphases : Vector.ofFn phase = Vector.replicate 4 BeaconPhase.out :=
    Vector.ext fun i hi => by rw [Vector.getElem_ofFn, Vector.getElem_replicate]; exact if_pos (by rw [hy]; rfl)
  rw [if_neg Bool.false_ne_true, if_pos (by rw [hz]; rfl), ← hphases]

/-- A write of SYN_BAR_CFG that takes ENABLE from 0 to 1 starts the slot, and its hubs hold their beacon lines asserted. -/
theorem barCfgWrite_of_enable {b : Fin 8} (hon : v.getLsbD 31 = true) (hwas : s.syn.bars[b].on = false) :
    s.barCfgWrite b false v = s.setBar b { s.syn.bars[b] with
      cfg := v &&& ~~~0x1F#32, state := .waiting, cause := 0, gen := 0, arrive0 := [], arrive1 := [], line0 := [], line1 := []
      lineDoneSent := false
      beacon := Vector.ofFn (fun (h : Hub) => if v.getLsbD (22 + h.val) then BeaconPhase.asserting else .out) } := by
  unfold State.barCfgWrite
  extract_lets x _ y phase z
  have hy : y.on = true := (on_of_cfg rfl).trans hon
  have hz : z.on = true := (on_of_cfg rfl).trans hon
  have hx : x.on = false := hwas
  have hphase : phase = fun h : Hub => if v.getLsbD (22 + h.val) then BeaconPhase.asserting else .out := by
    funext h
    simp only [phase, hy, hx, mem_hubs_of_cfg (x := y) rfl, Bool.not_true, Bool.false_or, Bool.not_false, Bool.true_or, if_true]
    cases v.getLsbD (22 + h.val) <;> rfl
  rw [if_neg Bool.false_ne_true, if_neg (by rw [hz]; exact Bool.false_ne_true), if_pos (by rw [hx]; rfl), ← hphase]

theorem synBarCfgWrite_leaves : Claims.synBarCfgWrite := fun _ _ _ =>
  ⟨rfl, fun hoff => congrArg _ (barCfgWrite_of_disable hoff), fun hon hwas => congrArg _ (barCfgWrite_of_enable hon hwas)⟩

/-- Settles O35: what each command of the barrier slots and their beacon lines leaves where its conditions hold. -/
theorem barriersOfTheSyncBlock : Obligations.BarriersOfTheSyncBlock :=
  ⟨barrier_leaves, barrierArrive_leaves, beaconComplete_leaves, beaconHoldEnd_leaves, barrierComplete_leaves, barDone_holds,
   barrierTimeout_leaves, synBarCfgWrite_leaves⟩

/-! ### Locks (R486 to R488) -/

theorem lockAcquire_leaves : Claims.lockAcquire := by
  intro s hub l q
  change (_ → execLockAcquire hub l q s = _) ∧ ∀ b, _ → execLockAcquire hub l q s = _
  refine ⟨fun hfree => ?_, fun b hheld => ?_⟩
  · unfold execLockAcquire
    split
    · next b hheld => exact absurd hheld (hfree b)
    · rfl
  · simp only [execLockAcquire, hheld]

theorem lockRelease_leaves : Claims.lockRelease := fun _ _ _ _ =>
  ⟨fun hholder => congrArg _ (if_pos hholder), fun hother => congrArg _ (if_neg hother)⟩

theorem lockAbandon_leaves : Claims.lockAbandon := by
  intro s hub l
  change (∀ b, _ → Host.Outcome.next (s.lockAbandon hub l.val) = _) ∧ (_ → Host.Outcome.next (s.lockAbandon hub l.val) = _)
  refine ⟨fun b hheld => ?_, fun hfree => ?_⟩
  · simp only [State.lockAbandon, hheld]
  · unfold State.lockAbandon
    split
    · next b hheld => exact absurd hheld (hfree b)
    · rfl

theorem i3cBusReset_leaves : Claims.i3cBusReset := fun _ _ => rfl

/-- Settles O36: what an acquiring, a release and an abandoning do by the state the lock is in. -/
theorem locksOfTheSyncBlock : Obligations.LocksOfTheSyncBlock :=
  ⟨lockAcquire_leaves, lockRelease_leaves, lockAbandon_leaves, i3cBusReset_leaves⟩

end Sys2Proof.Machine
end

section
/-!
PROOF. The vault as its holder keeps it (Machine/Vault.lean): the statement O42. A request that is found is served by the operation
it asks for; lemmas say which images a request matches, what sealing leaves with no RETAIN, and the block of an answer.
-/
namespace Sys2Proof.Machine

variable {s : State} {l : LinkNo} {tag : Fin 16} {q : VaultReq}

/-! ### Images and the requests that name them (R491, R492, R500) -/

theorem image_slot {n : Nat} {i : Image} (h : s.image? n = some i) : i.slot = n := by
  simpa using List.find?_some h

theorem peer_pkg {pkg : BitVec 64} {p : Peer} (h : s.peer? pkg = some p) : p.pkg = pkg := by
  simpa using List.find?_some h

/-- An image is the one a request names by kind, key, rank and number. -/
theorem image_matches_iff {i : Image} : (i.kind == q.kind && i.key == q.key && i.rank == q.rank && i.ckptNo == q.ckptNo) = true
    ↔ i.kind = q.kind ∧ i.key = q.key ∧ i.rank = q.rank ∧ i.ckptNo = q.ckptNo := by
  simp only [Bool.and_eq_true, beq_iff_eq, and_assoc]

theorem vaultCreate_leaves : Claims.vaultCreate := by
  rintro s l tag q p slot ⟨⟨hreq, hop⟩, hnew, hslot, hpeer, hgrant⟩
  have hsame : s.vault.images.any (fun i : Image =>
      i.kind == q.kind && i.key == q.key && i.rank == q.rank && i.ckptNo == q.ckptNo) = false :=
    List.any_eq_false.mpr fun i hi => mt image_matches_iff.mp (hnew i hi)
  change execVaultCreate l tag s = _
  simp only [execVaultCreate, hreq, hop, ne_eq, not_true_eq_false, if_false, hsame, Bool.false_eq_true, hslot, hpeer,
    Option.getD_some, Nat.not_lt.mpr hgrant, peer_pkg hpeer]
  rfl

theorem vaultCreateTwice_leaves : Claims.vaultCreateTwice := by
  rintro s l tag q i ⟨⟨hreq, hop⟩, hi, hmatch⟩
  have hsame : s.vault.images.any (fun i : Image =>
      i.kind == q.kind && i.key == q.key && i.rank == q.rank && i.ckptNo == q.ckptNo) = true :=
    List.any_eq_true.mpr ⟨i, hi, image_matches_iff.mpr hmatch⟩
  change execVaultCreate l tag s = _
  simp only [execVaultCreate, hreq, hop, ne_eq, not_true_eq_false, if_false, hsame, if_true]

/-- With no RETAIN no image is released. -/
theorem retain_zero {i : Image} : s.retain i 0 = s := rfl

theorem vaultSeal_leaves : Claims.vaultSeal := by
  rintro s l tag q i ⟨⟨hreq, hop⟩, ⟨himage, hwriting, hmatch⟩, hretain⟩ j u
  have hours : (i.state == ImgState.writing && i.kind == q.kind && i.key == q.key && i.rank == q.rank
      && i.ckptNo == q.ckptNo) = true := by
    simp only [Bool.and_eq_true, beq_iff_eq, and_assoc]
    exact ⟨hwriting, hmatch⟩
  change execVaultSeal l tag s = _
  simp only [execVaultSeal, hreq, hop, ne_eq, not_true_eq_false, if_false, himage, Option.filter_some, hours, if_true, hretain,
    retain_zero]
  cases manifestOk i.data <;> rfl

theorem vaultDrop_leaves : Claims.vaultDrop := by
  rintro s l tag q i ⟨⟨hreq, hop⟩, honly, hmatch⟩
  have hhit : (i.kind == q.kind && i.key == q.key && i.rank == q.rank && i.ckptNo == q.ckptNo
      && (i.state == ImgState.sealed || i.creator == s.linkPkg l)) = true
      ↔ i.state = .sealed ∨ i.creator = s.linkPkg l := by
    rw [Bool.and_eq_true, image_matches_iff, and_iff_right hmatch, Bool.or_eq_true, beq_iff_eq, beq_iff_eq]
  change execVaultDrop l tag s = _
  simp only [execVaultDrop, hreq, hop, ne_eq, not_true_eq_false, if_false, honly]
  by_cases hmay : i.state = .sealed ∨ i.creator = s.linkPkg l
  · simp only [List.find?_cons, hhit.mpr hmay, if_pos hmay]
    rfl
  · simp only [List.find?_cons, List.find?_nil, Bool.eq_false_iff.mpr (mt hhit.mp hmay), if_neg hmay]

theorem vaultList_leaves : Claims.vaultList := by
  rintro s l tag q ⟨hreq, hop⟩ hit
  have hhit (n : Nat) : hit n = match s.image? n with
      | some i => i.kind == q.kind && i.key == q.key && (q.rank == 0xFFFF || i.rank == q.rank)
      | none => false := by
    unfold hit
    cases s.image? n <;> rfl
  change execVaultList l tag s = _
  rw [funext hhit]
  simp only [execVaultList, hreq, hop, ne_eq, not_true_eq_false, if_false] <;> rfl

theorem vaultStatus_leaves : Claims.vaultStatus := by
  rintro s l tag q ⟨hreq, hop⟩
  change execVaultStatus l tag s = _
  simp only [execVaultStatus, hreq, hop, ne_eq, not_true_eq_false, if_false]

/-! ### The answer's block (R499) -/

theorem vaultAnswer_leaves : Claims.vaultAnswer := by
  intro s l tag status slot rs
  let head := leBytes 1 status ++ leBytes 1 (slot % 256) ++ leBytes 2 rs.length
  refine ⟨(head ++ leBytes 60 0 ++ rs.flatten) ++ List.replicate (4096 - (head ++ leBytes 60 0 ++ rs.flatten).length) 0#8, ?_, ?_, ?_⟩
  · rw [List.append_assoc, List.append_assoc]
    exact List.take_left' rfl
  · rw [List.append_assoc (head ++ leBytes 60 0), List.drop_left' (show (head ++ leBytes 60 0).length = 64 from rfl)]
    exact List.take_left
  · have hslot : (BitVec.ofNat 8 slot).toNat = slot % 256 := BitVec.toNat_ofNat slot 8
    simp only [State.vaultAnswer, hslot]
    rfl

/-! ### Expiry, queries and releases (R490, R501, R502) -/

theorem writingImageExpiry_leaves : Claims.writingImageExpiry := by
  intro s n i himage
  change execWritingImageExpiry n s = _
  simp only [execWritingImageExpiry, show s.image? n.val = some i from himage, Bool.and_eq_true, beq_iff_eq, decide_eq_true_eq]
  rfl

theorem vaultQuery_leaves : Claims.vaultQuery := fun _ _ hacc => ⟨_, congrArg _ (withDesc_of_accepts hacc)⟩

theorem vaultRelease_leaves : Claims.vaultRelease := by
  rintro s d i ⟨hacc, himage⟩
  refine ⟨((s.dropImage (d.f 71 64)).fresh 64).1, endsOk_of_accepts hacc rfl ?_⟩
  simp only [himage, image_slot himage]
  rfl

theorem ckptBind_leaves : Claims.ckptBind := by
  rintro s d c ⟨hacc, hctx⟩
  refine ⟨(s.fresh 64).1, endsOk_of_accepts hacc rfl ?_⟩
  simp only [hctx]
  rfl

/-- Settles O42: what each request a holder serves and each admin command of the vault leaves where its conditions hold. -/
theorem vaultImages : Obligations.VaultImages :=
  ⟨vaultCreate_leaves, vaultCreateTwice_leaves, vaultSeal_leaves, vaultDrop_leaves, vaultList_leaves, vaultStatus_leaves,
   vaultAnswer_leaves, writingImageExpiry_leaves, vaultQuery_leaves, vaultRelease_leaves, ckptBind_leaves⟩

end Sys2Proof.Machine
end

section
/-!
PROOF. Checkpoints and snapshots (Machine/Ckpt.lean): the statement O44. A command that works at a holder acts where its context is
bound and the holder's bundle is up; a capture acts where every listed handle can be captured whole.
-/
namespace Sys2Proof.Machine

variable {s : State} {d : Desc} {key : BitVec 64} {rank : BitVec 16} {pkg : BitVec 64} {tag : Nat}

/-! ### Commands that work at a holder (R315, R490, R499, R500, R505) -/

theorem atHolder_of_bound {t : Ticket} {act : BitVec 64 → BitVec 16 → BitVec 64 → Nat → State → State}
    (h : Claims.atHolder s d key rank pkg tag) : s.atHolder d t act = act key rank pkg tag s := by
  obtain ⟨hbound, hlinks, hpeer, htag⟩ := h
  simp only [State.atHolder, hbound, hlinks, hpeer, htag, Bool.not_true, Bool.false_eq_true, if_false]

theorem ckptRestore_leaves : Claims.ckptRestore := fun _ _ _ _ _ _ ⟨hacc, hholder⟩ =>
  congrArg _ ((withDesc_of_accepts hacc).trans (atHolder_of_bound hholder))

theorem ckptDrop_leaves : Claims.ckptDrop := fun _ _ _ _ _ _ ⟨hacc, hholder⟩ =>
  congrArg _ ((withDesc_of_accepts hacc).trans (atHolder_of_bound hholder))

theorem ckptList_leaves : Claims.ckptList := fun _ _ _ _ _ _ ⟨hacc, hholder⟩ =>
  congrArg _ ((withDesc_of_accepts hacc).trans (atHolder_of_bound hholder))

theorem beginOp_holds : Claims.beginOp := fun _ _ => rfl

/-! ### Captures (R493 to R497, R509) -/

/-- The status of an image is POISON where one of its objects holds poison. -/
theorem captureStatus_eq {hs : List Handle} :
    (if hs.any (fun h => !(s.objectPoison h).isEmpty) then (0x20 : BitVec 8) else 0)
      = if hs.all (fun h => (s.objectPoison h).isEmpty) then 0 else 0x20 := by
  rw [List.any_eq_not_all_not]
  simp only [Bool.not_not]
  cases hs.all (fun h => (s.objectPoison h).isEmpty) <;> rfl

/-- What CHECKPOINT or SNAPSHOT_SEND captures besides its handles. -/
def State.captureOf (s : State) (d : Desc) (kind : Nat) (key : BitVec 64) (rank : BitVec 16) : Capture :=
  { kind := kind, key := if kind = 1 then BitVec.ofNat 64 (d.f 383 320) else key, rank := rank
    ckptNo := BitVec.ofNat 32 (d.f 319 288), step := BitVec.ofNat 32 (d.f 287 256)
    minor := if d.f 143 136 = 0xFF then 1 else d.f 143 136, press := d.f 73 73 == 1
    seedLo := ((s.ctx? (s.descCtx d)).map Ctx.seedLo).getD 0, seedHi := ((s.ctx? (s.descCtx d)).map Ctx.seedHi).getD 0 }

/-- The operation at the holder that a capture of these handles begins. -/
def State.captureOp (s : State) (d : Desc) (c : Capture) (pkg : BitVec 64) (tag : Nat) (hs : List Handle) : RemoteOp :=
  { opOf d d.ticket (s.descCtx d) (0x50 + c.kind) pkg tag
      { op := 1, kind := c.kind, retain := d.f 147 144, rank := c.rank, key := c.key, ckptNo := c.ckptNo
        frames := 1 + (hs.map (fun h => stripeCount h.shape.size)).sum, slot := 0 } with
    image := (s.buildImage c hs).1, imagePoison := (s.buildImage c hs).2.1, blocks := (s.buildImage c hs).2.2
    readers := hs.map Handle.key, status := if hs.all (fun h => (s.objectPoison h).isEmpty) then 0 else 0x20 }

/-- A capture of handles that can be captured whole gives each a reader and asks the holder for a slot. -/
theorem capture_of_capturable {kind : Nat} {hs : List Handle} (hholder : Claims.atHolder s d key rank pkg tag)
    (hlisted : s.listed (s.descCtx d) (d.f 447 384) (d.f 159 148) = .ok hs)
    (hcan : Claims.capturable s (if d.f 143 136 = 0xFF then 1 else d.f 143 136) hs) :
    let o := s.captureOp d (s.captureOf d kind key rank) pkg tag hs
    s.capture d d.ticket kind = State.beginOp { s with hs := { s.hs with list := s.hs.list.map (fun h : Handle =>
      { h with readers := h.readers + (o.readers.filter (fun x => x == h.key)).length }) } } o := by
  obtain ⟨hwhole, hframes⟩ := hcan
  have hbad : hs.filterMap (captureBad (if d.f 143 136 = 0xFF then 1 else d.f 143 136)) = [] :=
    List.filterMap_eq_nil_iff.mpr fun h hh => (hwhole h hh).1
  have hread : hs.all (fun h => (List.range (stripeCount h.shape.size)).all (s.stripeReadable h)) = true :=
    List.all_eq_true.mpr fun h hh => (hwhole h hh).2
  unfold State.capture
  rw [atHolder_of_bound hholder]
  simp only [hlisted, hbad, List.head?_nil, Nat.not_lt.mpr hframes, hread, if_false, Bool.not_true, Bool.false_eq_true,
    captureStatus_eq]
  rfl

theorem checkpoint_leaves : Claims.checkpoint := by
  rintro s d key rank pkg tag hs ⟨hacc, hholder, hlisted, hcan⟩
  have hexec : exec (.checkpoint d) s = .next (s.capture d d.ticket 0) := congrArg Host.Outcome.next (withDesc_of_accepts hacc)
  exact ⟨_, hexec, s.captureOp d (s.captureOf d 0 key rank) pkg tag hs, s.captureOf d 0 key rank, rfl, rfl, rfl, rfl, rfl, rfl,
    rfl, rfl, rfl, rfl, rfl, rfl, rfl, rfl, rfl, capture_of_capturable hholder hlisted hcan⟩

theorem snapshotSend_leaves : Claims.snapshotSend := by
  rintro s d key rank pkg tag hs ⟨hacc, hholder, hlisted, hcan⟩
  have hexec : exec (.snapshotSend d) s = .next (s.capture d d.ticket 1) := congrArg Host.Outcome.next (withDesc_of_accepts hacc)
  exact ⟨_, hexec, s.captureOp d (s.captureOf d 1 key rank) pkg tag hs, s.captureOf d 1 key rank, rfl, rfl, rfl, rfl, rfl, rfl,
    rfl, rfl, rfl, rfl, rfl, rfl, rfl, rfl, rfl, capture_of_capturable hholder hlisted hcan⟩

/-! ### SNAPSHOT_READ (R508) -/

theorem snapshotRead_leaves : Claims.snapshotRead := by
  rintro s d key i g data poison fr ⟨hacc, hbound, himage, hkind, hkey, hsealed, hsegment, hoff, hlen, hback⟩ off len bad
  obtain ⟨b, hb, rfl⟩ := Option.map_eq_some_iff.mp hbound
  have hours : (i.kind == 1 && i.key == b.1) = true := by rw [hkind, hkey]; simp
  have hwithin : (decide (g.size ≤ d.f 255 216)
      || decide (g.size < d.f 255 216 + if d.f 215 176 = 0 then g.size - d.f 255 216 else d.f 215 176)) = false := by
    rw [decide_eq_false (Nat.not_le.mpr hoff)]
    exact decide_eq_false (Nat.not_lt.mpr hlen)
  have hstatus : (if bad = [] then ({ status := 0, result := digestRange data off len } : Done) else { status := 0x20, result := 0 })
      = { status := if bad.isEmpty then 0 else 0x20, result := if bad.isEmpty then digestRange data off len else 0 } := by
    cases bad <;> rfl
  have hexec : exec (.snapshotRead d) s = .next _ := congrArg Host.Outcome.next (withDesc_of_accepts hacc)
  rw [hexec, hstatus]
  simp only [hb, himage, Option.filter_some, hours, if_true, hsealed, bne_self_eq_false, Bool.false_eq_true, if_false, hsegment,
    hwithin, hback]
  exact ⟨_, rfl⟩

/-! ### OWN_IMAGE_POLL (R504) -/

theorem ownImagePoll_leaves : Claims.ownImagePoll := by
  intro s hub hquiet
  refine congrArg Host.Outcome.next (List.foldlRecOn _ _ (motive := fun u : State => u = s) rfl fun u hu w hw => ?_)
  rw [hu]
  rcases hquiet w hw with hreported | hdown
  · cases hlink : (s.bundle w.pkg).head? with
    | none => rfl
    | some l => exact if_pos (by simp [hreported])
  · rw [hdown]
    rfl

/-- The operation that asks a holder for the status of an image. -/
def statusOp (w : OwnImage) (l : LinkNo) (tag : Nat) : RemoteOp :=
  { id := 0, phase := .ask, opcode := 1, ticket := none, ctx := w.ctx, pkg := w.pkg, prio := 0, vtag := tag, vlink := l.val
    req := { op := 5, kind := 0, retain := 0, rank := 0, key := 0, ckptNo := w.ckptNo, frames := 0, slot := w.slot }
    slot := none, image := [], imagePoison := [], blocks := [], readers := [], status := 0, address := 0, count := 0
    allow := false, setSeed := false, outstanding := [] }

theorem ownImageAsked_leaves : Claims.ownImageAsked := by
  rintro s w l tag ⟨hown, hnew, hlink, htag⟩
  have hexec : exec (.ownImagePoll (linkHub l)) s = .next (s.beginOp (statusOp w l tag)) := by
    change execOwnImagePoll (linkHub l) s = _
    simp only [execOwnImagePoll, hown, List.foldl_cons, List.foldl_nil, hlink, hnew, htag, ne_eq, not_true_eq_false, decide_false,
      Bool.or_self, Bool.false_eq_true, if_false]
    rfl
  exact ⟨_, hexec, rfl, rfl, rfl, rfl, rfl⟩

/-- Settles O44: what each command of checkpoints and snapshots leaves where its conditions hold. -/
theorem checkpointCommands : Obligations.CheckpointCommands :=
  ⟨ckptRestore_leaves, ckptDrop_leaves, ckptList_leaves, checkpoint_leaves, snapshotSend_leaves, snapshotRead_leaves,
   ownImagePoll_leaves, ownImageAsked_leaves, beginOp_holds⟩

end Sys2Proof.Machine
end

section
/-!
PROOF. Retired rows, slices and pages, tests and scrubbing (Machine/Spares.lean, Machine/Reliab.lean): the statement O45. A command
that names a known unit acts on it; each claim's conditions choose one branch of its command.
-/
namespace Sys2Proof.Machine

variable {s : State} {u : UnitName}

/-! ### Rows, slices and pages (R533, R537 to R541) -/

/-- A row's slice is one of 16 (Table 15-11). -/
theorem slice_of_row {row : Fin 2048} : (Fin.ofNat 16 (row.val / 128)).val = row.val / 128 := by
  have := row.isLt
  exact Nat.mod_eq_of_lt (by omega)

theorem rowRetire_leaves : Claims.rowRetire := by
  rintro s hub bank row ⟨hspare, hslice⟩
  change Host.Outcome.next (s.retireRow hub bank row) = _
  simp only [State.retireRow, if_neg (Nat.not_le.mpr hspare), slice_of_row]
  have hfew : ¬ 128 - ((Claims.rowMoved s hub bank row).sliceRows (hub.val * 16 + bank.val) (row.val / 128)).length
      < ((Claims.rowMoved s hub bank row).sliceRows (hub.val * 16 + bank.val) (row.val / 128)).length := by omega
  exact congrArg _ (if_neg hfew)

theorem rowRetireNone_leaves : Claims.rowRetireNone := fun _ _ _ _ hnone => congrArg Host.Outcome.next (if_pos hnone)

/-- A hub has its spare slice until a slice of one of its banks has been replaced (Table 15-8). -/
theorem sparesLeft_slice_pos_iff (h : u.kind = 6) :
    0 < s.sparesLeft u ↔ s.rel.repair.sliceUsed.any (fun e => e.1 / 16 == u.hub) = false := by
  simp only [State.sparesLeft, h]
  cases s.rel.repair.sliceUsed.any (fun e => e.1 / 16 == u.hub) <;> simp

theorem sliceReplace_leaves : Claims.sliceReplace := by
  intro s hub bank slice hserves u r x
  have hspare : decide (0 < s.sparesLeft u) = true ↔ s.rel.repair.sliceUsed.any (fun e => e.1 / 16 == hub.val) = false :=
    decide_eq_true_iff.trans (sparesLeft_slice_pos_iff rfl)
  change Host.Outcome.next (s.replaceSlice hub bank slice) = _
  exact congrArg _ ((if_neg hserves).trans (if_congr hspare rfl rfl))

theorem pageRetire_leaves : Claims.pageRetire := by
  rintro s k f ⟨hserves, hreserve⟩ u r t
  have hmoves : ¬ (decide (u ∈ s.rel.repair.retired) || decide (s.reserveFree k = 0)) = true := by
    rw [Bool.or_eq_true, decide_eq_true_eq, decide_eq_true_eq]
    exact fun h => h.elim hserves (by omega)
  exact congrArg Host.Outcome.next (if_neg hmoves)

/-! ### Tests and their decisions (R530 to R533, R544, R545) -/

theorem onUnit_of_known {act : State → State} (h : knownUnit u = true) : s.onUnit u act = .next (act s) := if_pos h

/-- A unit above the movers in Table 15-11 takes no work of its own, so there is none to wait for. -/
theorem quiesce_of_no_work (h : 4 < u.kind) : s.quiesce u = s := by
  unfold State.quiesce
  dsimp only
  split
  case h_5 => rfl
  all_goals omega

theorem targetedTest_leaves : Claims.targetedTest := by
  rintro s u cls ⟨hknown, hlow, hhigh, hserves, hidle, hkind⟩ x p
  have htests : ¬ (decide (u ∈ s.rel.repair.retired) || s.rel.hubs[unitHub u].testing.any (fun t => t.unit == u)) = true := by
    rw [hidle, decide_eq_false hserves]
    exact Bool.false_ne_true
  have hsends : s.sendTest u cls.val = (s.finding u cls.val).setHealth (unitHub u) { x with
      testing := x.testing ++ [{ unit := u, field := false, since := s.tick, pack := p.1, packVersion := p.2, cls := cls.val }]
      due := x.due.filter (fun d => d.unit != u) } := by
    refine (if_neg htests).trans ?_
    rw [quiesce_of_no_work hkind]
    rfl
  refine (onUnit_of_known hknown).trans (congrArg _ ?_)
  rw [if_pos ⟨hlow, hhigh⟩, hsends]

theorem testDecision_leaves : Claims.testDecision := by
  rintro s u t ⟨hknown, htest⟩
  change execTestDecision u false s = _
  rw [execTestDecision, onUnit_of_known hknown]
  simp only [htest, Bool.false_eq_true, if_false]

theorem judgement_holds : Claims.judgement := by
  intro s t passed u held dec blind v v'
  have htransient : (!(!passed || held.1)) = true ↔ passed = true ∧ held.1 = false := by
    cases passed <;> cases held.1 <;> simp
  have hpermanent : (!passed || held.1) = true ↔ ¬ (passed = true ∧ held.1 = false) := by
    rw [← htransient, Bool.not_eq_true', Bool.not_eq_false]
  have hdec : (if !(!passed || held.1) then 1 else if 0 < s.sparesLeft u then 3 else 4) = dec := if_congr htransient rfl rfl
  change (if !passed || held.1 then _ else _) = _
  rw [if_congr hpermanent rfl rfl, ite_not]
  simp only [v', v, ← hdec]
  rfl

theorem historyCounts_holds : Claims.historyCounts := by
  intro s u cls now
  have hcount {k n c w : Nat} (hkind : u.kind = k) (hlimit : historyLimit k c = some (n, w)) (hslice : k ≠ 6) :
      (s.history u c now).1 = decide (n ≤ s.findingsIn u c now w) := by
    subst hkind
    simp only [State.history, if_neg hslice, hlimit]
  refine ⟨fun h => hcount h rfl ?_, fun h => hcount h rfl ?_, fun h => hcount h rfl ?_, fun h => hcount h rfl ?_,
    fun h => hcount h rfl ?_, fun h => hcount h rfl ?_, fun h => ?_⟩
  case refine_7 => simp only [State.history, h, if_true]
  all_goals decide

/-! ### Scrubbing (R521, R525 to R530, R586) -/

theorem scrubPass_leaves : Claims.scrubPass := by
  rintro s hub u holds ⟨hknown, hhub, hstorage, hserves, hon, hquench, hpower⟩ t
  have hreads : (decide (u.hub ≠ hub.val) || !isStorage u.kind || s.rel.hubs[hub].lost || !s.rel.hubs[hub].scrub.getLsbD 31
      || s.start.quench.state == 2) = false := by
    rw [hstorage, hserves, hon, beq_eq_false_iff_ne.mpr hquench, decide_eq_false (not_not_intro hhub)]
    rfl
  have hscrub (x : ScrubHolds) (f : ScrubFinding) : exec (.scrubPass hub u x f) s = execScrubPass hub u x f s := rfl
  simp only [hscrub, execScrubPass, onUnit_of_known hknown, hreads, Bool.false_eq_true, if_false, hpower]
  exact ⟨rfl, rfl, rfl, fun _ _ => rfl⟩

theorem poisonHome_holds : Claims.poisonHome := by
  rintro s k b h ⟨hhandle, hfate, hclean, hwithin⟩
  have hpoisons : ¬ (h.fate == Fate.keep || decide (b ∈ h.marks.poison) || decide (blockCount h.shape.size ≤ b)) = true := by
    rw [decide_eq_false hclean, decide_eq_false (Nat.not_le.mpr hwithin), beq_eq_false_iff_ne.mpr hfate]
    exact Bool.false_ne_true
  simp only [State.poisonHome, hhandle]
  exact if_neg hpoisons

/-- Settles O45: what each retirement, test and scrub leaves where its conditions hold, and what a test's judgement does. -/
theorem faultsRepairsAndScrubbing : Obligations.FaultsRepairsAndScrubbing :=
  ⟨rowRetire_leaves, rowRetireNone_leaves, sliceReplace_leaves, pageRetire_leaves, targetedTest_leaves, testDecision_leaves,
   judgement_holds, historyCounts_holds, scrubPass_leaves, poisonHome_holds⟩

end Sys2Proof.Machine
end

section
/-!
PROOF. Built-in self-test (Machine/Bist.lean): the statement O46. Lemmas say when a run may begin and what a slice of no unit that
passes leaves; each claim's conditions choose one branch of its command.
-/
namespace Sys2Proof.Machine

variable {s : State}

/-! ### The admin commands (R550, R561, R563) -/

theorem bistGrant_leaves : Claims.bistGrant := fun _ _ hacc => endsOk_of_accepts hacc rfl rfl

theorem bistResults_leaves : Claims.bistResults := by
  rintro s d r ⟨hacc, hrun⟩ rs
  refine congrArg Host.Outcome.next ((withDesc_of_accepts hacc).trans ?_)
  simp only [hrun]
  rfl

theorem bistFailView_leaves : Claims.bistFailView := fun _ _ hacc => congrArg Host.Outcome.next (withDesc_of_accepts hacc)

/-! ### Runs (R549 to R552, R561, R618) -/

theorem bistStart_leaves : Claims.bistStart := by
  rintro s ⟨hctxs, hring, hdirect, htest, hrun, hshut⟩
  have hidle (r : Ring) (h : s.ring? 0 = some r) : r.inflight.isEmpty = true := by simpa [h] using hring
  have hfree : s.ctxs.isEmpty = true := List.isEmpty_iff.mpr hctxs
  change Host.Outcome.next s.bistStart = _
  unfold State.bistStart
  refine congrArg Host.Outcome.next (if_neg ?_)
  rw [hfree, hdirect, hshut, beq_eq_false_iff_ne.mpr htest, beq_eq_false_iff_ne.mpr hrun]
  cases h : s.ring? 0 with
  | none => exact Bool.false_ne_true
  | some r => simp [hidle r h]

theorem bistStartRefused_leaves : Claims.bistStartRefused := by
  intro s hbusy
  change Host.Outcome.next s.bistStart = _
  unfold State.bistStart
  refine congrArg Host.Outcome.next (if_pos ?_)
  simp only [Bool.or_eq_true, beq_iff_eq, bne_iff_ne, Bool.not_eq_true', List.isEmpty_eq_false_iff]
  tauto

theorem beginRun_holds : Claims.beginRun := by
  intro s st kind budget t b
  refine ⟨rfl, rfl, rfl, rfl, rfl, rfl, rfl, rfl, rfl, rfl, rfl, fun r hr => ?_, rfl⟩
  obtain ⟨hmem, hrecent⟩ := List.mem_filter.mp hr
  exact ⟨hmem, of_decide_eq_true hrecent⟩

theorem shutdownTest_leaves : Claims.shutdownTest := by
  rintro s hub warm ⟨hserves, hshut, hrun, hquench⟩
  change execShutdownTest hub s = _
  simp only [execShutdownTest, hserves, hshut, beq_eq_false_iff_ne.mpr hrun, beq_eq_false_iff_ne.mpr hquench, Bool.or_self,
    Bool.false_eq_true, if_false]

/-! ### Slices (R551, R554, R556, R558, R561) -/

theorem sliceStart_leaves : Claims.sliceStart := by
  rintro s hub row unit asDue ⟨hruns, hgoes, hfree, hnext, hlink⟩ b r
  unfold Claims.sliceAt at hfree hnext
  have hmay : (!(s.rel.bist.state == 1 || s.rel.bist.state == 2) || decide (s.rel.bist.stopCause ≠ 0)
      || !s.placeFree { hub := hub.val, row := row.val, unit := unit.val }) = false := by
    rw [hfree, decide_eq_false (not_not_intro hgoes)]
    simpa [or_iff_not_imp_left] using hruns
  have hfirst : (s.rel.bist.ranThisRun.isEmpty && s.rel.bist.running.isEmpty) = true
      ↔ b.ranThisRun = [] ∧ b.running = [] := by
    rw [Bool.and_eq_true, List.isEmpty_iff, List.isEmpty_iff]
  change execSliceStart hub row unit s = _
  simp only [execSliceStart, hmay, hnext, hlink, ne_eq, not_true_eq_false, Bool.false_eq_true, if_false]
  rw [if_congr hfirst rfl rfl]
  rfl

theorem sliceEnd_leaves : Claims.sliceEnd := by
  intro s hub row unit r fails y hrunning
  unfold Claims.Pre.sliceEnd Claims.sliceAt at hrunning
  change execSliceEnd hub row unit r fails s = _
  simp only [execSliceEnd, hrunning]

theorem sliceTimeout_leaves : Claims.sliceTimeout := by
  intro s hub row unit y hrunning
  unfold Claims.Pre.sliceEnd Claims.sliceAt at hrunning
  change execSliceTimeout hub row unit s = _
  simp only [execSliceTimeout, hrunning]

theorem endSlice_holds : Claims.endSlice := by
  rintro s r ⟨hnone, hturn⟩ b c
  simp only [c, State.endSlice, hnone, hturn]
  refine ⟨rfl, rfl, rfl, rfl, rfl, rfl, rfl, fun hrow => ?_, fun hrow => ?_⟩
  · exact if_neg (by simp [hrow])
  · exact if_neg (by simp [hrow])

/-- Settles O46: what each command of self-test leaves where its conditions hold, and what beginning a run and ending a slice do. -/
theorem selfTestRuns : Obligations.SelfTestRuns :=
  ⟨bistGrant_leaves, bistResults_leaves, bistFailView_leaves, bistStart_leaves, bistStartRefused_leaves, beginRun_holds,
   shutdownTest_leaves, sliceStart_leaves, sliceEnd_leaves, sliceTimeout_leaves, endSlice_holds⟩

end Sys2Proof.Machine
end

section
/-!
PROOF. In-field tests, calibration and the retention monitor (Machine/Bist.lean, Machine/Calib.lean): the statement O47. A due unit's
turn, its boundary and its age choose a branch of each command; the fields of a stack's calibration name say which stack has
drifted.
-/
namespace Sys2Proof.Machine

variable {s : State} {u : UnitName}

/-! ### In-field tests (R564 to R568) -/

theorem bistFieldNow_leaves : Claims.bistFieldNow := fun _ _ hacc => endsOk_of_accepts hacc rfl rfl

theorem fieldTestDue_leaves : Claims.fieldTestDue := by
  rintro s u b ⟨hknown, hready, hbit, hkind, hhours, hdue⟩ x t
  change execFieldTestDue u s = _
  rw [execFieldTestDue, onUnit_of_known hknown]
  simp only [hready, hbit, hkind, hhours, ne_eq, not_false_eq_true, decide_true, decide_eq_true hdue, Bool.and_self, if_true]
  rfl

theorem fieldTestStart_leaves : Claims.fieldTestStart := by
  rintro s u ⟨hknown, hturn, hboundary, hcore⟩
  change execFieldTestStart u s = _
  rw [execFieldTestStart, onUnit_of_known hknown]
  simp only [hturn, hboundary, Bool.and_self, if_true, State.startField, Claims.fieldBegins, hcore]

theorem fieldTestEnd_leaves : Claims.fieldTestEnd := by
  rintro s u t ⟨hknown, htest⟩
  change execFieldTestEnd u false s = _
  rw [execFieldTestEnd, onUnit_of_known hknown]
  simp only [htest, Bool.false_eq_true, if_false]

/-- A unit's first state leaves the time alone. -/
theorem reinit_tick : (s.reinit u).tick = s.tick := by
  unfold State.reinit
  dsimp only
  split <;> rfl

/-- A unit's return leaves the time alone. -/
theorem returnUnit_tick : (s.returnUnit u).tick = s.tick := by
  unfold State.returnUnit
  dsimp only
  split
  · split <;> rfl
  · rfl
  · split <;> rfl
  · rfl

/-- A passed in-field test ends at the time it began to end. -/
theorem fieldReturn_tick {e : Event} {h : Hub} :
    ((if u.kind = 4 then ((s.testOver u).event h e).bumpEpoch u else ((s.testOver u).event h e).reinit u).returnUnit u).tick
      = s.tick := by
  rw [returnUnit_tick]
  split
  · exact event_tick
  · exact reinit_tick.trans event_tick

theorem fieldTestPass_leaves : Claims.fieldTestPass := by
  rintro s u t ⟨hknown, htest⟩ v w x
  change execFieldTestEnd u true s = _
  rw [execFieldTestEnd, onUnit_of_known hknown, ← show w.tick = s.tick from fieldReturn_tick]
  simp only [htest, if_true]
  rfl

theorem deferTimeout_leaves : Claims.deferTimeout := by
  rintro s u d ⟨hknown, hturn, hlane, hdue⟩ v
  change execDeferTimeout u s = _
  rw [execDeferTimeout, onUnit_of_known hknown]
  simp only [hturn, if_pos (And.intro hlane hdue)]
  rfl

/-! ### Calibration (R148, R598 to R600, R647) -/

theorem calibrationRecheck_leaves : Claims.calibrationRecheck := by
  intro s n hprovisional
  have hgoes : ¬ (!s.pwr.cal.any (fun e => e.1 == n && e.2 == CalState.provisional)) = true := by
    rw [show s.pwr.cal.any (fun e => e.1 == n && e.2 == CalState.provisional) = true from hprovisional]
    exact Bool.false_ne_true
  exact ⟨if_neg hgoes, if_neg hgoes⟩

/-- An event is a matter of its hub's recorder alone. -/
@[simp] theorem event_units {h : Hub} {e : Event} : (s.event h e).units = s.units := by
  unfold State.event
  dsimp only
  split
  · rfl
  · split <;> rfl

/-- The name of a stack's calibration holds its kind, its hub and its number (Table 17-9). -/
theorem stackCal_fields : ∀ k : Stack,
    bitsOf (BitVec.ofNat 16 (4096 + k.val / 2 * 256 + k.val)).toNat 15 12 = 1
      ∧ bitsOf (BitVec.ofNat 16 (4096 + k.val / 2 * 256 + k.val)).toNat 11 8 = k.val / 2
      ∧ bitsOf (BitVec.ofNat 16 (4096 + k.val / 2 * 256 + k.val)).toNat 7 0 = k.val := by decide

/-- The drift of a stack's calibration goes to the stack (R600). -/
theorem drifted_of_stack {n : BitVec 16} {k : Stack} (hkind : bitsOf n.toNat 15 12 = 1) (hhub : bitsOf n.toNat 11 8 = k.val / 2)
    (hnumber : bitsOf n.toNat 7 0 = k.val) (hserves : s.unitState (.umbra k) = .inService) :
    s.drifted n = (({ s with pwr := { s.pwr with
      cal := s.pwr.cal.filter (fun e => e.1 ≠ n) ++ [(n, CalState.drift)] } } : State).event (hubOf (k.val / 2))
        (ev 0x0082 1 n.toNat)).setUnit (.umbra k) .reduced := by
  have hk := k.isLt
  have hhubNo : (hubOf (k.val / 2)).val = k.val / 2 := Nat.mod_eq_of_lt (by omega)
  have hfew : ¬ 3 < k.val / 2 := by omega
  unfold State.drifted
  extract_lets kind h no known rest v w x u
  have hh : h = hubOf (k.val / 2) := congrArg hubOf hhub
  have hu : u = .umbra k := congrArg TierUnit.umbra ((congrArg (Fin.ofNat 8) hnumber).trans (Fin.ofNat_val_eq_self k))
  have hnamed : (!known || decide (3 < bitsOf n.toNat 11 8)) = false := by
    simp only [known, kind, no, hh, hkind, hhub, hnumber, hhubNo, hk, hfew, decide_true, decide_false, Bool.true_and, Bool.true_or,
      Bool.not_true, Bool.or_self]
  have hin : (x.unitState u == UnitState.inService) = true := by
    have hkeeps : x.unitState u = s.unitState (.umbra k) := by
      simp only [hu, State.unitState, x, event_units, w]
    rw [hkeeps, hserves]
    rfl
  rw [hnamed, if_neg Bool.false_ne_true, if_pos (show kind = 1 from hkind), if_pos hin, hu,
    show x = w.event (hubOf (k.val / 2)) (ev 0x0082 1 n.toNat) from congrArg (w.event · _) hh]

theorem driftCheck_leaves : Claims.driftCheck := fun _ k hserves =>
  let ⟨hkind, hhub, hnumber⟩ := stackCal_fields k
  ⟨congrArg Host.Outcome.next (drifted_of_stack hkind hhub hnumber hserves), rfl⟩

theorem recalibrationDone_leaves : Claims.recalibrationDone := by
  intro s k hreduced
  have hstate : (s.unitState (.umbra k) != UnitState.reduced) = false := by
    rw [show s.unitState (.umbra k) = .reduced from hreduced]
    rfl
  change execRecalibrationDone k s = _
  simp only [execRecalibrationDone, hstate, Bool.false_eq_true, if_false, decide_eq_true_eq]

theorem retentionMonitor_leaves : Claims.retentionMonitor := fun _ _ => rfl

/-- Settles O47: what in-field tests, re-checks of calibration and the retention monitor leave where the claims' conditions hold. -/
theorem fieldTestsAndCalibration : Obligations.FieldTestsAndCalibration :=
  ⟨bistFieldNow_leaves, fieldTestDue_leaves, fieldTestStart_leaves, fieldTestEnd_leaves, fieldTestPass_leaves, deferTimeout_leaves,
   calibrationRecheck_leaves, driftCheck_leaves, recalibrationDone_leaves, retentionMonitor_leaves⟩

end Sys2Proof.Machine
end

section
/-!
PROOF. What a record, an alert, a NOTICE and a link's state leave alone: the parts of the state that do the work. A quench and the
end of a pace window tell the outside of themselves, and change nothing else of these parts.
-/
namespace Sys2Proof.Machine

variable {s : State}

/-- The parts of the state that an event, an alert or a NOTICE does not reach. -/
structure Works where
  tick : Nat
  hs : HandleStore
  ctxs : List Ctx
  units : UnitStore
  codec : CodecStore
  eng : EngineStore
  mov : MoverStore
  lnk : LinkStore
  pwr : PowerStore
  fw : Firmware
  store : Store
  level : Level
  umbra : Bool
  umbraMs : BitVec 12
  umbraOut : BitVec 8
  links : Bool
  linksMs : BitVec 12
  cold : Bool
  quench : Quench
  shut : ShutState
  pace : Bool
  off : Bool
  spi : Bool

/-- The works of a state. -/
def State.works (s : State) : Works :=
  { tick := s.tick, hs := s.hs, ctxs := s.ctxs, units := s.units, codec := s.codec, eng := s.eng, mov := s.mov, lnk := s.lnk
    pwr := s.pwr, fw := s.fw, store := s.evt.store, level := s.start.level, umbra := s.start.umbra, umbraMs := s.start.umbraMs
    umbraOut := s.start.umbraOut, links := s.start.links, linksMs := s.start.linksMs, cold := s.start.storeCold
    quench := s.start.quench, shut := s.start.shut, pace := s.start.pins.paceOut, off := s.start.pins.offReady
    spi := s.start.pins.spiActive }

/-! ### Records, alerts and NOTICEs -/

theorem ite_works {p : Prop} [Decidable p] {a b : State} {w : Works} (ha : a.works = w) (hb : b.works = w) :
    (if p then a else b).works = w := by
  split
  · exact ha
  · exact hb

@[simp] theorem event_works {h : Hub} {e : Event} : (s.event h e).works = s.works := by
  unfold State.event
  dsimp only
  split
  · rfl
  · split <;> rfl

theorem event_host {h : Hub} {e : Event} : (s.event h e).host = s.host := by
  unfold State.event
  dsimp only
  split
  · rfl
  · split <;> rfl

theorem event_auth {h : Hub} {e : Event} : (s.event h e).evt.auth = s.evt.auth := by
  unfold State.event
  dsimp only
  split
  · rfl
  · split <;> rfl

@[simp] theorem eventAll_works {e : Event} : (s.eventAll e).works = s.works := by
  simp only [State.eventAll, event_works]

@[simp] theorem interrupt_works {was : Bool} : (s.interrupt was).works = s.works := by
  unfold State.interrupt
  dsimp only
  split <;> rfl

@[simp] theorem alert_works {b : Fin 8} : (s.alert b).works = s.works := interrupt_works

@[simp] theorem post_works {ring ssl kind : Nat} {uns xres : Bool} {st : BitVec 8} {fl : BitVec 3} {res : BitVec 64} :
    (s.post ring uns ssl st fl xres kind res).works = s.works := by
  unfold State.post
  split
  · rfl
  · dsimp only
    split
    · rfl
    · split
      · split
        · rfl
        · exact event_works
      · rfl

@[simp] theorem notice_works {code detail : Nat} : (s.notice code detail).works = s.works := by
  unfold State.notice
  split
  · exact post_works
  · rfl

/-! ### The states of links -/

@[simp] theorem peerUp_links {pkg : BitVec 64} : (s.peerUp pkg).lnk.links = s.lnk.links := by
  unfold State.peerUp
  split
  · rfl
  · split
    · split <;> rfl
    · rfl

@[simp] theorem peerUp_works {pkg : BitVec 64} : (s.peerUp pkg).works = { s.works with lnk := (s.peerUp pkg).lnk } := by
  unfold State.peerUp
  split
  · rfl
  · split
    · split <;> rfl
    · rfl

/-- An event leaves the links alone. -/
theorem event_lnk {h : Hub} {e : Event} : (s.event h e).lnk = s.lnk := congrArg Works.lnk event_works

theorem linkState_works {l : LinkNo} {st : LState} :
    (s.linkState l st).works = { s.works with lnk := (s.linkState l st).lnk } := by
  unfold State.linkState
  dsimp only
  split
  · rw [peerUp_works, event_works]
    rfl
  · rw [event_works, event_lnk]
    rfl

/-- A link's state is its own alone. -/
theorem linkState_state {l m : LinkNo} {st : LState} :
    (s.linkState l st).lnk.links[m].state = if m = l then st else s.lnk.links[m].state := by
  have hlinks : (s.linkState l st).lnk.links = Vector.set s.lnk.links l.val { s.lnk.links[l] with state := st } := by
    unfold State.linkState
    dsimp only
    split
    · rw [peerUp_links, event_lnk]
      rfl
    · rw [event_lnk]
      rfl
  simp only [hlinks, Fin.getElem_fin, Vector.getElem_set, Fin.ext_iff, eq_comm (a := m.val)]
  split <;> rfl

/-! ### Quench (R620, R621) -/

/-- A link is quenched and leaves its session (R408, R620). -/
def quenchLink (s : State) (l : LinkNo) : State := (s.leaveSession l).linkState l .quenched

theorem foldl_quenchLink_works (ls : List LinkNo) :
    ∀ s : State, (ls.foldl quenchLink s).works = { s.works with lnk := (ls.foldl quenchLink s).lnk } := by
  induction ls with
  | nil => exact fun _ => rfl
  | cons l ls ih =>
    intro s
    rw [List.foldl_cons, ih, quenchLink, linkState_works]
    rfl

theorem foldl_quenchLink_state (ls : List LinkNo) (m : LinkNo) :
    ∀ s : State, m ∈ ls ∨ s.lnk.links[m].state = .quenched → (ls.foldl quenchLink s).lnk.links[m].state = .quenched := by
  induction ls with
  | nil => exact fun _ h => h.resolve_left List.not_mem_nil
  | cons l ls ih =>
    intro s h
    refine ih _ ?_
    have hstate : (quenchLink s l).lnk.links[m].state = if m = l then .quenched else s.lnk.links[m].state := linkState_state
    rw [hstate]
    by_cases hm : m = l
    · exact .inr (if_pos hm)
    · exact h.imp (fun hmem => (List.mem_cons.mp hmem).resolve_left hm) (fun hq => (if_neg hm).trans hq)

theorem linksQuenched_eq : s.linksQuenched = (List.finRange 32).foldl quenchLink s := rfl

theorem linksQuenched_works : s.linksQuenched.works = { s.works with lnk := s.linksQuenched.lnk } := by
  rw [linksQuenched_eq]
  exact foldl_quenchLink_works _ _

theorem linksQuenched_state (m : LinkNo) : s.linksQuenched.lnk.links[m].state = .quenched := by
  rw [linksQuenched_eq]
  exact foldl_quenchLink_state _ m _ (.inl (List.mem_finRange m))

/-- The works once a quench has begun, but for what its links keep (R620, R621). -/
def quenchedWorks (s : State) (c : QuenchCause) (k : LinkStore) : Works :=
  { s.works with
    lnk := k
    quench := { s.start.quench with
      state := 2, cause := BitVec.ofNat 3 (quenchCode c), timerFrom := none, clearReady := false,
      wiringFault := s.start.quench.wiringFault || c == .wiring, highSince := s.tick }
    shut := .none
    off := true
    spi := false
    units := { s.units with selfRefresh := Vector.replicate 8 true } }

/-- A quench changes no more of the works than it says, and every link is QUENCHED. -/
theorem quenchNow_works {c : QuenchCause} (hno : s.start.quench.state ≠ 2) :
    ∃ k : LinkStore, (s.quenchNow c).works = quenchedWorks s c k ∧ ∀ m : LinkNo, k.links[m].state = .quenched := by
  unfold State.quenchNow
  rw [if_neg (by simpa using hno)]
  extract_lets q was a pins b d e f g r x y z w
  have hx : x.works = f.works := by
    unfold x
    split <;> rfl
  have hw : w.works = y.works := by
    unfold w
    split <;> simp only [z, alert_works]
  refine ⟨x.linksQuenched.lnk, ?_, linksQuenched_state⟩
  rw [notice_works, eventAll_works, interrupt_works, hw, show y = x.linksQuenched from rfl, linksQuenched_works, hx]
  rfl

/-- Whatever it finds, a quench leaves the power manager and PACE_OUT alone. -/
theorem quenchNow_power {c : QuenchCause} :
    (s.quenchNow c).pwr = s.pwr ∧ (s.quenchNow c).start.pins.paceOut = s.start.pins.paceOut := by
  by_cases hno : s.start.quench.state = 2
  · rw [show s.quenchNow c = s from if_pos (beq_iff_eq.mpr hno)]
    exact ⟨rfl, rfl⟩
  · obtain ⟨_, hworks, _⟩ := quenchNow_works (c := c) hno
    exact ⟨congrArg Works.pwr hworks, congrArg Works.pace hworks⟩

theorem ite_quenchNow_power {p : Prop} [Decidable p] {c : QuenchCause} :
    (if p then s.quenchNow c else s).pwr = s.pwr
      ∧ (if p then s.quenchNow c else s).start.pins.paceOut = s.start.pins.paceOut := by
  split
  · exact quenchNow_power
  · exact ⟨rfl, rfl⟩

/-! ### Modes, caps and domains (chapter 17) -/

theorem pwrModeWrite_leaves : Claims.pwrModeWrite := fun _ _ => rfl

/-- Bit 31 of a value and a number of watts below it, as PWR_CAP holds them (Table 17-9). -/
theorem cap_fields {v : BitVec 32} {w : Nat} (hw : w < 2 ^ 31) :
    ((v &&& 0x80000000#32) ||| BitVec.ofNat 32 w).getLsbD 31 = v.getLsbD 31
      ∧ bitsOf ((v &&& 0x80000000#32) ||| BitVec.ofNat 32 w).toNat 30 0 = w := by
  have hhigh : (BitVec.ofNat 32 w).getLsbD 31 = false := by
    rw [BitVec.getLsbD_ofNat, Nat.testBit_lt_two_pow hw, Bool.and_false]
  constructor
  · rw [BitVec.getLsbD_or, BitVec.getLsbD_and, hhigh, Bool.or_false, show (0x80000000#32).getLsbD 31 = true from rfl, Bool.and_true]
  · have hmask : (v.toNat &&& 2147483648) % 2 ^ 31 = 0 := by
      rw [Nat.and_mod_two_pow, show 2147483648 % 2 ^ 31 = 0 from rfl, Nat.and_zero]
    have hsmall : w % 2 ^ 32 % 2 ^ 31 = w := by omega
    rw [bitsOf, BitVec.toNat_or, BitVec.toNat_and, BitVec.toNat_ofNat, BitVec.toNat_ofNat, Nat.shiftRight_zero]
    change (_ ||| _) % 2 ^ 31 = w
    rw [Nat.or_mod_two_pow, show 2147483648 % 2 ^ 32 = 2147483648 from rfl, hmask, hsmall, Nat.zero_or]

theorem pwrCapWrite_leaves : Claims.pwrCapWrite := by
  intro s v
  obtain ⟨hlend, hwatts⟩ := cap_fields (v := v) (w := max 200 (min 850 (bitsOf v.toNat 11 0))) (by omega)
  exact ⟨_, rfl, hlend, hwatts⟩

theorem retainEntry_leaves : Claims.retainEntry := by
  rintro s h d t ⟨hmay, hon, hstalled, hwaiting, hidle, hpos, hlong⟩
  change execRetainEntry h d s = _
  have hgo : (mayRetain d.val && (s.pwr.hubs[h].dom d.val).state == .on && (s.pwr.hubs[h].dom d.val).stalled == 0
      && !(s.pwr.hubs[h].dom d.val).longWaiting
      && decide (0 < s.pwr.hubs[h].idleTicks d.val ∧ s.pwr.hubs[h].idleTicks d.val ≤ s.tick - t)) = true := by
    rw [hmay, hon, hstalled, hwaiting, decide_eq_true (And.intro hpos hlong)]
    rfl
  simp only [execRetainEntry, hidle, hgo, if_true]
  rfl

theorem wakeRequest_leaves : Claims.wakeRequest := by
  rintro s h d ⟨hretain, hrail, hfree⟩
  change execWakeRequest h d s = _
  simp only [execWakeRequest, hretain, beq_self_eq_true, if_true, if_neg (Nat.not_le.mpr hrail), HubPower.upd, hfree,
    List.not_mem_nil, if_false, List.isEmpty_nil, List.nil_append]

theorem rampDone_leaves : Claims.rampDone := by
  intro s h d hslot
  change execRampDone h false s = _
  simp only [execRampDone, Bool.false_eq_true, if_false, hslot]

theorem domainOn_leaves : Claims.domainOn := by
  rintro s h d ⟨hramping, hrestoring⟩
  have hgo : ((s.pwr.hubs[h].dom d.val).state == .ramping && (s.pwr.hubs[h].dom d.val).restoring) = true := by
    rw [hramping, hrestoring]
    rfl
  exact if_pos hgo

/-- An event leaves the units' health alone. -/
theorem event_rel {h : Hub} {e : Event} : (s.event h e).rel = s.rel := by
  unfold State.event
  dsimp only
  split
  · rfl
  · split <;> rfl

/-! ### Alignment and TBCLK (R577, R578) -/

theorem align_leaves : Claims.align := fun _ => rfl

theorem alignRetry_leaves : Claims.alignRetry := by
  intro s htries
  have htries3 : s.pwr.alignTries + 1 < 3 := Nat.succ_lt_succ htries
  exact if_pos htries3

theorem pllLockTimeout_leaves : Claims.pllLockTimeout := by
  intro s h hlost
  have hstill : ((s.setPower h { s.pwr.hubs[h] with pllLocked := false }).event h (ev 0x0015 3 0)).rel.hubs[h].lost = true :=
    (congrArg (fun r : Reliability => r.hubs[h].lost) event_rel).trans hlost
  exact congrArg Host.Outcome.next (if_pos hstill)

theorem tbclkLoss_leaves : Claims.tbclkLoss := fun _ => rfl

/-! ### Pace windows (R572 to R597) -/

theorem setPower_hubs_self {h : Hub} {p : HubPower} : (s.setPower h p).pwr.hubs[h] = p := Vector.getElem_set_self h.isLt

theorem setPower_hubs_of_ne {g h : Hub} {p : HubPower} (hne : g ≠ h) : (s.setPower g p).pwr.hubs[h] = s.pwr.hubs[h] :=
  Vector.getElem_set_ne g.isLt h.isLt (Fin.val_ne_of_ne hne)

/-- One hub's window changes its own latched values, and nothing else of the power manager's. -/
theorem hubWindow_power {samples : List HubSample} {al : List (List (Nat × Nat × Nat))} {paced : Bool} {h : Hub} :
    (s.hubWindow samples al paced h).pwr = (s.setPower h (s.pwr.hubs[h].latch paced (s.pwr.mgr.mode.getLsbD 0) s.pwr.mgr
        (samples.getD h.val emptySample) (al.getD h.val [])).1).pwr
      ∧ (s.hubWindow samples al paced h).start.pins.paceOut = s.start.pins.paceOut := by
  unfold State.hubWindow
  extract_lets m p
  obtain ⟨q, slip⟩ := p.latch paced (s.pwr.mgr.mode.getLsbD 0) s.pwr.mgr m (al.getD h.val [])
  have hslip {c : Prop} [Decidable c] {e : Event} :
      (if c then (s.setPower h q).event h e else s.setPower h q).works = (s.setPower h q).works := ite_works event_works rfl
  have hhot {b c : Prop} [Decidable b] [Decidable c] {d e : Event} :
      (if b then ((if c then (s.setPower h q).event h d else s.setPower h q).event h e).alert 5
        else if c then (s.setPower h q).event h d else s.setPower h q).works = (s.setPower h q).works :=
    ite_works (alert_works.trans (event_works.trans hslip)) hslip
  exact ⟨ite_quenchNow_power.1.trans (congrArg Works.pwr hhot), ite_quenchNow_power.2.trans (congrArg Works.pace hhot)⟩

/-- Every hub whose window ends counts it; the manager's own values and PACE_OUT stay for PACE_WINDOW_END to change (R572). -/
theorem foldl_hubWindow {samples : List HubSample} {al : List (List (Nat × Nat × Nat))} {paced : Bool} (hs : List Hub) :
    ∀ s : State, let t := hs.foldl (fun s h => s.hubWindow samples al paced h) s
      t.start.pins.paceOut = s.start.pins.paceOut
        ∧ ∀ h : Hub, t.pwr.hubs[h].windows = s.pwr.hubs[h].windows + hs.count h := by
  induction hs with
  | nil => exact fun _ => ⟨rfl, fun _ => rfl⟩
  | cons g hs ih =>
    intro s
    obtain ⟨hpwr, hpace⟩ := hubWindow_power (s := s) (samples := samples) (al := al) (paced := paced) (h := g)
    obtain ⟨ihpace, ihwindows⟩ := ih (s.hubWindow samples al paced g)
    refine ⟨ihpace.trans hpace, fun h => (ihwindows h).trans ?_⟩
    have hone : (s.hubWindow samples al paced g).pwr.hubs[h].windows = s.pwr.hubs[h].windows + if g = h then 1 else 0 := by
      rw [hpwr]
      by_cases hg : g = h
      · subst hg
        rw [setPower_hubs_self, if_pos rfl]
        rfl
      · rw [setPower_hubs_of_ne hg, if_neg hg, Nat.add_zero]
    rw [hone, List.count_cons, Nat.add_right_comm, Nat.add_assoc]
    simp only [beq_iff_eq]

/-- CLEAR_READY is no power's and no pin's. -/
theorem refreshClear_pwr : s.refreshClear.pwr = s.pwr := by
  unfold State.refreshClear
  split <;> rfl

theorem refreshClear_pins : s.refreshClear.start.pins = s.start.pins := by
  unfold State.refreshClear
  split <;> rfl

theorem paceWindowEnd_leaves : Claims.paceWindowEnd := by
  intro s samples hend
  change ∃ t, execPaceWindowEnd samples s = .next t ∧ _
  rw [execPaceWindowEnd, if_neg (not_not_intro hend)]
  extract_lets m wasPaced a excess al total lent w m' pins x y z u v p capped e r
  have hv : v.works = u.works := ite_works eventAll_works rfl
  have hr : r.works = v.works ∨ r.works = capped.works := by
    unfold r
    split
    · exact .inr (by rw [notice_works, alert_works, event_works])
    · exact .inl rfl
  have hvmgr : v.pwr.mgr = m' := congrArg (·.pwr.mgr) hv
  have hvhubs : v.pwr.hubs = w.pwr.hubs := congrArg (·.pwr.hubs) hv
  have hvpace : v.start.pins.paceOut = !w.start.pins.paceOut := congrArg (·.pace) hv
  have hcapped (h : Hub) : capped.pwr.hubs[h].windows = v.pwr.hubs[h].windows := by
    simp only [capped, Fin.getElem_fin, Vector.getElem_map]
  have hleft : r.pwr.mgr = m' ∧ (∀ h : Hub, r.pwr.hubs[h].windows = w.pwr.hubs[h].windows)
      ∧ r.start.pins.paceOut = !w.start.pins.paceOut := by
    rcases hr with hr | hr
    all_goals
      have hpwr : r.pwr = _ := congrArg (·.pwr) hr
      have hpace : r.start.pins.paceOut = _ := congrArg (·.pace) hr
      rw [hpwr, hpace]
    · exact ⟨hvmgr, fun h => by rw [show v.works.pwr.hubs = _ from hvhubs], hvpace⟩
    · exact ⟨hvmgr, fun h => (hcapped h).trans (by rw [hvhubs]), hvpace⟩
  obtain ⟨hmgr, hwindows, hpace⟩ := hleft
  obtain ⟨hpaceOut, hcounted⟩ := foldl_hubWindow (al := al) (List.finRange 4) s
  refine ⟨_, rfl, ?_⟩
  rw [refreshClear_pwr, refreshClear_pins, hmgr]
  refine ⟨rfl, rfl, rfl, rfl, rfl, rfl, fun h => ?_, hpace.trans (congrArg _ hpaceOut)⟩
  rw [hwindows, hcounted, List.count_eq_one_of_mem (List.nodup_finRange 4) (List.mem_finRange h)]

theorem paceMode_leaves : Claims.paceMode := by
  intro p resume failed
  have hfifth : (p.clean + 1 == 5) = (p.clean == 4) := by rw [Bool.eq_iff_iff, beq_iff_eq, beq_iff_eq, Nat.succ_inj]
  refine ⟨fun _ => rfl, rfl, fun hsteady => ?_, fun hslipping => ?_⟩
  · simp only [paceAfter, Bool.not_true, Bool.false_eq_true, if_false, beq_eq_false_iff_ne.mpr hsteady]
  · simp only [paceAfter, Bool.not_true, Bool.false_eq_true, if_false, hslipping, beq_self_eq_true, if_true, Bool.and_eq_true,
      hfifth, beq_iff_eq]

theorem budgetWithdraw_leaves : Claims.budgetWithdraw := fun _ _ _ => rfl

/-- Settles O48: what power modes, domains, alignment and pace windows leave where the claims' conditions hold. -/
theorem powerPaceAndTiming : Obligations.PowerPaceAndTiming :=
  ⟨pwrModeWrite_leaves, pwrCapWrite_leaves, retainEntry_leaves, wakeRequest_leaves, rampDone_leaves, domainOn_leaves, align_leaves,
   alignRetry_leaves, pllLockTimeout_leaves, tbclkLoss_leaves, paceWindowEnd_leaves, paceMode_leaves, budgetWithdraw_leaves⟩

/-! ### Quench and ALERT_N (R620 to R623, R632) -/

/-- A value other than 0 has a bit that is 1. -/
theorem ne_zero_iff_exists_bit {w : Nat} {x : BitVec w} : x ≠ 0 ↔ ∃ i < w, x.getLsbD i = true := by
  constructor
  · intro hne
    by_contra hnone
    refine hne (BitVec.eq_of_getLsbD_eq fun i hi => ?_)
    rw [show (0 : BitVec w) = 0#w from rfl, BitVec.getLsbD_zero]
    exact Bool.eq_false_iff.mpr fun hbit => hnone ⟨i, hi, hbit⟩
  · rintro ⟨i, _, hbit⟩ rfl
    rw [show (0 : BitVec w) = 0#w from rfl, BitVec.getLsbD_zero] at hbit
    exact Bool.false_ne_true hbit

theorem alertPin_leaves : Claims.alertPin := by
  intro s
  rw [State.alertN, Bool.or_eq_true, bne_iff_ne, ne_zero_iff_exists_bit, beq_iff_eq]
  simp only [BitVec.getLsbD_and, Bool.and_eq_true]

theorem quenchChannel_leaves : Claims.quenchChannel := by
  rintro s b high ⟨hmoves, hoff, hreset, hno⟩ q
  have hsame : (if b then s.start.quench.bHigh == high else s.start.quench.aHigh == high) = false := by
    cases b <;> exact beq_eq_false_iff_ne.mpr hmoves
  have hlevel : (s.start.level == Level.off || s.start.level == Level.reset) = false := by
    rw [beq_eq_false_iff_ne.mpr hoff, beq_eq_false_iff_ne.mpr hreset]
    rfl
  have hquiet : (q.state == 2) = false := by
    rw [show q.state = s.start.quench.state by unfold q Claims.moved; split <;> rfl, beq_eq_false_iff_ne.mpr hno]
  have hother : (if b then s.start.quench.aHigh else s.start.quench.bHigh) = Claims.channel q (!b) := by
    cases b <;> rfl
  change execQuenchChannel b high s = _
  unfold execQuenchChannel
  extract_lets q0 same other q1
  rw [if_neg (by rw [show same = false from hsame]; exact Bool.false_ne_true), if_neg (by rw [hlevel]; exact Bool.false_ne_true)]
  change (if (q.state == 2) = true then _ else _) = _
  rw [if_neg (by rw [hquiet]; exact Bool.false_ne_true), show other = Claims.channel q (!b) from hother]
  cases high with
  | false => cases hc : Claims.channel q (!b) <;> rfl
  | true => exact (if_congr beq_iff_eq rfl rfl).trans (apply_ite Host.Outcome.next _ _ _).symm

theorem discrepancyExpiry_leaves : Claims.discrepancyExpiry := by
  rintro s t ⟨hfrom, hstate, hdiffer, hdue⟩
  have hgo : (s.start.quench.state == 1 && s.start.quench.aHigh != s.start.quench.bHigh
      && decide (t + s.start.quench.timerMs * msTicks ≤ s.tick)) = true := by
    rw [hstate, bne_iff_ne.mpr hdiffer, decide_eq_true hdue]
    rfl
  change execDiscrepancyExpiry s = _
  simp only [execDiscrepancyExpiry, hfrom, hgo, if_true]
  rfl

theorem quench_leaves : Claims.quench := by
  intro s c hno
  obtain ⟨k, hworks, hlinks⟩ := quenchNow_works (c := c) hno
  refine ⟨s.quenchNow c, rfl, ?_⟩
  have hquench := congrArg Works.quench hworks
  have hunits := congrArg Works.units hworks
  have hlnk := congrArg Works.lnk hworks
  refine ⟨congrArg Quench.state hquench, congrArg Quench.cause hquench, congrArg Quench.clearReady hquench,
    congrArg Quench.timerFrom hquench, congrArg Works.shut hworks, congrArg Works.off hworks, congrArg Works.spi hworks,
    fun l => ?_, fun k => ?_, congrArg Works.hs hworks, congrArg Works.ctxs hworks, congrArg Works.mov hworks,
    congrArg Works.eng hworks, congrArg Works.codec hworks⟩
  · exact (congrArg (fun x : LinkStore => x.links[l].state) hlnk).trans (hlinks l)
  · exact (congrArg (fun x : UnitStore => x.selfRefresh[k]) hunits).trans (Vector.getElem_replicate k.isLt)

theorem quenchAgain_leaves : Claims.quenchAgain := fun _ _ hstate => congrArg Host.Outcome.next (if_pos (beq_iff_eq.mpr hstate))

theorem clearReady_leaves : Claims.clearReady := fun _ hclear => if_pos hclear

theorem clearReadyWhen_leaves : Claims.clearReadyWhen := by
  intro s
  simp only [State.clearable, Bool.and_eq_true, Bool.or_eq_true, beq_iff_eq, bne_iff_ne, ne_eq, decide_eq_true_eq, or_assoc,
    and_assoc, List.all_eq_true, ← imp_iff_not_or]

theorem quenchClear_leaves : Claims.quenchClear := by
  intro s
  refine ⟨fun hnot => ?_, fun hready => ⟨_, congrArg Host.Outcome.next (if_pos hready), rfl⟩⟩
  exact congrArg Host.Outcome.next (if_neg (by rw [hnot]; exact Bool.false_ne_true))

/-- Settles O49: ALERT_N as R632 says, and what the quench channels, a quench and its CLEAR leave. -/
theorem alertAndQuench : Obligations.AlertAndQuench :=
  ⟨alertPin_leaves, quenchChannel_leaves, discrepancyExpiry_leaves, quench_leaves, quenchAgain_leaves, clearReady_leaves,
   clearReadyWhen_leaves, quenchClear_leaves⟩

end Sys2Proof.Machine
end

section
/-!
PROOF. Firmware slots and signed images (Machine/Start.lean): the statement O50. Small lemmas say what a slot's replacement leaves of
the slots and which slot is active; each command's proof follows the branch its claim's condition names.
-/
namespace Sys2Proof.Machine

variable {s : State} {f : Firmware} {x : FwSlot} {i : Nat}

/-! ### The two slots (R630) -/

theorem isActive_iff : x.isActive = true ↔ x.state = .active ∨ x.state = .activeTrial := by
  rw [FwSlot.isActive, Bool.or_eq_true, beq_iff_eq, beq_iff_eq]

/-- One of the two slots, replaced. -/
theorem slot_setSlot_self : (f.setSlot i x).slot i = x := by
  unfold Firmware.setSlot Firmware.slot
  split <;> rfl

/-- The other of the two slots. -/
theorem slot_setSlot_other (hi : i ≤ 1) : (f.setSlot (1 - i) x).slot i = f.slot i := by
  obtain rfl | rfl : i = 0 ∨ i = 1 := by omega
  · rfl
  · rfl

/-- A slot's replacement leaves the fuses, the packs and the slot in use. -/
theorem setSlot_others : (f.setSlot i x).svnFuse = f.svnFuse ∧ (f.setSlot i x).inUse = f.inUse ∧ (f.setSlot i x).packs = f.packs := by
  unfold Firmware.setSlot
  split <;> exact ⟨rfl, rfl, rfl⟩

/-! ### IMAGE_LOAD and SLOT_QUERY (R628, Table 18-9) -/

theorem imageLoad_leaves : Claims.imageLoad := by
  rintro s d ⟨hacc, htarget, hidle, htrial, hlong, hshort⟩ b
  have hnotPack : d.f 65 64 ≠ 2 := by omega
  have hfree : (s.fw.slot (d.f 65 64)).isActive = false :=
    Bool.eq_false_iff.mpr (mt isActive_iff.mp (not_or.mpr ⟨hidle, htrial⟩))
  have hsize : ¬ (d.f 223 192 < 320 ∨ 2097152 < d.f 223 192) := by omega
  change (∀ e, s.imageCheck b 1 = some e → execImageLoad d s = _) ∧ (_ → _ → _ → ∃ y, execImageLoad d s = _ ∧ _)
  simp only [execImageLoad, withDesc_of_accepts hacc, hfree, Bool.and_false, Bool.false_eq_true, if_false, if_neg hsize, if_neg hnotPack]
  refine ⟨fun e hbad => ?_, fun hgood hready hstopped => ⟨
    { state := .valid, tries := 0, keyId := BitVec.ofNat 8 (fieldAt b 7 1), version := BitVec.ofNat 32 (fieldAt b 8 4)
      svn := BitVec.ofNat 16 (fieldAt b 12 2), payloadLen := BitVec.ofNat 32 (fieldAt b 16 4)
      digest8 := BitVec.ofNat 64 (fieldAt b 32 8), image := b }, ?_, rfl, rfl, rfl, rfl, rfl, rfl⟩⟩
  · simp only [show s.imageCheck (s.hostRead (d.f 191 128) (min (d.f 223 192) 2097152)) 1 = some e from hbad]
  · have hstore : s.storeOk = true := by
      rw [State.storeOk, hready, hstopped]
      rfl
    simp only [show s.imageCheck (s.hostRead (d.f 191 128) (min (d.f 223 192) 2097152)) 1 = none from hgood, hstore, Bool.not_true,
      Bool.false_eq_true, if_false]
    rfl

theorem imageLoadActive_leaves : Claims.imageLoadActive := by
  rintro s d ⟨hacc, htarget, hactive⟩
  have hnotPack : d.f 65 64 ≠ 2 := by omega
  have hbusy : (d.f 65 64 ≠ 2 && (s.fw.slot (d.f 65 64)).isActive) = true := by
    rw [decide_eq_true hnotPack, show (s.fw.slot (d.f 65 64)).isActive = true from isActive_iff.mpr hactive]
    rfl
  exact (congrArg Host.Outcome.next (withDesc_of_accepts hacc)).trans (congrArg Host.Outcome.next (if_pos hbusy))

/-- A check that fails keeps an image out, whatever the checks before it say. -/
theorem ite_some_ne_none {α : Type} {p : Prop} [Decidable p] {e : α} {o : Option α} (ho : o ≠ none) :
    (if p then some e else o) ≠ none := by
  split
  · exact Option.some_ne_none e
  · exact ho

theorem imageRollback_leaves : Claims.imageRollback := by
  intro s b hold
  have hsvn : fieldAt b 12 2 < (if (1 : Nat) = 1 then s.fw.svnFuse else s.fw.packFuse).toNat := hold
  unfold State.imageCheck
  extract_lets len keyId key payload svn number
  exact ite_some_ne_none (ite_some_ne_none (ite_some_ne_none (ite_some_ne_none ((if_pos hsvn).trans_ne (Option.some_ne_none _)))))

theorem slotQuery_leaves : Claims.slotQuery := fun _ _ hacc => congrArg Host.Outcome.next (withDesc_of_accepts hacc)

/-! ### SLOT_ACTIVATE, SLOT_CONFIRM and PATCH_BANK_SWITCH (R629 to R631) -/

/-- The slots once slot `i` is on trial: the other is no longer active. -/
def onTrial (f : Firmware) (i : Nat) : Firmware :=
  (f.setSlot i { f.slot i with state := .activeTrial, tries := 0 }).setSlot (1 - i)
    (if (f.slot (1 - i)).isActive then { f.slot (1 - i) with state := .valid } else f.slot (1 - i))

theorem onTrial_slot (hi : i ≤ 1) : (onTrial f i).slot i = { f.slot i with state := .activeTrial, tries := 0 } :=
  (slot_setSlot_other hi).trans slot_setSlot_self

theorem onTrial_other : ((onTrial f i).slot (1 - i)).isActive = false := by
  rw [onTrial, slot_setSlot_self]
  split
  · rfl
  · exact Bool.eq_false_iff.mpr ‹_›

theorem onTrial_others : (onTrial f i).svnFuse = f.svnFuse ∧ (onTrial f i).inUse = f.inUse ∧ (onTrial f i).packs = f.packs := by
  simp only [onTrial, setSlot_others, and_self]

theorem slotActivate_leaves : Claims.slotActivate := by
  rintro s d ⟨hacc, hvalid, hlater⟩
  have hfield : d.f 64 64 ≤ 1 := Nat.lt_succ_iff.mp (Nat.mod_lt _ Nat.two_pos)
  have hgo : ((s.fw.slot (d.f 64 64)).state != SlotSt.valid) = false := by
    rw [show (s.fw.slot (d.f 64 64)).state = .valid from hvalid]
    rfl
  have hnow : ¬ d.f 65 65 = 1 := by omega
  have hother := mt isActive_iff.mpr (Bool.eq_false_iff.mp (onTrial_other (f := s.fw) (i := d.f 64 64)))
  refine ⟨onTrial s.fw (d.f 64 64), (s.fw.active.map (BitVec.ofNat 64)).getD (Config.freeValue 64 s.freeCount), ?_, ?_,
    onTrial_slot hfield, fun h => hother (.inl h), fun h => hother (.inr h), onTrial_others⟩
  · change execSlotActivate d s = _
    simp only [execSlotActivate, withDesc_of_accepts hacc, hgo, Bool.false_eq_true, if_false, if_neg hnow, State.fresh]
    cases s.fw.active <;> rfl
  · intro j hj
    rw [hj]
    rfl

theorem slotConfirm_leaves : Claims.slotConfirm := by
  rintro s d ⟨hacc, htrial⟩ fuse
  have hactive : s.fw.active = some 0 := if_pos (isActive_iff.mpr (.inr htrial))
  have hgo : ((s.fw.slot 0).state == SlotSt.activeTrial) = true := beq_iff_eq.mpr htrial
  refine endsOk_of_accepts hacc rfl ?_
  simp only [hactive, hgo, if_true]
  rfl

theorem patchBankSwitch_leaves : Claims.patchBankSwitch := by
  rintro s hub core i ⟨huse, hmem, hnot, hlevel⟩ y sw level
  have hgo : (core.val ∉ y.cores hub || (hub.val, core.val) ∈ s.fw.switched
      || (s.start.level != .core && s.start.level != .ring)) = false := by
    rw [decide_eq_false (not_not_intro hmem), decide_eq_false hnot]
    rcases hlevel with hlevel | hlevel <;> rw [hlevel] <;> rfl
  have hfull : (y.cores hub).all (fun n => decide ((hub.val, n) ∈ sw)) = true ↔ ∀ n ∈ y.cores hub, (hub.val, n) ∈ sw := by
    simp only [List.all_eq_true, decide_eq_true_eq]
  change execPatchBankSwitch hub core s = _
  simp only [execPatchBankSwitch, huse]
  refine (if_neg (by rw [hgo]; exact Bool.false_ne_true)).trans (congrArg Host.Outcome.next ?_)
  by_cases hlast : ∀ n ∈ y.cores hub, (hub.val, n) ∈ sw
  · rw [if_pos hlast, if_pos (hfull.mpr hlast), if_pos (hfull.mpr hlast)]
  · rw [if_neg hlast, if_neg (mt hfull.mp hlast), if_neg (mt hfull.mp hlast)]

/-- Settles O50: what IMAGE_LOAD, the slots' commands and PATCH_BANK_SWITCH leave, and the check an old image fails. -/
theorem firmwareSlotsAndImages : Obligations.FirmwareSlotsAndImages :=
  ⟨imageLoad_leaves, imageLoadActive_leaves, imageRollback_leaves, slotQuery_leaves, slotActivate_leaves, slotConfirm_leaves,
   patchBankSwitch_leaves⟩

end Sys2Proof.Machine
end

section
/-!
PROOF. The start (Machine/Start.lean): the statement O51. A calibration taken at a level, and the links' first training, change
their own part of the works alone.
-/
namespace Sys2Proof.Machine

variable {s : State}

/-! ### Levels (R606 to R608) -/

theorem start_leaves : Claims.start := by
  intro s pgood rstN p t
  change execStart pgood rstN s = _
  unfold execStart
  extract_lets q q1 u
  change (if ((p.pgood || pgood) && (p.rstN || rstN)) = true then
      if (s.start.level == Level.off || s.start.level == Level.reset) = true then Host.Outcome.next t.beginStart else .next t
    else if ((p.pgood || pgood) && s.start.level == Level.off) = true then
      .next { t with start := { t.start with level := .reset } }
    else .next t) = _
  simp only [apply_ite Host.Outcome.next, Bool.and_eq_true, Bool.or_eq_true, beq_iff_eq]
  rfl

theorem ringLevel_leaves : Claims.ringLevel := by
  rintro s ⟨hcore, hgoes, hlate⟩ ns u
  have hgo : (s.start.level != .core || s.stalled || decide ((s.tick : Int) - s.start.started < 46875)) = false := by
    rw [hcore, hgoes, decide_eq_false (Int.not_lt.mpr hlate)]
    rfl
  exact if_neg (by rw [hgo]; exact Bool.false_ne_true)

/-- A level at which the parts of the start wait for one another. -/
theorem level_guard (hlevel : s.start.level = .core ∨ s.start.level = .ring) :
    (s.start.level != .core && s.start.level != .ring) = false := by
  rcases hlevel with hlevel | hlevel <;> rw [hlevel] <;> rfl

/-- A calibration is the power manager's and the journal's alone. -/
theorem calibrated_works {u : BitVec 16} {c : CalState} {p : PowerStore} :
    { (s.calibrated u c).works with pwr := p } = { s.works with pwr := p } := by
  unfold State.calibrated
  dsimp only
  split
  · rw [event_works]
    rfl
  · rfl

theorem calibrateNew_works {u : BitVec 16} {p : PowerStore} :
    { (s.calibrateNew u).works with pwr := p } = { s.works with pwr := p } := by
  unfold State.calibrateNew
  split
  · rfl
  · exact calibrated_works

/-- Calibrations taken one after another leave the other works as they were. -/
theorem foldl_works_but_power {α : Type} {f : State → α → State} {p : PowerStore}
    (hf : ∀ s x, { (f s x).works with pwr := p } = { s.works with pwr := p }) (l : List α) :
    { (l.foldl f s).works with pwr := p } = { s.works with pwr := p } :=
  List.foldlRecOn (motive := fun t => { t.works with pwr := p } = { s.works with pwr := p }) l f rfl fun _ h x _ => (hf _ x).trans h

theorem umbraReady_leaves : Claims.umbraReady := by
  rintro s out ⟨hlevel, hnot, hgoes, htried⟩
  have hgo : ((s.start.level != .core && s.start.level != .ring) || s.start.umbra || s.stalled || !s.storeTried) = false := by
    rw [level_guard hlevel, hnot, hgoes, htried]
    rfl
  change ∃ t, execUmbraReady out s = .next t ∧ _
  rw [execUmbraReady, if_neg (by rw [hgo]; exact Bool.false_ne_true)]
  extract_lets ms stack gone u v w y z x
  have hz : { z.works with pwr := s.pwr } = { y.works with pwr := s.pwr } :=
    foldl_works_but_power (fun _ _ => by split; exacts [rfl, calibrateNew_works]) _
  have ht (n d : Nat) : { (x.notice n d).works with pwr := s.pwr } = { y.works with pwr := s.pwr } := by
    rw [notice_works, show x.works = z.works from eventAll_works, hz]
  have hleft (t : State) (ht : { t.works with pwr := s.pwr } = { y.works with pwr := s.pwr }) :
      t.start.umbra = true ∧ t.start.umbraOut = out ∧ t.start.umbraMs = BitVec.ofNat 12 (min 4095 s.sinceStart)
        ∧ (∀ k : Stack, t.units.stack[k] = s.stackAtStart out k ∧ t.units.selfRefresh[k] = false)
        ∧ t.start.level = s.start.level ∧ t.start.links = s.start.links ∧ t.hs = s.hs ∧ t.ctxs = s.ctxs ∧ t.fw = s.fw := by
    have hunits : t.units = y.units := congrArg Works.units ht
    refine ⟨congrArg Works.umbra ht, congrArg Works.umbraOut ht, congrArg Works.umbraMs ht, fun k => ?_, congrArg Works.level ht,
      congrArg Works.links ht, congrArg Works.hs ht, congrArg Works.ctxs ht, congrArg Works.fw ht⟩
    rw [hunits]
    exact ⟨Vector.getElem_ofFn k.isLt, Vector.getElem_replicate k.isLt⟩
  exact ⟨_, rfl, hleft _ (ht _ _)⟩

theorem linksReady_leaves : Claims.linksReady := by
  rintro s ⟨hlevel, hnot, hgoes, htried, hreached⟩
  have hall : (List.finRange 32).all s.linkReached = true := List.all_eq_true.mpr fun l _ => hreached l
  have hgo : ((s.start.level != .core && s.start.level != .ring) || s.start.links || s.stalled || !s.storeTried
      || !(List.finRange 32).all s.linkReached) = false := by
    rw [level_guard hlevel, hnot, hgoes, htried, hall]
    rfl
  change ∃ t, execLinksReady s = .next t ∧ _
  rw [execLinksReady, if_neg (by rw [hgo]; exact Bool.false_ne_true)]
  extract_lets ms up u v w y
  have hw : { w.works with pwr := s.pwr } = { v.works with pwr := s.pwr } :=
    foldl_works_but_power (fun _ _ => foldl_works_but_power (fun _ _ => calibrateNew_works) _) _
  have ht (n d : Nat) : { (y.notice n d).works with pwr := s.pwr } = { v.works with pwr := s.pwr } := by
    rw [notice_works, show y.works = w.works from eventAll_works, hw]
  have hleft (t : State) (ht : { t.works with pwr := s.pwr } = { v.works with pwr := s.pwr }) :
      t.start.links = true ∧ t.start.linksMs = BitVec.ofNat 12 (min 4095 s.sinceStart) ∧ t.start.level = s.start.level
        ∧ t.start.umbra = s.start.umbra ∧ t.lnk = s.lnk ∧ t.hs = s.hs ∧ t.ctxs = s.ctxs ∧ t.fw = s.fw :=
    ⟨congrArg Works.links ht, congrArg Works.linksMs ht, congrArg Works.level ht, congrArg Works.umbra ht, congrArg Works.lnk ht,
      congrArg Works.hs ht, congrArg Works.ctxs ht, congrArg Works.fw ht⟩
  exact ⟨_, rfl, hleft _ (ht _ _)⟩

/-! ### The history store at the start (R610, R650, R669, R678) -/

/-- A store that was not yet read, and not given up, is read. -/
theorem journal_guard {readable : Bool} (hlevel : s.start.level = .core ∨ s.start.level = .ring)
    (hready : s.evt.store.ready = false) (hcold : s.start.storeCold = false) :
    ¬ ((s.start.level != .core && s.start.level != .ring) || s.evt.store.ready || (s.start.storeCold && !readable)) = true := by
  rw [level_guard hlevel, hready, hcold]
  exact Bool.false_ne_true

theorem journalReadAtStart_leaves : Claims.journalReadAtStart := by
  rintro s ⟨hlevel, hready, hcold, hvalid⟩ st
  have hknown : ¬ (!s.evt.store.valid) = true := by
    rw [hvalid]
    exact Bool.false_ne_true
  exact (if_neg (journal_guard hlevel hready hcold)).trans ((if_neg Bool.false_ne_true).trans (if_neg hknown))

theorem journalUnreadable_leaves : Claims.journalUnreadable := by
  rintro s ⟨hlevel, hready, hcold, hvalid⟩
  refine ⟨_, ?_, (if_neg (journal_guard hlevel hready hcold)).trans (if_pos rfl)⟩
  split
  next hsame =>
    rw [hsame]
    bv_omega
  next hother => exact hother

/-- A link's training is the links' and the recorders' alone (R675). -/
theorem linkTrain_works {l : LinkNo} {k : LinkStore} :
    { (s.linkTrain l).works with lnk := k } = { s.works with lnk := k } := by
  rw [State.linkTrain, linkState_works]
  rfl

theorem peerUp_host {pkg : BitVec 64} : (s.peerUp pkg).host = s.host := by
  unfold State.peerUp
  split
  · rfl
  · split
    · split <;> rfl
    · rfl

theorem linkTrain_host {l : LinkNo} : (s.linkTrain l).host = s.host := by
  unfold State.linkTrain State.linkState
  dsimp only
  split
  · exact peerUp_host.trans event_host
  · exact event_host

/-- A link that is OFF trains when its START_EN bit was 1 (R675). -/
def firstTrainLink (s : State) (l : LinkNo) : State :=
  if s.linkIs l [.off] && s.regs.hubs[linkHub l].startLatched.getLsbD (l.val % 8) then s.linkTrain l else s

theorem firstTrainLink_leaves {l : LinkNo} {k : LinkStore} :
    { (firstTrainLink s l).works with lnk := k } = { s.works with lnk := k } ∧ (firstTrainLink s l).host = s.host := by
  unfold firstTrainLink
  split
  · exact ⟨linkTrain_works, linkTrain_host⟩
  · exact ⟨rfl, rfl⟩

theorem foldl_firstTrainLink_leaves {k : LinkStore} (ls : List LinkNo) : ∀ s : State,
    { (ls.foldl firstTrainLink s).works with lnk := k } = { s.works with lnk := k } ∧ (ls.foldl firstTrainLink s).host = s.host := by
  induction ls with
  | nil => exact fun _ => ⟨rfl, rfl⟩
  | cons l ls ih => exact fun s => ⟨(ih _).1.trans firstTrainLink_leaves.1, (ih _).2.trans (firstTrainLink_leaves (k := k)).2⟩

theorem firstTraining_eq : ∃ u : State, s.firstTraining = (List.finRange 32).foldl firstTrainLink u
    ∧ u.works = s.works ∧ u.host = s.host := by
  unfold State.firstTraining
  extract_lets x u
  exact ⟨u, rfl, rfl, rfl⟩

theorem firstTraining_leaves {k : LinkStore} :
    { s.firstTraining.works with lnk := k } = { s.works with lnk := k } ∧ s.firstTraining.host = s.host := by
  obtain ⟨u, hfold, hworks, hhost⟩ := firstTraining_eq (s := s)
  rw [hfold, ← hworks, ← hhost]
  exact foldl_firstTrainLink_leaves _ _

theorem storeBlank_leaves : Claims.storeBlank := by
  rintro s ⟨hlevel, hready, hcold, hvalid⟩
  have hblank : (!s.evt.store.valid) = true := by
    rw [hvalid]
    rfl
  refine ⟨_, (if_neg (journal_guard hlevel hready hcold)).trans ((if_neg Bool.false_ne_true).trans (if_pos hblank)), ?_⟩
  generalize hu : State.blankHistory _ = u
  obtain ⟨hworks, hhost⟩ := firstTraining_leaves (s := u) (k := s.lnk)
  generalize u.firstTraining = t at hworks hhost
  subst hu
  have hstore : t.evt.store = _ := congrArg Works.store hworks
  have hfw : t.fw = _ := congrArg Works.fw hworks
  rw [hstore, hfw]
  exact ⟨rfl, rfl, rfl, rfl, rfl, congrArg Works.cold hworks, rfl, rfl, rfl, rfl, hhost, congrArg Works.level hworks⟩

/-- Settles O51: what START, the start's levels and the reading of the history store leave where the claims' conditions hold. -/
theorem startLevels : Obligations.StartLevels :=
  ⟨start_leaves, ringLevel_leaves, umbraReady_leaves, linksReady_leaves, journalReadAtStart_leaves, journalUnreadable_leaves,
   storeBlank_leaves⟩

end Sys2Proof.Machine
end

section
/-!
PROOF. The journal of the history store and the event recorder (Machine/Recorder.lean): the statements O56 and O53. A store can be
written or it cannot; an event of the queue is written alone or behind the record of the drops before it.
-/
namespace Sys2Proof.Machine

variable {s : State} {r : Recorder} {h : Hub} {e : Event} {tick : Nat}

/-! ### The journal (R620, R646, R648, R649, R679) -/

/-- The store can be written now: it is ready, the journal is not given up, and no quench is in force. -/
theorem storeWritable_iff : (s.evt.store.ready && !s.evt.store.stopped && s.start.quench.state != 2) = true
    ↔ s.evt.store.ready = true ∧ s.evt.store.stopped = false ∧ s.start.quench.state ≠ 2 := by
  rw [Bool.and_eq_true, Bool.and_eq_true, Bool.not_eq_true', bne_iff_ne, and_assoc]

theorem journalWrite_leaves : Claims.journalWrite := by
  rintro s e rest ⟨hwaiting, hwritable⟩ st n fits head
  change execJournalWrite s = _
  simp only [execJournalWrite, hwaiting, if_pos (storeWritable_iff.mpr hwritable)]
  rfl

theorem journalHeld_leaves : Claims.journalHeld := by
  intro s hheld
  have hnot : ¬ (s.evt.store.ready && !s.evt.store.stopped && s.start.quench.state != 2) = true := by
    rw [storeWritable_iff]
    rintro ⟨hready, hstopped, hquench⟩
    rcases hheld with hheld | hheld | hheld
    · exact Bool.false_ne_true (hheld.symm.trans hready)
    · exact Bool.false_ne_true (hstopped.symm.trans hheld)
    · exact hquench hheld
  change execJournalWrite s = _
  unfold execJournalWrite
  split
  · rfl
  · exact if_neg hnot

theorem journalCompact_leaves : Claims.journalCompact := by
  rintro s ⟨hready, hstopped, hfew⟩ st chain
  have hgo : (s.evt.store.ready && !s.evt.store.stopped && decide (s.evt.store.erased < 16)) = true := by
    rw [hready, hstopped, decide_eq_true hfew]
    rfl
  exact if_pos hgo

theorem storeFault_leaves : Claims.storeFault := by
  rintro s ⟨hfew, hstopped⟩ st
  have hgoes : (s.evt.store.stopped || decide (3 ≤ s.evt.store.faults + 1)) = s.evt.store.stopped := by
    rw [decide_eq_false (by omega), Bool.or_false]
  change execStoreFault s = _
  simp only [execStoreFault, hgoes]
  rfl

theorem storeStops_leaves : Claims.storeStops := by
  intro s hthird
  have hstops : (s.evt.store.stopped || decide (3 ≤ s.evt.store.faults + 1)) = true := by
    rw [decide_eq_true (Nat.succ_le_succ hthird), Bool.or_true]
  exact ⟨_, rfl, (congrArg (fun w : Works => w.store.stopped) alert_works).trans hstops⟩

/-- Settles O56: what JOURNAL_WRITE, JOURNAL_COMPACT and STORE_FAULT leave where the claims' conditions hold. -/
theorem journalOfTheHistoryStore : Obligations.JournalOfTheHistoryStore :=
  ⟨journalWrite_leaves, journalHeld_leaves, journalCompact_leaves, storeFault_leaves, storeStops_leaves⟩

/-! ### Records and their queue (R634 to R637) -/

theorem recordNew_leaves : Claims.recordNew := by
  rintro r hub e tick ⟨hnew, hlast⟩ t slot
  have hseq : nextSeq r.newest = r.newest + 1 := if_neg hlast
  have hwrite : t = _ := if_neg (by rw [hnew]; exact Bool.false_ne_true)
  rw [hwrite, ← hseq]
  exact ⟨rfl, rfl, rfl, rfl, rfl, rfl⟩

theorem recordMerge_leaves : Claims.recordMerge := fun _ _ _ _ hmerges => if_pos hmerges

/-- An event below CLASS 3 is written to its hub's recorder alone, behind the record of the drops before it (R634, R637, R648). -/
theorem execEventRecord_of_queue {q : Queued} {rest : List Queued} (hqueue : s.evt.hubs[h].queue = q :: rest)
    (hcls : q.event.cls < 3) :
    execEventRecord h s = .next (s.setRecorder h ((if 0 < q.drops then
      Recorder.write { s.evt.hubs[h] with queue := rest } h.val (ev 0x0004 1 q.drops) q.tick
        else { s.evt.hubs[h] with queue := rest }).write h.val q.event q.tick)) := by
  unfold execEventRecord
  simp only [hqueue, if_neg (Nat.not_le.mpr hcls)]
  split <;> rfl

theorem eventRecord_leaves : Claims.eventRecord := by
  rintro s h q rest ⟨hqueue, hnone, hcls⟩
  refine (execEventRecord_of_queue hqueue hcls).trans ?_
  rw [if_neg (by omega)]

theorem eventDropped_leaves : Claims.eventDropped := by
  rintro s h q rest ⟨hqueue, hsome, hcls⟩ e
  refine (execEventRecord_of_queue hqueue hcls).trans ?_
  rw [if_pos hsome]
  rfl

theorem eventQueue_leaves : Claims.eventQueue := by
  intro s h e hen r
  have hgo : ¬ (!s.evt.hubs[h].en && e.cls ≤ 1) = true := by
    rcases hen with hen | hcls
    · rw [hen]
      exact Bool.false_ne_true
    · rw [decide_eq_false (Nat.not_le.mpr hcls), Bool.and_false]
      exact Bool.false_ne_true
  unfold State.event
  rw [if_neg hgo]
  split <;> rfl

theorem evrReadSlotWrite_leaves : Claims.evrReadSlotWrite := by
  intro s h v
  have hslot : BitVec.ofNat 12 (bitsOf v.toNat 11 0) = v.extractLsb' 0 12 := by
    refine BitVec.eq_of_toNat_eq ?_
    rw [BitVec.toNat_ofNat, BitVec.extractLsb'_toNat]
    exact Nat.mod_mod _ _
  change Host.Outcome.next (s.evrReadSlotWrite h v) = _
  unfold State.evrReadSlotWrite
  dsimp only
  rw [hslot]

/-- Settles O53: what the event queue, its records and the latch of EVR_READ_SLOT hold after each event. -/
theorem eventsAreRecorded : Obligations.EventsAreRecorded :=
  ⟨eventRecord_leaves, recordNew_leaves, recordMerge_leaves, eventQueue_leaves, eventDropped_leaves, evrReadSlotWrite_leaves⟩

end Sys2Proof.Machine
end

section
/-!
PROOF. Reads and clears of the recorder, and authority (Machine/Recorder.lean): the statements O54 and O55. The token held and the
nonce that lives choose the branch; a failed check ends alike in each.
-/
namespace Sys2Proof.Machine

variable {s : State}

/-! ### Reads (R639 to R641) -/

theorem evrRead_leaves : Claims.evrRead := by
  rintro s d ⟨hacc, hlive⟩ r bytes
  have hbytes : bytes = ((List.range (d.f 111 96)).map (fun i => (d.f 95 80 + i) % 4096)).flatMap r.slotBytes :=
    (List.flatMap_map _ _ _).symm
  rw [hbytes]
  exact (congrArg Host.Outcome.next (withDesc_of_accepts hacc)).trans (congrArg Host.Outcome.next (if_pos hlive))

theorem evrCperRead_leaves : Claims.evrCperRead := by
  intro s d hacc q one held bytes
  change execEvrCperRead d s = _
  simp only [execEvrCperRead, withDesc_of_accepts hacc, List.filter_map, List.length_map, List.flatMap_map]
  rfl

/-! ### Nonces and the lock-out (R643) -/

theorem evrNonce_leaves : Claims.evrNonce := by
  intro s d hacc
  refine ⟨fun t hlocked => ?_, fun hfree => ⟨Config.freeValue 64 s.freeCount, endsOk_of_accepts hacc rfl ?_⟩⟩
  · have hsome : s.evt.auth.lockedAt.isSome = true := by
      rw [hlocked]
      rfl
    exact (congrArg Host.Outcome.next (withDesc_of_accepts hacc)).trans (congrArg Host.Outcome.next (if_pos hsome))
  · have hnone : ¬ s.evt.auth.lockedAt.isSome = true := by
      rw [hfree]
      exact Bool.false_ne_true
    exact if_neg hnone

theorem nonceLockoutEnd_leaves : Claims.nonceLockoutEnd := by
  intro s t hlocked
  change execNonceLockoutEnd s = _
  simp only [execNonceLockoutEnd, hlocked]
  exact (apply_ite Host.Outcome.next _ _ _).symm

/-- The failed checks of the last hour, with this one. -/
def failsNow (s : State) : List Nat := s.evt.auth.fails.filter (fun x => s.tick - x < hourTicks) ++ [s.tick]

/-- Authority after a failed check, which hub 0's recorder flags (R643). -/
def authFailed (s : State) : State :=
  ({ s with evt := { s.evt with auth :=
      { nonce := none, fails := failsNow s, lockedAt := if 4 ≤ (failsNow s).length then some s.tick else s.evt.auth.lockedAt } } }
    : State).setRecorder 0 { s.evt.hubs[(0 : Hub)] with authFail := true }

theorem authFail_eq {t : Ticket} {op : Nat} :
    s.authFail t op = ((authFailed s).event 0 (ev 0x0003 4 op)).complete t { status := 0x97 } := rfl

theorem authFail_leaves : Claims.authFail := by
  intro s t op
  have hworks : ((authFailed s).event 0 (ev 0x0003 4 op)).works = s.works := event_works
  refine ⟨(authFailed s).event 0 (ev 0x0003 4 op), failsNow s, authFail_eq, ?_⟩
  rw [event_auth, event_host]
  exact ⟨rfl, rfl, rfl, rfl, congrArg Works.store hworks, congrArg Works.hs hworks, congrArg Works.ctxs hworks, rfl⟩

/-! ### EVR_CLEAR (R642 to R644) -/

theorem evrClear_leaves : Claims.evrClear := by
  rintro s d tok n ⟨hacc, htoken, hnonce⟩ scope
  change execEvrClear d s = _
  simp only [execEvrClear, withDesc_of_accepts hacc, htoken, hnonce, apply_ite Host.Outcome.next]
  rfl

theorem evrClearNoToken_leaves : Claims.evrClearNoToken := by
  rintro s d ⟨hacc, htoken⟩
  change execEvrClear d s = _
  simp only [execEvrClear, withDesc_of_accepts hacc, htoken]

/-- Settles O54: what EVR_READ, EVR_CPER_READ, EVR_NONCE, EVR_CLEAR and a failed authority check leave. -/
theorem recorderReadsAndClears : Obligations.RecorderReadsAndClears :=
  ⟨evrRead_leaves, evrCperRead_leaves, evrNonce_leaves, evrClear_leaves, evrClearNoToken_leaves, authFail_leaves,
   nonceLockoutEnd_leaves⟩

/-! ### EVR_PROVISION (R645) -/

theorem evrProvision_leaves : Claims.evrProvision := by
  rintro s d ⟨hacc, htoken⟩
  change execEvrProvision d s = _
  simp only [execEvrProvision, withDesc_of_accepts hacc, htoken]

theorem provisionReplaces_leaves : Claims.provisionReplaces := by
  rintro s d tok ⟨hacc, htoken⟩ new ok
  change (∀ n, _ → ok n → execEvrProvision d s = _) ∧ (_ → execEvrProvision d s = _)
  simp only [execEvrProvision, withDesc_of_accepts hacc, htoken]
  refine ⟨fun n hnonce hok => ?_, fun hbad => ?_⟩
  · simp only [hnonce]
    exact congrArg Host.Outcome.next (if_pos hok)
  · cases hnonce : s.evt.auth.live s.tick with
    | none => rfl
    | some n => exact congrArg Host.Outcome.next (if_neg (hbad n hnonce))

/-- Settles O55: what a proof of zeros does with no token held, and what any other proof does with and without a token. -/
theorem tokenIsProvisioned : Obligations.TokenIsProvisioned := ⟨evrProvision_leaves, provisionReplaces_leaves⟩

end Sys2Proof.Machine
end

section
/-!
PROOF. Telemetry (Machine/Telemetry.lean): the statement O57. What a snapshot draws and estimates touches the links and the count of
free values alone; a page is 128 bytes whatever its items; the page asked for chooses the branch of TELEM_READ.
-/
namespace Sys2Proof.Machine

variable {s t : State}

/-! ### TELEMETRY_SNAPSHOT (R651, R652) -/

/-- Nothing but the links and the count of free values (log entry 2) differs. -/
def LinksApart (s t : State) : Prop := ∃ k n, t = { s with lnk := k, freeCount := n }

theorem LinksApart.refl : LinksApart s s := ⟨s.lnk, s.freeCount, rfl⟩

theorem LinksApart.trans {u : State} : LinksApart s t → LinksApart t u → LinksApart s u := by
  rintro ⟨_, _, rfl⟩ ⟨k, n, rfl⟩
  exact ⟨k, n, rfl⟩

theorem foldl_linksApart {α : Type} {f : State → α → State} (hf : ∀ s x, LinksApart s (f s x)) (l : List α) :
    LinksApart s (l.foldl f s) :=
  List.foldlRecOn (motive := LinksApart s) l f LinksApart.refl fun _ h x _ => h.trans (hf _ x)

theorem estimate_linksApart {l : LinkNo} {x : TelemSample} : LinksApart s (s.estimate l x) :=
  foldl_linksApart (fun _ _ => ⟨_, _, rfl⟩) _

theorem length_page128 {l : List Byte} : (page128 l).length = 128 := by
  rw [page128, List.length_take, List.length_append, List.length_replicate]
  omega

theorem page0_leaves {h : Hub} {x : TelemSample} : (s.page0 h x).1.length = 128 ∧ LinksApart s (s.page0 h x).2 :=
  ⟨length_page128, _, _, rfl⟩

theorem page1_leaves {k : Stack} {x : BitVec 8} : (s.page1 k x).1.length = 128 ∧ LinksApart s (s.page1 k x).2 :=
  ⟨length_page128, _, _, rfl⟩

/-- The links of a hub. -/
def linksOf (hub : Hub) : List LinkNo := (List.finRange 32).filter (fun l => linkHub l == hub)

/-- What a hub latches, its page 0 and its stacks' pages given (R651). -/
def hubPages (s : State) (hub : Hub) (b0 b1 b2 : List Byte) : List Snapshot :=
  [{ page := 0, index := 0, bytes := b0 }, { page := 1, index := 2 * hub.val, bytes := b1 },
    { page := 1, index := 2 * hub.val + 1, bytes := b2 }]
    ++ (linksOf hub).map (fun l => { page := 2, index := l.val, bytes := s.page2 l })
    ++ (s.ctxs.filter (fun c : Ctx => hubOf c.id == hub)).map (fun c => { page := 3, index := c.id, bytes := s.page3 c })

theorem hubPages_names {hub : Hub} {b0 b1 b2 : List Byte} :
    (hubPages s hub b0 b1 b2).map (fun y => (y.page, y.index))
      = [(0, 0), (1, 2 * hub.val), (1, 2 * hub.val + 1)] ++ (linksOf hub).map (fun l => (2, l.val))
        ++ (s.ctxs.filter (fun c : Ctx => hubOf c.id == hub)).map (fun c => (3, c.id)) := by
  simp only [hubPages, List.map_append, List.map_map, List.map_cons, List.map_nil]
  rfl

theorem length_hubPages_bytes {hub : Hub} {b0 b1 b2 : List Byte} (h0 : b0.length = 128) (h1 : b1.length = 128)
    (h2 : b2.length = 128) : ∀ y ∈ hubPages s hub b0 b1 b2, y.bytes.length = 128 := by
  intro y hy
  simp only [hubPages, List.mem_append, List.mem_cons, List.not_mem_nil, or_false, List.mem_map] at hy
  rcases hy with ((rfl | rfl | rfl) | ⟨_, _, rfl⟩) | ⟨_, _, rfl⟩
  · exact h0
  · exact h1
  · exact h2
  · exact length_page128
  · exact length_page128

/-- A hub's period ends with the pages it latches (R651, R652). -/
def periodEnds (s : State) (hub : Hub) (l : List Snapshot) : State :=
  let s := { s with evt := { s.evt with snaps := Vector.set s.evt.snaps hub.val l } }
  let s := (linksOf hub).foldl (fun (s : State) l => s.setLink l { s.lnk.links[l] with countsAt := s.lnk.links[l].counts }) s
  let s := s.setRecorder hub { s.evt.hubs[hub] with written := 0 }
  s.setPower hub { s.pwr.hubs[hub] with lowSilicon := [], lowDelivered := [], sumDelivered := [], windows := 0, periodSlips := 0 }

/-- At a millisecond the hub's period ends with its pages, drawn from a state whose links alone were estimated anew (R651, R652). -/
theorem execTelemetrySnapshot_eq {hub : Hub} {x : TelemSample} (hnow : s.tick % msTicks = 0) : ∃ u b0 b1 b2,
    execTelemetrySnapshot hub x s = .next (periodEnds u hub (hubPages u hub b0 b1 b2)) ∧ LinksApart s u
      ∧ b0.length = 128 ∧ b1.length = 128 ∧ b2.length = 128 := by
  let u : State := (linksOf hub).foldl (fun (s : State) l => s.estimate l x) s
  let p0 := u.page0 hub x
  let p1 := p0.2.page1 (Fin.ofNat 8 (2 * hub.val)) (x.stackTemps.getD 0 0)
  let p2 := p1.2.page1 (Fin.ofNat 8 (2 * hub.val + 1)) (x.stackTemps.getD 1 0)
  have hu : LinksApart s u := foldl_linksApart (fun _ _ => estimate_linksApart) _
  exact ⟨p2.2, p0.1, p1.1, p2.1, if_neg (not_not_intro hnow), hu.trans (page0_leaves.2.trans (page1_leaves.2.trans page1_leaves.2)),
    page0_leaves.1, page1_leaves.1, page1_leaves.1⟩

theorem periodEnds_leaves {hub : Hub} {l : List Snapshot} (hs : LinksApart s t) :
    (periodEnds t hub l).evt.snaps = Vector.set s.evt.snaps hub.val l ∧ (periodEnds t hub l).pwr.hubs[hub].windows = 0
      ∧ (periodEnds t hub l).pwr.hubs[hub].periodSlips = 0 ∧ (periodEnds t hub l).evt.hubs[hub].written = 0
      ∧ (periodEnds t hub l).hs = s.hs ∧ (periodEnds t hub l).ctxs = s.ctxs ∧ (periodEnds t hub l).host = s.host
      ∧ (periodEnds t hub l).rg = s.rg := by
  obtain ⟨_, _, rfl⟩ := hs
  unfold periodEnds
  extract_lets x u v p w
  obtain ⟨_, _, hv⟩ : LinksApart u v := foldl_linksApart (fun _ _ => ⟨_, _, rfl⟩) _
  have hrecorder : w.evt.hubs[hub].written = 0 := congrArg Recorder.written (Vector.getElem_set_self hub.isLt)
  clear_value v
  subst hv
  exact ⟨rfl, congrArg HubPower.windows (Vector.getElem_set_self hub.isLt),
    congrArg HubPower.periodSlips (Vector.getElem_set_self hub.isLt), hrecorder, rfl, rfl, rfl, rfl⟩

theorem telemetrySnapshot_leaves : Claims.telemetrySnapshot := by
  intro s hub x hnow
  obtain ⟨u, b0, b1, b2, hexec, hu, hlen0, hlen1, hlen2⟩ := execTelemetrySnapshot_eq (hub := hub) (x := x) hnow
  obtain ⟨hsnaps, hwindows, hslips, hwritten, hhs, hctxs, hhost, hrg⟩ := periodEnds_leaves (l := hubPages u hub b0 b1 b2) hu
  have hself : (periodEnds u hub (hubPages u hub b0 b1 b2)).evt.snaps[hub] = hubPages u hub b0 b1 b2 := by
    rw [hsnaps]
    exact Vector.getElem_set_self hub.isLt
  have hsame : u.ctxs = s.ctxs := by
    obtain ⟨_, _, rfl⟩ := hu
    rfl
  refine ⟨_, hexec, ?_, ?_, fun h hne => ?_, hwindows, hslips, hwritten, hhs, hctxs, hhost, hrg⟩
  · rw [hself, hubPages_names, hsame]
    rfl
  · rw [hself]
    exact length_hubPages_bytes hlen0 hlen1 hlen2
  · rw [hsnaps]
    exact Vector.getElem_set_ne hub.isLt h.isLt (Fin.val_ne_of_ne hne.symm)

/-! ### TELEM_READ (R651, R653) -/

theorem ite_some_eq_none_iff {α : Type} {p : Prop} [Decidable p] {e : α} {o : Option α} :
    (if p then some e else o) = none ↔ ¬p ∧ o = none := by
  by_cases hp : p <;> simp [hp]

/-- A descriptor whose range alone fails R313 ends with BAD_FIELD. -/
theorem descCheck_of_range {o : Nat} {d : Desc} {x : DescSpec} (hrest : descCheck o d { x with range := true } = none)
    (hrange : x.range = false) : descCheck o d x = some 0x03 := by
  obtain ⟨hring, hrest⟩ := ite_some_eq_none_iff.mp hrest
  obtain ⟨hext, hrest⟩ := ite_some_eq_none_iff.mp hrest
  obtain ⟨hreserved, hrest⟩ := ite_some_eq_none_iff.mp hrest
  have hbad : (6 < d.prio.toNat || !x.range || (x.needX && !d.xres)) = true := by
    rw [hrange, Bool.not_false, Bool.or_true, Bool.true_or]
  exact (if_neg hring).trans ((if_neg hext).trans ((if_neg hreserved).trans (if_pos hbad)))

theorem telemRange_leaves : Claims.telemRange := by
  rintro s d r ⟨hring, hserves, hstart, hwait, hcheck, hbad⟩
  have hrange : (telemReadSpec s d).range = false := by
    rcases hbad with hpage | ⟨hpage, hi⟩ | ⟨hpage, hi⟩ | ⟨hpage, hi⟩ | ⟨hpage, hi⟩
    · dsimp only [telemReadSpec]
      split
      case h_5 => rfl
      all_goals omega
    · simp only [telemReadSpec, hpage, decide_eq_false hi]
    · simp only [telemReadSpec, hpage, decide_eq_false (Nat.not_lt.mpr hi)]
    · simp only [telemReadSpec, hpage, decide_eq_false (Nat.not_lt.mpr hi)]
    · simp only [telemReadSpec, hpage, hi, Option.isSome_none]
  change Host.Outcome.next (s.withDesc d (telemReadSpec s d) _) = _
  simp only [State.withDesc, hring, hserves, hstart, hwait, descCheck_of_range hcheck hrange, Bool.not_true, Bool.or_self,
    Bool.false_eq_true, if_false]

/-- The hub whose snapshot holds a hub's, a stack's or a link's page. -/
theorem telemHub_eq {p i n : Nat} (hp : p ≤ 2) :
    (if p = 0 then hubOf n else if p = 1 then hubOf (i / 2) else if p = 2 then hubOf (i / 8) else hubOf i)
      = if p = 0 then hubOf n else if p = 1 then hubOf (i / 2) else hubOf (i / 8) := by
  split_ifs with h0 h1 h2
  · rfl
  · rfl
  · rfl
  · omega

theorem telemRead_leaves : Claims.telemRead := by
  rintro s d y ⟨hacc, hpage, hfind⟩
  change execTelemRead d s = _
  simp only [execTelemRead, withDesc_of_accepts hacc, State.fresh, telemHub_eq hpage, hfind]
  split
  next hpage3 _ => omega
  next => rfl

/-- Reading page 3 changes the context it names, and draws a value no one sees (R651, R653). -/
theorem telemRead_of_page3 {d : Desc} {c : Ctx} (hacc : Claims.accepts s d (telemReadSpec s d) = true) (hpage : d.f 67 64 = 3)
    (hc : s.ctx? (d.f 95 80) = some c) :
    ∃ x, execTelemRead d s = .next ((({ s with freeCount := s.freeCount + 1 } : State).setCtx c.peaksRead).complete d.ticket x) := by
  have hdrawn : ({ s with freeCount := s.freeCount + 1 } : State).ctx? (d.f 95 80) = some c := hc
  simp only [execTelemRead, withDesc_of_accepts hacc, State.fresh, hpage, hdrawn]
  exact ⟨_, rfl⟩

theorem telemPage3_leaves : Claims.telemPage3 := by
  rintro s d c ⟨hacc, hpage, hc⟩
  obtain ⟨x, hexec⟩ := telemRead_of_page3 hacc hpage hc
  have hid : c.id = d.f 95 80 := ctx_id hc
  refine ⟨_, hexec, ?_, fun id hne => ?_⟩
  · rw [ctx_of_ctxs complete_ctxs]
    exact ctx_setCtx_of_ctx hc rfl
  · rw [ctx_of_ctxs complete_ctxs]
    exact ctx_setCtx_ne (fun h => hne (h.trans hid))

/-- Settles O57: the pages a snapshot latches, what TELEM_READ delivers and what page 3's reading leaves, and its range. -/
theorem telemetryPages : Obligations.TelemetryPages :=
  ⟨telemetrySnapshot_leaves, telemRead_leaves, telemPage3_leaves, telemRange_leaves⟩

end Sys2Proof.Machine
end

section
/-!
PROOF. The register window (Machine/Regs.lean): the statement O58. An access that misses latches HUB_REG_ERR once and flags its hub;
an access that hits is the register's own store or read.
-/
namespace Sys2Proof.Machine

variable {s : State} {h hub : Hub} {p : RegPath} {off : BitVec 16}

/-! ### Accesses that hit (R654, R655) -/

theorem exec_registerWrite_of_open {v : BitVec 32} (hopen : s.pathOpen p hub = true) (haligned : off.toNat % 4 = 0) :
    exec (.registerWrite hub p off v) s = .next (s.regWrite p hub off.toNat v) := by
  change execRegisterWrite hub p off v s = _
  simp only [execRegisterWrite, hopen, haligned, Bool.not_true, Bool.false_eq_true, if_false, if_true]

theorem registerWrite_leaves : Claims.registerWrite := by
  rintro s hub p off v r ⟨hopen, haligned, hhere⟩
  rw [exec_registerWrite_of_open hopen haligned]
  simp only [State.regWrite, hhere]

theorem registerStores_leaves : Claims.registerStores := fun _ _ _ _ => ⟨rfl, rfl, rfl, rfl, rfl, rfl, rfl, rfl, rfl, rfl, rfl⟩

theorem regErrKept_leaves : Claims.regErrKept := by
  intro s p h v
  refine ⟨rfl, ?_⟩
  rw [State.regStore, setRegs_regs_self]

theorem registerRead_leaves : Claims.registerRead := by
  intro s p h off r hhere
  refine ⟨by simp only [State.regRead, hhere], fun hlock htick hmf => ?_, ?_, ?_⟩
  · unfold State.regTouch
    split
    next l => exact absurd rfl (hlock l)
    next => exact absurd rfl htick
    next => exact absurd rfl hmf
    next => rfl
  · rintro rfl
    rfl
  · rintro l rfl hfree
    unfold State.regTouch
    dsimp only
    split
    next b hheld => exact absurd hheld (hfree b)
    next => rfl

/-! ### Accesses that miss (R655, R673) -/

theorem setRegs_self : s.setRegs h s.regs.hubs[h] = s := by
  have hset : Vector.set s.regs.hubs h.val s.regs.hubs[h] h.isLt = s.regs.hubs := Vector.set_getElem_self h.isLt
  unfold State.setRegs
  dsimp only
  rw [hset]

theorem setRegs_setRegs {x y : HubRegs} : (s.setRegs h x).setRegs h y = s.setRegs h y := by
  simp only [State.setRegs, Vector.set_set]

/-- A path as HUB_REG_ERR names it (Table 20-7). -/
def pathCode : RegPath → Nat
  | .i3c => 1
  | .mailbox => 2

/-- What HUB_REG_ERR latches of an access, by its path, its cause and its offset (Table 20-7). -/
def latchWord (p : RegPath) (cause off : Nat) : BitVec 32 :=
  BitVec.ofNat 32 (pathCode p * 2 ^ 30 + cause * 2 ^ 28 + off % 2 ^ 16)

/-- HUB_REG_ERR takes an access while both flags are 0, and is kept otherwise (R673). -/
theorem regLatch_eq {cause off : Nat} : s.regLatch p h cause off = s.setRegs h { s.regs.hubs[h] with
    regErr := if s.regs.hubs[h].badAccess || s.regs.hubs[h].notHere then s.regs.hubs[h].regErr else latchWord p cause off } := by
  unfold State.regLatch
  dsimp only
  split
  · exact setRegs_self.symm
  · rfl

/-- A hub's registers after an access to an offset it does not hold (R655). -/
def missedRegs (r : HubRegs) (p : RegPath) (off : Nat) : HubRegs :=
  { r with
    notHere := r.notHere || (regAt off).isSome
    badAccess := r.badAccess || (regAt off).isNone
    regErr := if r.badAccess || r.notHere then r.regErr else latchWord p (if (regAt off).isSome then 2 else 1) off }

theorem regMiss_eq {o : Nat} : s.regMiss p h o = s.setRegs h (missedRegs s.regs.hubs[h] p o) := by
  simp only [State.regMiss, missedRegs, regLatch_eq]
  cases regAt o with
  | none => simp only [setRegs_regs_self, setRegs_setRegs, Option.isSome_none, Option.isNone_none, Bool.false_eq_true, if_false,
      Bool.or_false, Bool.or_true]
  | some r => simp only [setRegs_regs_self, setRegs_setRegs, Option.isSome_some, Option.isNone_some, if_true, Bool.or_true,
      Bool.or_false]

theorem regMiss_missed : Claims.missed s (s.regMiss p hub off.toNat) hub p off := by
  refine ⟨missedRegs s.regs.hubs[hub] p off.toNat, regMiss_eq, rfl, rfl, fun hflag => ?_, fun hbad hhere => ?_⟩
  · exact if_pos (Bool.or_eq_true_iff.mpr hflag)
  · have hclear : ¬ (s.regs.hubs[hub].badAccess || s.regs.hubs[hub].notHere) = true := by
      rw [hbad, hhere]
      exact Bool.false_ne_true
    refine (if_neg hclear).trans ?_
    rw [latchWord, Nat.mod_eq_of_lt off.isLt]
    cases p <;> rfl

theorem registerMiss_leaves : Claims.registerMiss := by
  rintro s hub p off ⟨hopen, haligned, hnone⟩
  have hread : s.regRead p hub off.toNat = (0, s.regMiss p hub off.toNat) := by
    simp only [State.regRead, hnone]
  refine ⟨fun v => ⟨_, (exec_registerWrite_of_open hopen haligned).trans ?_, regMiss_missed⟩, ?_, ?_⟩
  · simp only [State.regWrite, hnone]
  · rw [hread]
  · rw [hread]
    exact regMiss_missed

theorem pathClosed_leaves : Claims.pathClosed := by
  intro s p hub hclosed
  have hshut : (!s.pathOpen p hub) = true := by
    rw [hclosed]
    rfl
  refine ⟨fun off v => if_pos hshut, ?_, ?_, ?_⟩
  · rintro rfl
    exact if_pos hshut
  · rintro rfl l
    exact if_pos (by rw [hshut, Bool.true_or])
  · rintro rfl n
    exact if_pos hshut

/-- Settles O58: what reads and writes of the window leave, by an open path and a closed one, where they hit and where they miss. -/
theorem registersOfTheWindow : Obligations.RegistersOfTheWindow :=
  ⟨registerWrite_leaves, registerMiss_leaves, regErrKept_leaves, registerStores_leaves, pathClosed_leaves, registerRead_leaves⟩

end Sys2Proof.Machine
end

section
/-!
PROOF. The reset state (Machine/State.lean): the statement O3. Every value of it is one the model writes down; what stands
for every hub, barrier slot or link is read from a vector of equal entries.
-/
namespace Sys2Proof.Machine

/-! ### The reset state -/

/-- What every hub's blocks hold at reset. -/
theorem reset_hub (h : Hub) : State.reset.syn.hubs[h] = Sync.reset ∧ State.reset.mov.hubs[h] = Movers.reset
    ∧ State.reset.rel.hubs[h] = HubHealth.reset ∧ State.reset.pwr.hubs[h] = HubPower.reset
    ∧ State.reset.regs.hubs[h] = HubRegs.reset ∧ State.reset.evt.hubs[h] = Recorder.reset :=
  ⟨Vector.getElem_replicate h.isLt, Vector.getElem_replicate h.isLt, Vector.getElem_replicate h.isLt,
    Vector.getElem_replicate h.isLt, Vector.getElem_replicate h.isLt, Vector.getElem_replicate h.isLt⟩

theorem reset_bar (b : Fin 8) : State.reset.syn.bars[b] = BarSlot.reset := Vector.getElem_replicate b.isLt

theorem reset_link (l : LinkNo) : State.reset.lnk.links[l] = Link.reset := Vector.getElem_replicate l.isLt

/-- Settles O3: the values of the reset state, hub by hub, barrier by barrier and link by link. -/
theorem resetGivesTheSpecifiedValues : Obligations.ResetGivesTheSpecifiedValues := by
  refine ⟨rfl, rfl, rfl, rfl, rfl, rfl, fun h => ?_, fun h c => ?_, fun b => ?_, fun h l => ?_, fun l => ?_,
    rfl, rfl, rfl, rfl, rfl, rfl, rfl, rfl, rfl⟩
  · obtain ⟨hsyn, hmov, hrel, hpwr, hregs, hevt⟩ := reset_hub h
    simp only [State.hostCtr, State.chan, hsyn, hmov, hrel, hpwr, hregs, hevt]
    exact ⟨fun _ => rfl, rfl, fun _ => rfl, rfl, rfl, rfl, rfl, rfl, rfl, rfl, rfl, rfl, rfl, rfl, rfl⟩
  · obtain ⟨hsyn, -⟩ := reset_hub h
    simp only [State.ctrCfg, hsyn]
    rfl
  · rw [reset_bar]
    rfl
  · obtain ⟨hsyn, -⟩ := reset_hub h
    simp only [State.lock, hsyn]
    rfl
  · rw [reset_link]
    rfl

end Sys2Proof.Machine
end

section
/-!
PROOF. Registrations and freed handles (Machine/Handles.lean): the statements O17 and O18. First what the end of a command
leaves alone and which handles stay listed; a handle that is freed is listed until its charges are returned, whatever
ends with it.
-/
namespace Sys2Proof.Machine

variable {s : State}

/-! ### The end of a command (R304, R313, R322) -/

@[simp] theorem answer_works {t : Ticket} {d : Done} : (s.answer t d).works = s.works := by
  have hwrite : (if t.xres then s.hostWrite t.resultAddr d.xbytes else s).works = s.works := ite_works rfl rfl
  unfold State.answer
  dsimp only
  split
  · exact hwrite
  · exact post_works.trans hwrite

@[simp] theorem endDestroy_works {ring : Nat} : (s.endDestroy ring).works = s.works := by
  unfold State.endDestroy
  split
  · split
    · split
      · rw [answer_works]
        split <;> rfl
      · rfl
    · rfl
  · rfl

@[simp] theorem complete_works {t : Ticket} {d : Done} : (s.complete t d).works = s.works := by
  unfold State.complete
  split
  · rfl
  · rw [endDestroy_works, answer_works]
    rfl

@[simp] theorem complete_hs {t : Ticket} {d : Done} : (s.complete t d).hs = s.hs := congrArg Works.hs complete_works

@[simp] theorem handle_complete {t : Ticket} {d : Done} {k : HKey} : (s.complete t d).handle? k = s.handle? k := by
  simp only [State.handle?, complete_hs]

@[simp] theorem charge_hs {ctx tier : Nat} {n : Int} : (s.charge ctx tier n).hs = s.hs := by
  unfold State.charge
  split <;> rfl

@[simp] theorem returnCharges_hs {h : Handle} : (s.returnCharges h).hs = s.hs := by
  simp only [State.returnCharges, charge_hs]

@[simp] theorem batchEnded_hs {ctx b i : Nat} {st : BitVec 8} : (s.batchEnded ctx b i st).hs = s.hs := by
  unfold State.batchEnded
  split
  · split <;> rfl
  · rfl

theorem endWaiting_hs {ws : List WaitingRestore} {st : BitVec 8} : (s.endWaiting ws st).hs = s.hs := by
  refine List.foldlRecOn ws _ (motive := fun u : State => u.hs = s.hs) rfl (fun u hu w _ => ?_)
  split
  · exact batchEnded_hs.trans hu
  · exact complete_hs.trans hu

/-! ### Which handles are listed -/

/-- The keys of the handles that are listed. -/
def State.keys (s : State) : List HKey := s.hs.list.map Handle.key

theorem isSome_handle_iff {k : HKey} : (s.handle? k).isSome = true ↔ k ∈ s.keys := by
  simp [State.handle?, State.keys, List.find?_isSome]

theorem keys_of_hs {t : State} (h : t.hs = s.hs) : t.keys = s.keys := by
  simp only [State.keys, h]

theorem handle_key {k : HKey} {h : Handle} (hh : s.handle? k = some h) : h.key = k := by
  simpa using List.find?_some hh

/-- A handle's replacement by one of the same key changes no key. -/
theorem keys_setHandle {h : Handle} : (s.setHandle h).keys = s.keys := by
  simp only [State.keys, State.setHandle, List.map_map]
  refine List.map_congr_left (fun x _ => ?_)
  simp only [Function.comp_apply]
  split
  next hx => exact hx.symm
  next => rfl

/-- A handle replaced by one of the same key is found. -/
theorem handle_setHandle_of_handle {k : HKey} {h x : Handle} (hh : s.handle? k = some h) (hx : x.key = k) :
    (s.setHandle x).handle? k = some x := by
  subst hx
  exact handle_setHandle (by simp [hh])

theorem keys_unfill {h : Handle} : (s.unfill h).keys = s.keys :=
  keys_setHandle.trans (keys_of_hs returnCharges_hs)

theorem keys_dropRun {id : Nat} : (s.dropRun id).keys = s.keys := by
  simp only [State.keys, State.dropRun, List.map_map]
  rfl

theorem keys_failFill {h : Handle} {st : BitVec 8} : (s.failFill h st).keys = s.keys := by
  unfold State.failFill
  split
  · rfl
  · extract_lets group _ u v w
    have hu : u.keys = s.keys := by
      dsimp only [u]
      split
      · exact keys_dropRun
      · rfl
      · rfl
    have hv : v.keys = s.keys := by
      refine List.foldlRecOn group _ (motive := fun x : State => x.keys = s.keys) hu (fun x hx y _ => ?_)
      split
      · exact keys_unfill.trans hx
      · exact hx
    exact (keys_of_hs (endWaiting_hs.trans complete_hs)).trans hv


/-! ### REGISTER and generations (R41) -/

/-- The entry that REGISTER adds for the key of its descriptor. -/
def registered (s : State) (d : Desc) (g : Reg) (f : Fate) : Handle :=
  { key := { ctx := s.descCtx d, obj := d.f 103 64 }, gen := nextGen (s.genOf { ctx := s.descCtx d, obj := d.f 103 64 })
    shape := g.shape, fate := f
    perms := { g.perms with mutable := g.mutable, producer := g.producer, planned := g.planned }, place := g.place
    keepAddr := if f == .keep then g.keep else 0, state := if f == .drop then .discarded else .registered
    readers := 0, updates := 0, homes := [], recipe := none, marks := Marks.none, chargeShade := 0
    chargeUmbra := 0, chargePenumbra := 0, report := NarrowReport.none, content := [], frames := [], fill := none, mig := none
    waiting := [], pendingValue := none }

/-- Counting a tie of the rules changes no handle, so each check sees what it saw before. -/
theorem register_leaves : Claims.register := by
  rintro s d c g f tie ⟨hacc, hc, hg, hshape, hnew, hfate, hroom, hcount⟩
  refine ⟨registered s d g f, endsOk_of_accepts hacc rfl ?_, rfl, rfl, rfl, rfl, rfl, rfl, rfl, rfl, rfl, rfl, rfl, rfl,
    rfl⟩
  have hshape' : ¬ (!shapeOk g.shape.format g.shape.size g.shape.rows g.shape.rowLen) = true := by simp [hshape]
  have hfate' : ¬ (!fatePermitted g f) = true := by simp [hfate]
  have hnew' : ¬ (s.handle? { ctx := s.descCtx d, obj := d.f 103 64 }).isSome = true := by simp [hnew]
  dsimp only
  unfold State.register
  extract_lets k
  have hk : s.ctx? k.ctx = some c := hc
  rw [hk]
  dsimp -zeta only
  rw [hg]
  dsimp -zeta only
  cases tie <;>
    exact (if_neg hshape').trans <| (if_neg hnew').trans <| (if_neg hfate').trans <| (if_neg hroom.not_gt).trans <|
      (if_neg hcount.not_ge).trans rfl

/-- A generation noted for a key is the key's, and every other key keeps its own. -/
theorem genOf_noted {k j : HKey} {g : BitVec 8} {t : State}
    (ht : t.hs.gens = s.hs.gens.filter (fun x => decide (x.1 ≠ k)) ++ [(k, g)]) :
    t.genOf j = if j = k then g else s.genOf j := by
  simp only [State.genOf, ht, List.find?_append, List.find?_filter]
  split
  next hj =>
    have hnone : s.hs.gens.find? (fun _ => false) = none := by simp [List.find?_eq_none]
    simp [hj, hnone]
  next hj =>
    have hsame : (fun x : HKey × BitVec 8 => decide (decide (x.1 ≠ k) = true ∧ (x.1 == j) = true))
        = fun x => x.1 == j := by
      funext x
      by_cases hx : x.1 = j <;> simp [hx, hj]
    rw [hsame]
    simp [Ne.symm hj]

theorem generations_hold : Claims.generations := by
  refine ⟨fun _ => rfl, fun _ _ _ _ => rfl, rfl, fun g hg => if_neg hg, ?_⟩
  intro s d c g f tie hpre
  obtain ⟨h, hexec, hkey, hgen, -⟩ := register_leaves s d c g f tie hpre
  obtain ⟨-, -, -, -, hnew, -⟩ := hpre
  refine ⟨_, h, hexec, ?_, hgen, ?_, fun j hj => ?_⟩
  · rw [handle_complete]
    have hnone : s.hs.list.find? (fun x : Handle => x.key == { ctx := s.descCtx d, obj := d.f 103 64 }) = none := hnew
    simp only [State.handle?, List.find?_append, hnone]
    simp [hkey]
  · exact (genOf_noted (congrArg HandleStore.gens complete_hs)).trans (if_pos rfl)
  · exact (genOf_noted (congrArg HandleStore.gens complete_hs)).trans (if_neg hj)

/-- Settles O17: what REGISTER adds, and the generation each registration takes. -/
theorem registrationsTakeGenerations : Obligations.RegistrationsTakeGenerations := ⟨register_leaves, generations_hold⟩

/-! ### FREE and FREE_SET (R48, R64) -/

/-- A handle that a word names is the one listed under its key. -/
theorem handle_of_named {ctx w : Nat} {h : Handle} (hn : s.named ctx w = .ok h) : s.handle? h.key = some h := by
  unfold State.named at hn
  split_ifs at hn
  split at hn
  · cases hn
  next x hx =>
    split_ifs at hn
    cases hn
    rwa [handle_key hx]

/-- What a freed handle becomes. -/
def Handle.freed (x : Handle) : Handle := { x with state := .freeing, fill := none, mig := none }

theorem keys_freePending {k : HKey} : (s.freePending k).keys = s.keys := rfl

/-- The work of a handle's migration is given up; what asked for it is told (R48). -/
def State.dropMigration (s : State) (h : Handle) : State :=
  match h.mig with
  | some m =>
    let s := s.dropLaneWork h.key
    let s := (s.eng.runs.filter (fun r : Run => r.kind == RunKind.materialize && r.target == some h.key)).foldl
      (fun (s : State) (r : Run) => s.dropRun r.id) s
    (match m.ticket with
      | some t => s.complete t { status := 0x25 }
      | none => s)
  | none => s

theorem keys_dropMigration {h : Handle} : (s.dropMigration h).keys = s.keys := by
  unfold State.dropMigration
  split
  next m _ =>
    extract_lets u v
    have hv : v.keys = s.keys :=
      List.foldlRecOn _ _ (motive := fun x : State => x.keys = s.keys) rfl (fun _ hx _ _ => keys_dropRun.trans hx)
    split
    · exact (keys_of_hs complete_hs).trans hv
    · exact hv
  next => rfl

/-- FREE of a listed handle ends its fill and its migration, and leaves it in FREEING. -/
theorem freeHandle_of_handle {h : Handle} (hh : s.handle? h.key = some h) : ∃ x : Handle,
    (((s.freePending h.key).failFill h 0x25).dropMigration h).handle? h.key = some x
      ∧ s.freeHandle h = (((s.freePending h.key).failFill h 0x25).dropMigration h).setHandle x.freed := by
  have hkeys : (((s.freePending h.key).failFill h 0x25).dropMigration h).keys = s.keys :=
    keys_dropMigration.trans (keys_failFill.trans keys_freePending)
  have hlisted : h.key ∈ s.keys := isSome_handle_iff.mp (by simp [hh])
  obtain ⟨x, hx⟩ := Option.isSome_iff_exists.mp (isSome_handle_iff.mpr (hkeys ▸ hlisted))
  refine ⟨x, hx, ?_⟩
  simp only [State.freeHandle, hh, Option.getD_some]
  change (match (((s.freePending h.key).failFill h 0x25).dropMigration h).handle? h.key with
    | some x => (((s.freePending h.key).failFill h 0x25).dropMigration h).setHandle x.freed
    | none => _) = _
  rw [hx]

theorem freeOne_leaves : Claims.freeOne := by
  rintro s d h ⟨hacc, hn⟩
  exact endsOk_of_accepts hacc rfl (by simp only [hn])

theorem free_leaves : Claims.free := by
  rintro s d h hpre
  have ⟨_, hn⟩ := hpre
  have hh : s.handle? h.key = some h := handle_of_named hn
  obtain ⟨x, hx, hfree⟩ := freeHandle_of_handle hh
  have hkey : x.freed.key = h.key := handle_key (h := x) hx
  refine ⟨s.freeHandle h, x.freed, freeOne_leaves s d h hpre, ?_, rfl, rfl, rfl, fun hfill hmig => ?_⟩
  · rw [hfree]
    exact handle_setHandle_of_handle hx hkey
  · have hno : ((s.freePending h.key).failFill h 0x25).dropMigration h = s.freePending h.key := by
      simp only [State.dropMigration, hmig, State.failFill, hfill]
    rw [hno] at hx hfree
    have hxh : x = h := Option.some.inj (hx.symm.trans hh)
    rw [hfree, hxh]
    rfl

theorem freeSet_leaves : Claims.freeSet := fun _ _ hacc => endsOk_of_accepts hacc rfl rfl

theorem handleFreed_leaves : Claims.handleFreed := by
  rintro s k h ⟨hh, hstate, hreaders, hpins⟩
  change execHandleFreed k s = _
  simp [execHandleFreed, hh, hstate, hreaders, hpins]

/-- Settles O18: what FREE does to a handle, FREE_SET to each of a set, and what the end of a freed handle returns. -/
theorem handlesAreFreed : Obligations.HandlesAreFreed :=
  ⟨free_leaves, freeSet_leaves, freeOne_leaves, handleFreed_leaves⟩

end Sys2Proof.Machine
end


section
/-!
PROOF. Restores, updates and queries of handles (Machine/Restores.lean, Machine/Fills.lean): the statement
O19. A command's checks are passed one after the other; then the branch that the handle's state and fate choose says what is done.
-/
namespace Sys2Proof.Machine

variable {s : State}

/-! ### RESTORE (R54, R59, R85, R197) -/

theorem restore_leaves : Claims.restore := by
  rintro s d h ⟨hacc, hn, hcheck, htiers, hperm, hfate⟩
  refine congrArg Host.Outcome.next ((withDesc_of_accepts hacc).trans ?_)
  have hopen : ¬ (!s.tiersUp h || s.permuting h.key) = true := by simp [htiers, hperm]
  have hstored : (h.fate == Fate.recompute) = false := beq_eq_false_iff_ne.mpr hfate
  simp only [hn, hcheck, if_neg hopen, State.acceptRestore, State.startRestore, hstored, Bool.false_eq_true, if_false]
  rfl

/-- A delivery with no poisoned block from one hub's port completes at that hub, with the range's digest. -/
theorem restoreEnded_of_local {k : HKey} {w : WaitingRestore} {ports : List Hub} {d : Done} (hbatch : w.batch = none)
    (hports : ports.all (fun h => h == hubOf w.ticket.ring) = true) (hstatus : d.status = 0) (hrelease : w.release = false) :
    s.restoreEnded k w ports d = s.complete w.ticket d := by
  simp only [State.restoreEnded, hbatch, State.completeVia, hports, hstatus, hrelease, if_true, decide_true, Bool.and_false,
    Bool.false_eq_true, if_false]

/-- A range that passes its checks is not empty and lies in its object. -/
theorem range_of_restoreCheck {h : Handle} {off len dest : Nat} {glint : Bool}
    (hcheck : restoreCheck h off len dest glint = none) : 0 < (if len = 0 then h.shape.size - off else len) := by
  unfold restoreCheck at hcheck
  extract_lets stop at hcheck
  split_ifs at hcheck with _ _ hbound
  simp only [Bool.or_eq_true, decide_eq_true_eq, not_or, Nat.not_le] at hbound
  split <;> omega

/-- A range of a KEEP handle's first stripe that no poisoned block touches comes from host memory (R54). -/
theorem deliver_of_keep {h : Handle} {off len dest : Nat} (hfate : h.fate = .keep)
    (hclean : s.hostPoisonBlocks h.keepAddr h.shape.size = []) (hpos : 0 < len) (hend : off + len ≤ 2097152) :
    s.deliver h off len dest false
      = (s.hostDeliver dest len (tabSlice (s.hostSlice h.keepAddr h.shape.size) off len) (off % 4096) [],
        { status := 0, poison := [], ports := [hubOf 0], digest := digestRange (s.hostSlice h.keepAddr h.shape.size) off len
          length := len }) := by
  have hfirst : off / 2097152 = 0 := by omega
  have hone : (off + len + 2097151) / 2097152 = 1 := by omega
  have hstop : min (off + len) 2097152 - off = len := by omega
  have hkeep : (h.fate == Fate.keep) = true := beq_iff_eq.mpr hfate
  have hport : h.stripeHub 0 = hubOf 0 := if_pos hkeep
  simp only [State.deliver, hfirst, hone, State.objectRange, State.objectPoison, hkeep, hclean, State.stripeReadable,
    State.deliverBytes]
  simp [hstop, hport, Nat.pos_iff_ne_zero.mp hpos]

theorem restoreKeep_leaves : Claims.restoreKeep := by
  rintro s d h r ⟨hpre, hfate, hstate, hglint, hrelease, hclean, hr, hoff, hend, hhub⟩ len data
  have ⟨_, _, hcheck, _⟩ := hpre
  have hpos : 0 < len := range_of_restoreCheck hcheck
  have hraw : (Claims.restoreOf s d).glint = false := by simp [Claims.restoreOf, hglint]
  have hkept : (Claims.restoreOf s d).release = false := by simp [Claims.restoreOf, hrelease]
  have hstate' : ¬ (h.state == HState.filling) = true := by simp [hstate]
  have hlanes : ¬ s.expandsOnLanes h (Claims.restoreOf s d) = true := by simp [State.expandsOnLanes, hfate]
  have hlocal : [hubOf 0].all (fun g => g == hubOf (Claims.restoreOf s d).ticket.ring) = true := by
    rw [List.all_cons, List.all_nil, Bool.and_true]
    exact beq_iff_eq.mpr hhub.symm
  rw [restore_leaves s d h hpre]
  have hdeliver : s.deliver h (Claims.restoreOf s d).offset len (Claims.restoreOf s d).dest false = _ :=
    deliver_of_keep hfate hclean hpos hend
  rw [if_neg hstate', if_neg hlanes, State.deliverRestore, hraw, hdeliver]
  exact congrArg Host.Outcome.next (restoreEnded_of_local rfl hlocal rfl hkept)

/-! ### UPDATE (R43, R61) -/

/-- Every stripe of a range within an object is one of its stripes. -/
theorem lt_stripeCount {size off len k : Nat} (hend : off + len ≤ size)
    (hk : k ∈ (List.range ((off + len + 2097151) / 2097152 - off / 2097152)).map (fun i => off / 2097152 + i)) :
    k < stripeCount size := by
  simp only [List.mem_map, List.mem_range] at hk
  obtain ⟨i, hi, rfl⟩ := hk
  unfold stripeCount
  omega

/-- A unit that takes work is not OUT. -/
theorem ne_out_of_takes {u : UnitState} (h : u.takes = true) : u ≠ .out := by
  rintro rfl
  exact Bool.false_ne_true h

theorem update_leaves : Claims.update := by
  rintro s d h ⟨hacc, hn, hmut, hstate, hext, hcount, hoff, hend, hmig, hreaders, htiers, hpending, hperm, hhomes⟩ len
  refine congrArg Host.Outcome.next ((withDesc_of_accepts hacc).trans ?_)
  simp only [hn]
  change d.ext = true → strayBits d.payload.toNat [(8 * len - 1, 0)] = false ∧ len ≤ 192 at hext
  change d.f 167 128 + len ≤ h.shape.size at hend
  have hstray : ¬ (d.ext && strayBits d.payload.toNat [(8 * len - 1, 0)]) = true := by
    cases he : d.ext with
    | true => simp [(hext he).1]
    | false => simp
  have hlong : ¬ (d.ext && decide (192 < len)) = true := by
    cases he : d.ext with
    | true => simp [(hext he).2]
    | false => simp
  have hmut' : ¬ (!h.perms.mutable) = true := by simp [hmut]
  have hstate' : ¬ (h.state != HState.resident && h.state != HState.migrating) = true := by simp [hstate]
  have hkind : ¬ ((d.f 320 320 == 1) != (h.fate == Fate.keep)) = true := by simp [hcount]
  have hrange : ¬ (decide (h.shape.size ≤ d.f 167 128) || decide (h.shape.size < d.f 167 128 + len)) = true := by
    simp [hoff, hend]
  have hready : ¬ (h.mig.isSome || decide (0 < h.readers) || !s.tiersUp h || s.hasPending h.key
      || s.permuting h.key) = true := by
    simp [hmig, hreaders, htiers, hpending, hperm]
  refine (if_neg hstray).trans <| (if_neg hmut').trans <| (if_neg hstate').trans <| (if_neg hkind).trans <|
    (if_neg hrange).trans <| (if_neg hlong).trans <| (if_neg hready).trans ?_
  by_cases hkeep : h.fate = .keep
  · rw [if_pos hkeep]
    exact if_pos (hcount.trans (beq_iff_eq.mpr hkeep))
  · obtain ⟨htakes, hstripes⟩ := hhomes hkeep
    rw [if_neg hkeep]
    have hwrites : ¬ (d.f 320 320 == 1) = true := by simp [hcount, hkeep]
    have hstripe (k : Nat) (hk : k ∈ (List.range ((d.f 167 128 + len + 2097151) / 2097152 - d.f 167 128 / 2097152)).map
        (fun i => d.f 167 128 / 2097152 + i)) : ∃ x, h.homes[k]? = some x ∧ (s.unitState x.unit).takes = true := by
      have hlt : k < h.homes.length := hstripes ▸ lt_stripeCount hend hk
      exact ⟨h.homes[k], List.getElem?_eq_getElem hlt, List.all_eq_true.mp htakes _ (List.getElem_mem hlt)⟩
    refine (if_neg hwrites).trans <| (if_neg ?_).trans <| (if_neg ?_).trans rfl
    · simp only [List.any_eq_true, not_exists, not_and]
      intro k hk
      obtain ⟨x, hx, ht⟩ := hstripe k hk
      simp [hx, ne_out_of_takes ht]
    · simp only [List.any_eq_true, not_exists, not_and]
      intro k hk
      obtain ⟨x, hx, ht⟩ := hstripe k hk
      simp [hx, ht]

/-! ### QUERY_HANDLE (R88, Table 9-13) -/

theorem queryHandle_leaves : Claims.queryHandle := by
  rintro s d h ⟨hacc, hq⟩ tiles u
  refine congrArg Host.Outcome.next ((withDesc_of_accepts hacc).trans ?_)
  simp only [hq]
  rfl

/-- Settles O19: what a restore from a KEEP handle delivers, an update writes and a query reports. -/
theorem keptRangesUpdatesAndQueries : Obligations.KeptRangesUpdatesAndQueries :=
  ⟨restoreKeep_leaves, update_leaves, queryHandle_leaves⟩

end Sys2Proof.Machine
end


section
/-!
PROOF. The ends of fills (Machine/Fills.lean, Machine/Restores.lean): the statement O21. A fill that serves no run and no remote
operation is its handle's alone, so its end changes one handle and answers what waits for that handle.
-/
namespace Sys2Proof.Machine

variable {s : State}

/-! ### Fills that end well (R59, R198, Table 2-7) -/

theorem fillComplete_leaves : Claims.fillComplete := by
  rintro s k h f ⟨hstall, hh, hfill, hstate, hop, hrun, hlanes, hsource, hrecipe, hfate⟩ x
  have hkept : (h.fate == Fate.recompute) = false := beq_eq_false_iff_ne.mpr hfate
  change execFillComplete k .ok s = _
  simp [execFillComplete, hstall, hh, hfill, hstate, hop, hrun, hlanes, hsource, hrecipe, hkept, x]

/-- A handle not to be narrowed settles in one step. -/
theorem settleFill_of_plain {h : Handle} (hfate : h.fate ≠ .narrow) : s.settleFill h
    = s.setHandle { h with state := if h.fate == .recompute then .latent else .resident, fill := none } := by
  unfold State.settleFill
  rw [if_neg (mt beq_iff_eq.mp hfate)]

theorem endFill_ends : Claims.endFill := by
  rintro s h x f ⟨hx, hfate, -, -⟩
  refine ⟨_, rfl, ?_⟩
  have hfound := handle_setHandle_of_handle hx
    (x := { h with state := if h.fate == .recompute then .latent else .resident, fill := none }) rfl
  simp only [State.endFill, settleFill_of_plain hfate, hfound]

/-! ### Fills that fail (R59, Table 2-7) -/

/-- A failed fill of one handle leaves that handle REGISTERED and uncharged, and ends what waits with its status. -/
theorem failFill_of_alone {h : Handle} {f : Fill} {st : BitVec 8} (hh : s.handle? h.key = some h) (hfill : h.fill = some f)
    (hrun : f.run = none) (hop : f.op = none) :
    s.failFill h st = ((s.unfill h).complete f.ticket { status := st }).endWaiting h.waiting st := by
  simp [State.failFill, hfill, hrun, hop, hh]

/-- FILL_COMPLETE of a fill that failed fails it with that status. -/
theorem exec_fillComplete_of_failed {k : HKey} {h : Handle} {f : Fill} {r : HopEnd} (hstall : s.stalled = false)
    (hh : s.handle? k = some h) (hfill : h.fill = some f) (hstate : h.state = .filling) (hr : r ≠ .ok) :
    exec (.fillComplete k r) s = .next (s.failFill h (HopEnd.code r)) := by
  change execFillComplete k r s = _
  simp [execFillComplete, hstall, hh, hfill, hstate, hr]

theorem fillFailed_leaves : Claims.fillFailed := by
  intro s k h f r hstall hh hfill hstate hr hrun hop hwaiting
  rw [exec_fillComplete_of_failed hstall hh hfill hstate hr, failFill_of_alone (handle_key hh ▸ hh) hfill hrun hop, hwaiting]
  rfl

theorem waitingFails_ends : Claims.waitingFails := by
  rintro s k h f w r ⟨hstall, hh, hfill, hstate, hr, hrun, hop, hwaiting, hbatch⟩
  refine ⟨s.unfill h, ?_⟩
  rw [exec_fillComplete_of_failed hstall hh hfill hstate hr, failFill_of_alone (handle_key hh ▸ hh) hfill hrun hop, hwaiting]
  simp only [State.endWaiting, List.foldl_cons, List.foldl_nil, hbatch]

/-- Settles O21: how a RESTORE begins, how a fill ends well or badly, and what waited for it. -/
theorem fillsEndAndRestoresWait : Obligations.FillsEndAndRestoresWait :=
  ⟨restore_leaves, fillComplete_leaves, endFill_ends, fillFailed_leaves, waitingFails_ends⟩

end Sys2Proof.Machine
end


section
/-!
PROOF. Migrations (Machine/Fills.lean): the statement O22. MIGRATE passes one check after the other; a stripe's commit, a
release and a stop each change one handle and let the migrations go on.
-/
namespace Sys2Proof.Machine

variable {s : State}

/-! ### MIGRATE (R56, R64, R66, R141, R146) -/

theorem migrate_leaves : Claims.migrate := by
  rintro s d h u ⟨hacc, hn, hstate, hfate, hgoal, htier, hhub, hstack, hlink, hallowed, hpending, hperm, htarget, hstart⟩
  refine congrArg Host.Outcome.next ((withDesc_of_accepts hacc).trans ?_)
  simp only [hn]
  have hlive : ¬ (h.state != HState.resident && h.state != HState.latent) = true := by simp [hstate]
  have hplace : ¬ (Fate.ofCode (d.f 130 128) != Fate.recompute && (decide (d.f 323 320 = 0)
      || (decide (d.f 323 320 = 2) && decide (d.f 339 336 = 0))
      || (decide (d.f 323 320 = 3) && decide (d.f 351 344 = 0)))) = true := by
    simp only [Bool.and_eq_true, Bool.or_eq_true, decide_eq_true_eq, not_and, not_or]
    exact fun _ => ⟨⟨htier, hhub⟩, fun h3 => (hstack h3).1⟩
  have hallowed' : ¬ (!changeAllowed h (Fate.ofCode (d.f 130 128))) = true := by simp [hallowed]
  have hhome : ¬ ((h.state == HState.latent) != (h.fate == Fate.recompute)) = true := by simp [hstate, hfate]
  have hinputs : ¬ ((h.fate == Fate.recompute || Fate.ofCode (d.f 130 128) == Fate.recompute) && !s.inputsLive h) = true := by
    simp [hfate, hgoal]
  have hmoves : ¬ (Fate.ofCode (d.f 130 128) == Fate.recompute) = true := by simp [hgoal]
  have hready : ¬ ((decide (d.f 323 320 = 3) && !s.start.umbra) || (decide (d.f 323 320 = 4) && !s.start.links)
      || s.hasPending h.key || s.permuting h.key) = true := by
    simp only [hpending, hperm, Bool.or_false, Bool.or_eq_true, Bool.and_eq_true, decide_eq_true_eq, Bool.not_eq_true', not_or,
      not_and, Bool.not_eq_false]
    exact ⟨fun h3 => (hstack h3).2, hlink⟩
  refine (if_neg hlive).trans <| (if_neg hplace).trans <| (if_neg hallowed').trans <| (if_neg hhome).trans <|
    (if_neg hinputs).trans <| (if_neg hmoves).trans <| (if_neg hready).trans ?_
  simp only [htarget, hstart]

theorem migrateRecompute_leaves : Claims.migrateRecompute := by
  rintro s d h ⟨hacc, hn, hstate, hgoal, hfate, hallowed, hinputs⟩
  refine congrArg Host.Outcome.next ((withDesc_of_accepts hacc).trans ?_)
  have hhome : ¬ ((HState.resident == HState.latent) != (h.fate == Fate.recompute)) = true := by simp [hfate]
  simp only [hn, State.migrate, hgoal, hstate, hallowed, hinputs]
  exact (if_neg (by decide)).trans <| (if_neg Bool.false_ne_true).trans <| (if_neg Bool.false_ne_true).trans <|
    (if_neg hhome).trans <| (if_neg (by simp)).trans <| (if_pos rfl)

@[simp] theorem setCharged_fate {h : Handle} {tier n : Nat} : (h.setCharged tier n).fate = h.fate := by
  unfold Handle.setCharged
  split_ifs <;> rfl

@[simp] theorem setCharged_shape {h : Handle} {tier n : Nat} : (h.setCharged tier n).shape = h.shape := by
  unfold Handle.setCharged
  split_ifs <;> rfl

theorem startMigrate_starts : Claims.startMigrate := by
  rintro s h goal pl prio t ⟨hfate, htakes⟩ free n u x todo m
  have hfree : (h.homes.all (fun x => x.unit.tier == pl.tier) && h.fate != Fate.recompute || decide (h.charged pl.tier ≠ 0))
      = free := by rw [bne_iff_ne.mpr hfate, Bool.and_true]
  have htaken : ¬ (!free && !s.ledgerTakes h.key.ctx pl.tier n) = true := by
    simp only [Bool.and_eq_true, Bool.not_eq_true', not_and, Bool.not_eq_false, free, Bool.or_eq_false_iff,
      decide_eq_false_iff_not, not_not]
    rintro ⟨hhomes, hcharged⟩
    exact htakes.resolve_right (not_or.mpr ⟨ne_true_of_eq_false hhomes, not_not_intro hcharged⟩)
  have hshape : x.shape = h.shape := by
    simp only [x]
    split
    · rfl
    · exact setCharged_shape
  have hkept : ¬ (x.fate == Fate.recompute) = true := by
    have hsame : x.fate = h.fate := by
      simp only [x]
      split
      · rfl
      · exact setCharged_fate
    simp [hsame, hfate]
  unfold State.startMigrate
  rw [hfree]
  extract_lets free' u' x' todo' m'
  have htodo : todo' = todo := by
    change (List.range (stripeCount x.shape.size)).filter _ = _
    rw [hshape]
  refine (if_neg htaken).trans <| (if_neg hkept).trans ?_
  have hmig : m' = m := by
    simp only [m', m, htodo]
    rfl
  rw [hmig]

/-! ### Stripes (R62, R64, R65) -/

/-- A handle whose migration is under way and that is not RECOMPUTE lets the migrations go on. -/
theorem settleMigration_of_stored {k : HKey} {h : Handle} {m : Mig} (hh : s.handle? k = some h) (hm : h.mig = some m)
    (hfate : h.fate ≠ .recompute) : s.settleMigration k = s.pumpMigs := by
  simp [State.settleMigration, hh, hm, hfate]

theorem stripeCommit_leaves : Claims.stripeCommit := by
  rintro s k stripe h m x rest ⟨hstall, hh, hm, hcopies, rfl, hmaking, hlanes, hgoal, hfate, hlt⟩
  have hold : h.homes[x.stripe]? = some h.homes[x.stripe] := List.getElem?_eq_getElem hlt
  have hplain : (m.fate == Fate.narrow) = false := beq_eq_false_iff_ne.mpr hgoal
  refine ⟨h.homes[x.stripe], hold, ?_⟩
  change execStripeCommit k x.stripe .good s = _
  have hcommit : execStripeCommit k x.stripe .good s = .next (s.commitStripe h m x) := by
    simp [execStripeCommit, hstall, hh, hm, hcopies, hmaking, hlanes]
  rw [hcommit, State.commitStripe]
  simp only [hold, hplain, hlt, Bool.false_and, Bool.false_eq_true, if_false, if_true]
  have hown : s.handle? h.key = some h := handle_key hh ▸ hh
  exact congrArg Host.Outcome.next
    (settleMigration_of_stored (handle_setHandle_of_handle hown rfl) rfl hfate)

theorem stripeFailed_leaves : Claims.stripeFailed := by
  rintro s k stripe h m x rest ⟨hstall, hh, hm, hcopies, hstripe, hmaking, hlanes, hgoal, hfate, hlt⟩
  change execStripeCommit k stripe .failedTwice s = _
  simp [execStripeCommit, hstall, hh, hm, hcopies, hstripe, hmaking, hfate]

theorem oldLocationRelease_leaves : Claims.oldLocationRelease := by
  rintro s k stripe h m ⟨hh, hm, hold⟩ m' u
  change execOldLocationRelease k stripe s = _
  simp only [execOldLocationRelease, hh, hm, hold, Bool.not_true, Bool.false_eq_true, if_false]
  split <;> rfl

/-! ### The stop of a core (R66) -/

theorem migrationStopped_leaves : Claims.migrationStopped := by
  rintro s hub core k h m ⟨hlist, hkey, hm, hstate, hc3, hc1⟩
  have hh : s.handle? h.key = some h := by simp [State.handle?, hlist]
  change execMigrationStopped hub core s = _
  cases core with
  | c3 =>
    simp only [execMigrationStopped, hlist, List.filterMap_cons, List.filterMap_nil, hm, hstate, hc3 rfl, beq_self_eq_true,
      Bool.and_self, if_true, List.foldl_cons, List.foldl_nil, hh]
  | c1 =>
    have hentry : (h.key.entry == hub) = true := beq_iff_eq.mpr (hkey ▸ hc1 rfl)
    simp only [execMigrationStopped, hlist, List.filterMap_cons, List.filterMap_nil, hm, hstate, hentry, beq_self_eq_true,
      Bool.and_self, if_true, List.foldl_cons, List.foldl_nil, hh]

/-- Settles O22: what starts a migration, commits or fails a stripe, and ends or stops a migration. -/
theorem migrationsMoveStripes : Obligations.MigrationsMoveStripes :=
  ⟨migrate_leaves, startMigrate_starts, migrateRecompute_leaves, stripeCommit_leaves, stripeFailed_leaves,
   oldLocationRelease_leaves, migrationStopped_leaves⟩

end Sys2Proof.Machine
end


section
/-!
PROOF. Banks, stacks and peers (Machine/Units.lean, Machine/Ckpt.lean): the statement O26. A change of a unit's state leaves
every handle and every link as it was, so a loss of a unit reaches exactly the handles that the state before it shows
there.
-/
namespace Sys2Proof.Machine

variable {s : State}

/-! ### What a change of a unit leaves alone -/

theorem event_vault {h : Hub} {e : Event} : (s.event h e).vault = s.vault := by
  unfold State.event
  dsimp only
  split
  · rfl
  · split <;> rfl

/-- A unit's state is kept with the units or with its peer; its change touches no handle, link or operation (R148). -/
theorem setUnit_leaves {u : TierUnit} {st : UnitState} : (s.setUnit u st).hs = s.hs
    ∧ (s.setUnit u st).lnk.links = s.lnk.links ∧ (s.setUnit u st).vault = s.vault := by
  unfold State.setUnit
  extract_lets old _ v
  have hv : v.hs = s.hs ∧ v.lnk.links = s.lnk.links ∧ v.vault = s.vault := by
    dsimp only [v]
    cases u with
    | shade h b => exact ⟨rfl, rfl, rfl⟩
    | umbra k => exact ⟨rfl, rfl, rfl⟩
    | penumbra l =>
      dsimp only
      split <;> exact ⟨rfl, rfl, rfl⟩
  obtain ⟨hhs, hlinks, hvault⟩ := hv
  exact ⟨(congrArg Works.hs event_works).trans hhs, (congrArg LinkStore.links event_lnk).trans hlinks,
    event_vault.trans hvault⟩

/-- Where no handle migrates, no migration goes on. -/
theorem pumpMigs_of_no_migration (h : ∀ x ∈ s.hs.list, x.mig = none) : s.pumpMigs = s := by
  have hnone : s.hs.list.filterMap (fun x : Handle => x.mig.map (fun m => (m.order, x.key))) = [] :=
    List.filterMap_eq_nil_iff.mpr fun x hx => by rw [h x hx, Option.map_none]
  simp only [State.pumpMigs, State.migOrder, hnone, List.mergeSort_nil, List.map_nil, List.foldl_nil]

/-! ### Units that change state (R148, R512) -/

theorem unitReduced_leaves : Claims.unitReduced := fun _ _ hstate =>
  congrArg Host.Outcome.next (if_pos (beq_iff_eq.mpr hstate))

theorem setUnit_records : Claims.setUnit := fun _ _ _ => rfl

theorem unitFreeze_leaves : Claims.unitFreeze := by
  intro s u htakes
  have hopen : ¬ (!(s.unitState u).takes) = true := by simp [htakes]
  refine (congrArg Host.Outcome.next (if_neg hopen)).trans ?_
  cases u <;> rfl

theorem drainStart_leaves : Claims.drainStart := fun _ _ hstate => if_neg (by simp [hstate])

theorem unitEmptied_leaves : Claims.unitEmptied := by
  rintro s u ⟨hstate, hempty⟩
  change execUnitEmptied u s = _
  simp only [execUnitEmptied, hstate, hempty, beq_self_eq_true, Bool.not_false, Bool.and_self, if_true]

theorem unitReturn_leaves : Claims.unitReturn := by
  intro s u epochMatches testPassed hstate lost
  have hgoes : ¬ (s.unitState u != UnitState.emptied && s.unitState u != UnitState.out) = true := by
    simp only [Bool.and_eq_true, bne_iff_ne, not_and, not_not]
    exact hstate.resolve_left
  refine (if_neg hgoes).trans ?_
  cases epochMatches with
  | true =>
    simp only [if_true, Bool.and_eq_true, beq_iff_eq, Bool.not_eq_true', apply_ite Host.Outcome.next]
  | false => cases u <;> rfl

/-! ### Units that are lost (R75, R148, R156) -/

theorem inUnit_setUnit {u v : TierUnit} {st : UnitState} : (s.setUnit u st).inUnit v = s.inUnit v := by
  obtain ⟨-, hlinks, -⟩ := setUnit_leaves (s := s) (u := u) (st := st)
  funext x
  unfold State.inUnit State.sameUnit
  rw [hlinks]

/-- Operations with a peer end with its unit; where none is under way nothing ends. -/
theorem endOps_of_no_op {u : TierUnit} (h : s.vault.ops = []) : s.endOps u = s := by
  cases u with
  | penumbra l => simp only [State.endOps, h, List.filter_nil, List.foldl_nil]
  | shade _ _ => rfl
  | umbra _ => rfl

theorem failFillsIn_of_no_fill {u : TierUnit} {st : BitVec 8} (h : ∀ x ∈ s.hs.list, x.state ≠ .filling) :
    s.failFillsIn u st = s := by
  have hnone : s.hs.list.filter (fun x : Handle => x.state == HState.filling && x.homes.any (s.inUnit u)) = [] :=
    List.filter_eq_nil_iff.mpr fun x hx => by simp [h x hx]
  simp only [State.failFillsIn, hnone, List.map_nil, List.foldl_nil]

theorem stopMigsInto_of_no_migration {u : TierUnit} {st : BitVec 8} (h : ∀ x ∈ s.hs.list, x.mig = none) :
    s.stopMigsInto u st = s := by
  have hnone : s.hs.list.filter (fun x : Handle => match x.mig with
      | some m => m.copies.any (fun c : Copy => s.inUnit u c.target)
      | none => false) = [] := List.filter_eq_nil_iff.mpr fun x hx => by simp [h x hx]
  unfold State.stopMigsInto
  extract_lets hit ks
  have hks : ks = [] := List.map_eq_nil_iff.mpr hnone
  rw [hks, List.foldl_nil]

theorem unitOut_leaves : Claims.unitOut := by
  rintro s u h ⟨hout, hlist, hstate, hmig, hfill, hhome, hops⟩
  obtain ⟨hhs, -, hvault⟩ := setUnit_leaves (s := s) (u := u) (st := .out)
  have hone : (s.setUnit u .out).hs.list = [h] := (congrArg HandleStore.list hhs).trans hlist
  have hfills : (s.setUnit u .out).failFillsIn u 0x22 = s.setUnit u .out :=
    failFillsIn_of_no_fill (by simp [hone, hstate])
  have hstops : (s.setUnit u .out).stopMigsInto u 0x22 = s.setUnit u .out :=
    stopMigsInto_of_no_migration (by simp [hone, hmig])
  have hh : (s.setUnit u .out).handle? h.key = some h := by simp [State.handle?, hone]
  have hlost : s.unitOut u = (s.setUnit u .out).setHandle { h with state := .faulted } := by
    simp only [State.unitOut, if_neg (mt beq_iff_eq.mp hout), hfills, hstops, hone, inUnit_setUnit,
      List.filter_cons, hhome, hstate, beq_self_eq_true, Bool.true_or, Bool.and_self, if_true,
      List.filter_nil, List.map_cons, List.map_nil, List.foldl_cons, List.foldl_nil, hh, hmig]
    exact pumpMigs_of_no_migration (by simp [State.setHandle, hone])
  change execUnitOut u s = _
  rw [execUnitOut, hlost]
  exact congrArg Host.Outcome.next (endOps_of_no_op ((congrArg VaultStore.ops hvault).trans hops))

theorem penumbraOut_leaves : Claims.penumbraOut := by
  rintro s l p t ⟨hpeer, hdown, hlong, hout, hlist, hops⟩
  obtain ⟨hhs, -, hvault⟩ := setUnit_leaves (s := s) (u := .penumbra l) (st := .out)
  have hnone : (s.setUnit (.penumbra l) .out).hs.list = [] := (congrArg HandleStore.list hhs).trans hlist
  have hlost : s.unitOut (.penumbra l) = s.setUnit (.penumbra l) .out := by
    simp only [State.unitOut, if_neg (mt beq_iff_eq.mp hout)]
    rw [failFillsIn_of_no_fill (by simp [hnone]), stopMigsInto_of_no_migration (by simp [hnone])]
    simp only [hnone, List.filter_nil, List.map_nil, List.foldl_nil]
    exact pumpMigs_of_no_migration (by simp [hnone])
  change execPenumbraOut l s = _
  simp only [execPenumbraOut, hpeer, hdown, hlong, if_true, hlost]
  rw [endOps_of_no_op ((congrArg VaultStore.ops hvault).trans hops)]

theorem penumbraWaits_leaves : Claims.penumbraWaits := by
  rintro s l p t ⟨hpeer, hdown, hshort⟩
  change execPenumbraOut l s = _
  simp only [execPenumbraOut, hpeer, hdown, if_neg hshort.not_ge]

theorem penumbraResend_leaves : Claims.penumbraResend := by
  rintro s link tag q p l ⟨hq, hpeer, hnext, hdue⟩ x
  change execPenumbraResend link tag s = _
  simp only [execPenumbraResend, hq, hpeer, hnext, if_neg hdue.not_gt]
  rfl

/-- Settles O26: the states that banks, stacks and peers take, and what they end. -/
theorem unitsOfTheTiers : Obligations.UnitsOfTheTiers :=
  ⟨unitReduced_leaves, setUnit_records, unitFreeze_leaves, drainStart_leaves, unitEmptied_leaves, unitReturn_leaves,
   unitOut_leaves, penumbraOut_leaves, penumbraWaits_leaves, penumbraResend_leaves⟩

end Sys2Proof.Machine
end


section
/-!
PROOF. Tiles of recipe runs (Machine/Runs.lean, Machine/Spares.lean, Machine/Tiles.lean): the statement O28. The only tile
that waits is dealt to the engine picked; the digests of a tile's runs decide what stands.
-/
namespace Sys2Proof.Machine

variable {s : State}

/-! ### Waves (R233, R237, R238) -/

/-- No engine is picked where none is free. -/
theorem free_of_pickEngine {hub : Hub} {free : List (Nat × Nat)} {turn : Nat} {w : TileWait} {x : Nat × Nat}
    (h : s.pickEngine hub free turn w = some x) : free.isEmpty = false := by
  cases free with
  | nil =>
    unfold State.pickEngine at h
    split at h <;> simp [rotateAfter] at h
  | cons => rfl

/-- The only tile that waits is dealt to the engine picked for it. -/
theorem deal_of_single {hub : Hub} {r : Run} {w : TileWait} {free : List (Nat × Nat)} {turn p e : Nat}
    (hrun : s.run? r.id = some r) (hpick : s.pickEngine hub free turn w = some (p, e)) :
    s.deal hub [(r, w)] free turn none
      = ((s.startTile hub e r w).setRun { r with todo := r.todo.filter (fun y => y ≠ w) }, some p) := by
  have hrun' : (s.startTile hub e r w).run? r.id = some r := hrun
  simp only [State.deal, hpick, hrun', Option.none_or]

theorem waveStart_leaves : Claims.waveStart := by
  rintro s hub r w p e ⟨hstall, hlost, horder, hrun, hpick⟩ u
  have hstall' : (s.start.quench.state == 2) = false := hstall
  have hfree := free_of_pickEngine hpick
  change execWaveStart hub s = _
  simp only [execWaveStart, hstall', hlost, horder, hfree, List.isEmpty_cons, Bool.or_self, Bool.false_eq_true, if_false,
    deal_of_single hrun hpick]
  rfl

/-! ### Tiles that end (R80, R235, R262, R264, R267) -/

theorem tileEnd_leaves : Claims.tileEnd := by
  rintro s hub e t r ⟨ht, hr, hpc, hquench⟩ u d bad
  have hgoes : ¬ (decide (t.pc < r.ops.length) || s.start.quench.state == 2) = true := by
    rw [decide_eq_false (Nat.not_lt.mpr hpc), beq_eq_false_iff_ne.mpr hquench, Bool.or_self]
    exact Bool.false_ne_true
  change execTileEnd hub e s = _
  simp only [execTileEnd, ht, hr, if_neg hgoes]
  cases t.role <;> rfl

/-! ### Duplicates (R264) -/

theorem agrees_iff {a b : TileDigests} : a.agrees b = true ↔ a.outs = b.outs ∧ a.check = b.check := by
  simp only [TileDigests.agrees, Bool.and_eq_true, beq_iff_eq]

theorem duplicateCompare_leaves : Claims.duplicateCompare := by
  rintro s run tile r x a b ⟨hr, hx, htodo, hbusy, hruns⟩
  change execDuplicateCompare run tile s = _
  simp only [execDuplicateCompare, hr, hx, htodo, hbusy, hruns, Bool.or_self, Bool.false_eq_true, if_false]
  by_cases hsame : a.outs = b.outs ∧ a.check = b.check
  · rw [if_pos hsame, if_pos (agrees_iff.mpr hsame)]
    rfl
  · rw [if_neg hsame, if_neg (mt agrees_iff.mp hsame)]

theorem duplicateThird_leaves : Claims.duplicateThird := by
  rintro s run tile r x a b c ⟨hr, hx, htodo, hbusy, hruns, -⟩
  change execDuplicateCompare run tile s = _
  simp only [execDuplicateCompare, hr, hx, htodo, hbusy, hruns, Bool.or_self, Bool.false_eq_true, if_false]
  rfl

/-! ### Engines that retire, and waits (R171, R266 to R268, R270, R471) -/

theorem engineRetired_leaves : Claims.engineRetired := fun _ _ _ hnew => congrArg Host.Outcome.next (if_neg hnew)

theorem chainSplice_leaves : Claims.chainSplice := by
  intro s hub e hsplice
  exact if_pos (beq_iff_eq.mpr hsplice)

theorem recipeStall_leaves : Claims.recipeStall := by
  rintro s hub e t since r ⟨ht, hwaiting, hr, hlong⟩
  change execRecipeStall hub e s = _
  simp only [execRecipeStall, ht, hwaiting, hr, if_neg hlong.not_gt]

theorem waitReevaluate_leaves : Claims.waitReevaluate := by
  rintro s hub e t r w since ⟨ht, hr, hw, hwaiting, hmet⟩
  change execWaitReevaluate hub e s = _
  simp only [execWaitReevaluate, ht, hr, hw, hwaiting, hmet, if_true]

/-- Settles O28: how tiles start and end, how duplicates are decided, and what a retired engine and a wait leave. -/
theorem tilesOfRecipeRuns : Obligations.TilesOfRecipeRuns :=
  ⟨waveStart_leaves, tileEnd_leaves, duplicateCompare_leaves, duplicateThird_leaves, engineRetired_leaves, chainSplice_leaves,
   recipeStall_leaves, waitReevaluate_leaves⟩

end Sys2Proof.Machine
end


section
/-!
PROOF. The recipe ops of control and of movement (Machine/RunOps.lean): the statement O29. An op of a tile is described by
the engine and the tile that it leaves; LOOP, WAIT and SIGNAL say for themselves how their tile goes on.
-/
namespace Sys2Proof.Machine

variable {s : State} {hub : Hub} {e : EngNo} {w : BitVec 256} {g : Engine} {c : OpCtx} {code : Nat}

/-! ### Ops that leave an engine and a tile -/

/-- The op that a tile has come to changes its engine and its tile. -/
theorem tileOp_of_opAt {f : OpCtx → Engine → Engine × TileRun} (hat : s.opAt hub e w code = some (g, c)) :
    s.tileOp hub e w code f = .next (s.setEngine hub e.val { (f c g).1 with tile := some (f c g).2.advance }) := by
  rw [State.tileOp, hat]

/-- An op of engine and tile leaves what every function says that agrees with its own. -/
theorem opRunsTile_of_tileOp {mk : Hub → EngNo → BitVec 256 → Instr} {f f' : OpCtx → Engine → Engine × TileRun}
    (hexec : ∀ hub e w s, exec (mk hub e w) s = s.tileOp hub e w code f') (hf : ∀ c g, f' c g = f c g) :
    Claims.opRunsTile mk code f := by
  intro s hub e w g c hat
  rw [hexec, tileOp_of_opAt hat, hf]

/-! ### Control (R260, R265, R269, R462, R463) -/

theorem opConfig_runs : Claims.opConfig := opRuns_of_engineOp (fun _ _ _ _ => rfl) (fun _ _ _ => rfl)

theorem opLoop_runs : Claims.opLoop := by
  intro s hub e w g c hat
  change execOpLoop hub e w s = _
  simp only [execOpLoop, hat]

theorem opWait_runs : Claims.opWait := by
  intro s hub e w g c hat hnew
  change execOpWait hub e w s = _
  simp only [execOpWait, hat, hnew, Option.isSome_none, Bool.false_eq_true, if_false]
  split <;> rfl

theorem opWaitStill_runs : Claims.opWaitStill := by
  intro s hub e w g c n hat hstalled hunmet
  change execOpWait hub e w s = _
  simp only [execOpWait, hat, hstalled, hunmet, Option.isSome_some, Bool.false_eq_true, if_false, if_true]

/-- SIGNAL of class 0 happens in every run; of any other class it is one that a restarted tile may have passed (R269). -/
theorem opSignal_runs : Claims.opSignal := by
  intro s hub e w g c hat cls n t u
  change execOpSignal hub e w s = _
  rw [execOpSignal, hat]
  by_cases hown : cls = 0
  · have hcounted : (c.op.mode % 4 != 0) = false := bne_eq_false_iff_eq.mpr hown
    have hu : u = s.setEngine hub e.val { g with tile := some c.tile.advance } := by simp only [u, t, if_pos hown]
    rw [if_pos hown, hu]
    simp only [hcounted]
    exact if_pos hown
  · have hcounted : (c.op.mode % 4 != 0) = true := bne_iff_ne.mpr hown
    have hu : u = s.setEngine hub e.val { g with tile := some { c.tile with signals := c.tile.signals + 1 }.advance } := by
      simp only [u, t, if_neg hown]
    rw [if_neg hown, hu]
    simp only [hcounted, Bool.true_and, Bool.toNat_true, Bool.or_eq_true, decide_eq_true_eq, apply_ite Host.Outcome.next]
    exact if_neg hown

/-! ### Digests (R253, R297) -/

theorem opDigest_runs : Claims.opDigest := opRunsTile_of_tileOp (fun _ _ _ _ => rfl) (fun _ _ => rfl)

/-! ### Movement (R82, R243, R249, R260) -/

theorem opLoad_runs : Claims.opLoad := by
  intro s hub e w g c hat hrow x m p k
  have hwhole : (inMode c.run.ops c.op.port == 2) = false := beq_eq_false_iff_ne.mpr hrow
  change execOpLoad hub e w s = _
  rw [execOpLoad, tileOp_of_opAt hat]
  simp only [hwhole, Bool.false_eq_true, if_false, Bool.not_false, Bool.true_and]
  rfl

theorem opLoadWhole_runs : Claims.opLoadWhole := by
  intro s hub e w g c hat hwhole x m p k
  change execOpLoad hub e w s = _
  rw [execOpLoad, tileOp_of_opAt hat]
  simp only [hwhole, beq_self_eq_true, if_true, Bool.not_true, Bool.false_and, Bool.or_false]
  rfl

theorem opStore_runs : Claims.opStore := opRunsTile_of_tileOp (fun _ _ _ _ => rfl) (fun _ _ => rfl)
theorem opLdls_runs : Claims.opLdls := opRuns_of_engineOp (fun _ _ _ _ => rfl) (fun _ _ _ => rfl)
theorem opStls_runs : Claims.opStls := opRuns_of_engineOp (fun _ _ _ _ => rfl) (fun _ _ _ => rfl)
theorem opLdrows_runs : Claims.opLdrows := opRunsTile_of_tileOp (fun _ _ _ _ => rfl) (fun _ _ => rfl)

theorem opStacc_runs : Claims.opStacc := by
  intro s hub e w g c i o hat hout
  change execOpStacc hub e w s = _
  rw [execOpStacc, tileOp_of_opAt hat]
  simp only [hout]

/-- Settles O29: what each op of control and of movement leaves of its engine and its tile. -/
theorem opsOfControlAndMovement : Obligations.OpsOfControlAndMovement :=
  ⟨opConfig_runs, opLoop_runs, opWait_runs, opWaitStill_runs, opSignal_runs, opDigest_runs, opLoad_runs, opLoadWhole_runs,
   opStore_runs, opLdls_runs, opStls_runs, opLdrows_runs, opStacc_runs⟩

end Sys2Proof.Machine
end


section
/-!
PROOF. Traffic of peers' windows (Machine/Vault.lean, Machine/Ckpt.lean): the statement O43. A link that runs lets a request
reach the window or the vault, which answers it; an answer that checks ends the request of its tag.
-/
namespace Sys2Proof.Machine

variable {s : State} {l : LinkNo}

/-! ### Reads (R403, R499) -/

theorem exec_pnRd_of_runs {m : PnMsg} (hruns : Claims.runs s l) :
    exec (.pnRd l m) s = .next (if m.addr.getLsbD 47 then s.vaultRead l m else s.windowRead l m) := by
  change execPnRd l m s = _
  simp only [execPnRd, linkIs_running_iff.mpr hruns, Bool.not_true, Bool.false_eq_true, if_false]

theorem pnRd_leaves : Claims.pnRd := by
  rintro s l m p ⟨hruns, hwindow, hpeer, hfirst, hlast, hclean⟩ n
  have hend : m.addr.toNat + n - 1 = m.addr.toNat + m.lenM1.toNat := rfl
  rw [exec_pnRd_of_runs hruns, hwindow]
  simp only [Bool.false_eq_true, if_false, State.windowRead, hpeer]
  by_cases hgrant : m.addr.toNat + n ≤ p.grantGiven
  · rw [if_pos hgrant, if_neg hgrant.not_gt, hend, hfirst, hlast, hclean]
    rfl
  · rw [if_neg hgrant, if_pos (Nat.not_le.mp hgrant)]
    rfl

theorem pnRdImage_leaves : Claims.pnRdImage := by
  rintro s l m i ⟨hruns, hvault, hspace, hi⟩ off n
  have hother : ¬ bitsOf m.addr.toNat 46 44 = 1 := by omega
  have hread : (i.state != ImgState.sealed || decide (i.frames * 2097152 < off + n)) = true
      ↔ ¬ (i.state = .sealed ∧ off + n ≤ i.frames * 2097152) := by
    simp only [Bool.or_eq_true, bne_iff_ne, decide_eq_true_eq, not_and_or, Nat.not_le]
  rw [exec_pnRd_of_runs hruns, hvault]
  simp only [if_true, State.vaultRead, if_neg hother, if_pos hspace, hi]
  by_cases hok : i.state = .sealed ∧ off + n ≤ i.frames * 2097152
  · rw [if_pos hok, if_neg (fun h => hread.mp h hok)]
    rfl
  · rw [if_neg hok, if_pos (hread.mpr hok)]
    rfl

/-! ### Writes (R391, R402, R403, R407, R499) -/

/-- A block that checks and lies on its boundary reaches the vault or the window. -/
theorem exec_pnWr_of_blockOk {m : PnMsg} (hok : Claims.blockOk s l m) :
    exec (.pnWr l m) s = .next (if m.addr.getLsbD 47 then s.vaultTake l m else s.windowTake l m) := by
  obtain ⟨hruns, hcheck, haligned⟩ := hok
  have hgood : (!m.poison && decide (crc32c m.data ≠ m.bcrc)) = false := by
    rcases hcheck with hpoison | hcrc
    · rw [hpoison]
      rfl
    · rw [decide_eq_false (not_not_intro hcrc), Bool.and_false]
  change execPnWr l m s = _
  simp only [execPnWr, linkIs_running_iff.mpr hruns, hgood, haligned, Bool.not_true, Bool.false_eq_true, if_false, ne_eq,
    not_true_eq_false, decide_false, Bool.or_self]

theorem pnWr_leaves : Claims.pnWr := by
  rintro s l m p k ⟨hok, hwindow, hpeer, hgrant, hmapped, hstack, hopen, hup⟩ a
  have hroom : ¬ (decide (p.grantGiven < a + 4096) || (!p.frames.contains (a / 2097152)
      && decide (p.grantGiven < (s.grantUsed p + 1) * 2097152))) = true := by
    simp [a, hgrant, hmapped]
  have hframe : s.frameOut p (a / 2097152) = false := by
    simp only [State.frameOut, a, hstack]
    exact beq_eq_false_iff_ne.mpr hup
  rw [exec_pnWr_of_blockOk hok, hwindow]
  simp only [Bool.false_eq_true, if_false, State.windowTake, hpeer]
  rw [if_neg hroom, hopen, hframe]
  simp [a, hmapped, hstack, State.pnAnswer, blockCrc]

theorem pnWrBad_leaves : Claims.pnWrBad := by
  rintro s l m ⟨hruns, hclean, hbad⟩
  change execPnWr l m s = _
  simp only [execPnWr, linkIs_running_iff.mpr hruns, hclean, Bool.not_true, Bool.false_eq_true, if_false, Bool.not_false,
    decide_eq_true hbad, Bool.and_self, Bool.true_or, if_true]
  rfl

theorem pnWrRequest_leaves : Claims.pnWrRequest := by
  rintro s l m ⟨hok, hvault, hspace⟩ key
  rw [exec_pnWr_of_blockOk hok, hvault, if_pos rfl, State.vaultTake, if_pos hspace]
  rfl

/-! ### Answers (R64, R391, R404, R513, R523) -/

theorem pnRdData_leaves : Claims.pnRdData := by
  rintro s l m q ⟨hq, hcheck⟩
  change execPnRdData l m s = _
  simp only [execPnRdData, hq]
  by_cases hok : m.status = 0
  · have hgood : (m.block && !m.poison && decide (crc32c m.data ≠ m.bcrc)) = false := by
      simp only [Bool.and_eq_false_imp, Bool.and_eq_true, Bool.not_eq_true', decide_eq_false_iff_not, not_not]
      exact fun ⟨hblock, hclean⟩ => hcheck hok hblock hclean
    rw [if_pos hok, if_neg (not_not_intro hok), hgood]
    rfl
  · rw [if_neg hok, if_pos hok]

theorem pnWrAck_leaves : Claims.pnWrAck := by
  rintro s l m q ⟨hq, hcheck⟩
  change execPnWrAck l m s = _
  simp only [execPnWrAck, hq]
  by_cases hok : m.status = 0
  · have hgood : (!q.poison && decide (bitsOf m.arg.toNat 31 0 ≠ (crc32c q.data).toNat)) = false := by
      simp only [Bool.and_eq_false_imp, Bool.not_eq_true', decide_eq_false_iff_not, not_not]
      exact hcheck hok
    rw [if_pos hok, if_neg (not_not_intro hok), hgood]
    rfl
  · rw [if_neg hok, if_pos hok]

theorem answerLate_leaves : Claims.answerLate := by
  rintro s l m ⟨hread, hwrite⟩
  change execPnRdData l m s = _ ∧ execPnWrAck l m s = _
  simp only [execPnRdData, execPnWrAck, hread, hwrite, and_self]

theorem pnCheckAgain_leaves : Claims.pnCheckAgain := by
  rintro s l m q ⟨hq, hok, hblock, hclean, hbad, hagain⟩ q' u
  change execPnRdData l m s = _
  simp only [execPnRdData, hq, if_neg (not_not_intro hok), hblock, hclean, decide_eq_true hbad, hagain, Bool.not_false,
    Bool.and_self, if_true, State.checkAgain, Bool.false_eq_true, if_false]
  rfl

/-- Settles O43: what reads and writes of a window or of the vault answer, and what their answers end. -/
theorem peerWindowTraffic : Obligations.PeerWindowTraffic :=
  ⟨pnRd_leaves, pnRdImage_leaves, pnWr_leaves, pnWrBad_leaves, pnWrRequest_leaves, pnRdData_leaves, pnWrAck_leaves,
   answerLate_leaves, pnCheckAgain_leaves⟩

end Sys2Proof.Machine
end


section
/-!
PROOF. Reset, shut-down and the multi-function pins (Machine/Start.lean, Machine/Reliab.lean): the statement O52. What a
reset and a shut-down name is what the model sets; a pin's function is a digit of PIN_MF_SEL to the base of 16.
-/
namespace Sys2Proof.Machine

variable {s : State}

/-! ### Reset and loss of supply (R49, R604, R611, R612, R617) -/

/-- What a reset sets and what it keeps, whatever brings it. -/
theorem afterReset_resets {lv : Level} {cause : Nat} : Claims.resets s (s.afterReset lv cause) lv :=
  ⟨rfl, rfl, rfl, rfl, rfl, rfl, rfl, rfl, rfl, rfl, rfl, rfl, rfl, rfl, rfl, rfl, rfl, rfl, rfl, rfl, rfl, rfl, rfl, rfl⟩

theorem rstNAssert_leaves : Claims.rstNAssert := by
  rintro s ⟨hreleased, hgood⟩
  have hlow : ¬ (!s.start.pins.rstN) = true := by simp [hreleased]
  exact ⟨_, (if_neg hlow).trans (congrArg Host.Outcome.next (if_pos hgood)), afterReset_resets, rfl, hgood⟩

theorem pgoodFall_leaves : Claims.pgoodFall := by
  intro s hgood
  have hlow : ¬ (!s.start.pins.pgood) = true := by simp [hgood]
  exact ⟨_, if_neg hlow, afterReset_resets, rfl, rfl⟩

/-! ### The shut-down begins (R550, R569, R614, R615, R618) -/

theorem shdnReq_leaves : Claims.shdnReq := by
  rintro s ⟨hshut, hlevel, hhigh⟩
  have hopen : ¬ (s.start.shut != .none || (s.start.level != .core && s.start.level != .ring)
      || s.start.pins.shdnReqLow) = true := by
    simp [hshut, level_guard hlevel, hhigh]
  have htick : ((s.setPins { s.start.pins with shdnReqLow := true }).notice 0x0180 0).tick = s.tick :=
    congrArg Works.tick notice_works
  refine ⟨_, rfl, (if_neg hopen).trans ?_⟩
  dsimp only
  rw [htick]

theorem graceExpiry_leaves : Claims.graceExpiry := by
  intro s t hgrace c
  change execGraceExpiry s = _
  simp only [execGraceExpiry, show s.start.shut = .grace t from hgrace]
  rfl

theorem shutdown_leaves : Claims.shutdown := fun _ _ hacc => congrArg Host.Outcome.next (withDesc_of_accepts hacc)

/-- Nothing but which slices are due differs. -/
def OnlyDue (s t : State) : Prop := ∃ l, t = { s with rel := { s.rel with bist := { s.rel.bist with due := l } } }

theorem sliceDue_onlyDue {u : UnitName} : OnlyDue s (s.sliceDue u) := by
  unfold State.sliceDue
  split
  · dsimp only
    split
    · exact ⟨s.rel.bist.due, rfl⟩
    · exact ⟨_, rfl⟩
  · exact ⟨s.rel.bist.due, rfl⟩

theorem foldl_sliceDue_onlyDue (us : List UnitName) : OnlyDue s (us.foldl State.sliceDue s) := by
  refine List.foldlRecOn us _ (motive := OnlyDue s) ⟨s.rel.bist.due, rfl⟩ ?_
  rintro _ ⟨l, rfl⟩ x -
  exact sliceDue_onlyDue

theorem beginShutdown_begins : Claims.beginShutdown := by
  intro s warm ms t u
  obtain ⟨l, hl⟩ := foldl_sliceDue_onlyDue (s := s)
    ((List.finRange 4).flatMap (fun h => (s.rel.hubs[h].due).map Due.unit))
  simp only [u, State.beginShutdown, hl, event_rel, event_tick]
  refine ⟨rfl, fun h => ?_, rfl, fun hstate hcause => ?_⟩
  · exact congrArg HubHealth.due (Vector.getElem_map _ h.isLt)
  · refine if_pos ?_
    rw [hstate, hcause]
    rfl

/-! ### The drain and its end (R549, R615 to R617) -/

theorem drainExpiry_leaves : Claims.drainExpiry := by
  intro s warm n t hdrain
  change execDrainExpiry s = _
  simp only [execDrainExpiry, show s.start.shut = .draining warm n t from hdrain, Bool.or_eq_true, decide_eq_true_eq,
    List.isEmpty_iff]

/-- A warm shut-down lists no handle any more, and marks each stack that is not OUT with this boot (R617). -/
theorem warmRetain_leaves (k : Stack) : s.warmRetain.hs.list = [] ∧ s.warmRetain.units.selfRefresh[k] = true
    ∧ (s.warmRetain.units.stack[k] ≠ .out → s.warmRetain.units.markers[k] = some s.warmRetain.lnk.epoch) := by
  refine ⟨rfl, Vector.getElem_replicate k.isLt, fun hup => ?_⟩
  exact (Vector.getElem_ofFn k.isLt).trans (if_neg (mt beq_iff_eq.mp hup))

theorem afterDrain_leaves : Claims.afterDrain := by
  intro s warm t u
  refine ⟨⟨_, rfl⟩, ?_, ?_⟩
  · rintro rfl
    rfl
  · rintro rfl k
    exact (warmRetain_leaves k).2

theorem offReady_leaves : Claims.offReady := by
  rintro s warm ⟨htesting, hidle, hrun⟩
  change execOffReady s = _
  simp only [execOffReady, htesting, beq_eq_false_iff_ne.mpr hidle, beq_eq_false_iff_ne.mpr hrun, Bool.or_self,
    Bool.false_eq_true, if_false]

/-! ### Multi-function pins (R625) -/

/-- A number of m digits to the base of 16. -/
theorem sum_digits_lt {f : Nat → Nat} (hf : ∀ i, f i < 16) (m : Nat) :
    ((List.range m).map (fun i => f i * 16 ^ i)).sum < 16 ^ m := by
  induction m with
  | zero => simp
  | succ m ih =>
    have hm := Nat.mul_le_mul_right (16 ^ m) (Nat.le_of_lt_succ (hf m))
    rw [List.range_succ, List.map_append, List.sum_append, List.map_singleton, List.sum_singleton, Nat.pow_succ]
    omega

/-- A number's digit to the base of 16 is the one it was made from. -/
theorem sum_digits_digit {f : Nat → Nat} (hf : ∀ i, f i < 16) {m n : Nat} (hn : n < m) :
    ((List.range m).map (fun i => f i * 16 ^ i)).sum / 16 ^ n % 16 = f n := by
  induction m with
  | zero => cases hn
  | succ m ih =>
    rw [List.range_succ, List.map_append, List.sum_append, List.map_singleton, List.sum_singleton]
    rcases Nat.lt_succ_iff_lt_or_eq.mp hn with hlt | rfl
    · have hpow : 16 ^ m = 16 ^ n * (16 * 16 ^ (m - n - 1)) := by
        rw [← Nat.pow_succ', ← Nat.pow_add]
        congr 1
        omega
      rw [hpow, Nat.mul_left_comm, Nat.add_mul_div_left _ _ (Nat.pow_pos (by decide)), Nat.mul_left_comm,
        Nat.add_mul_mod_self_left]
      exact ih hlt
    · rw [Nat.add_mul_div_right _ _ (Nat.pow_pos (by decide)), Nat.div_eq_of_lt (sum_digits_lt hf n), Nat.zero_add,
        Nat.mod_eq_of_lt (hf n)]

/-- The function a pin has, and the one that a write of PIN_MF_SEL0 names for it. -/
def mfOld (s : State) (n : Nat) : Nat := bitsOf s.start.pins.mfSel.toNat (4 * n + 3) (4 * n)
def mfNew (v : BitVec 32) (n : Nat) : Nat := mfCode (bitsOf v.toNat (4 * n + 3) (4 * n))

/-- The functions after a write of PIN_MF_SEL0: its codes for pins 0 to 7, the old ones for the others. -/
def mfFunction (s : State) (v : BitVec 32) (n : Nat) : Nat := if n < 8 then mfNew v n else mfOld s n

theorem bitsOf_digit {w n : Nat} : bitsOf w (4 * n + 3) (4 * n) = w / 16 ^ n % 16 := by
  have hwidth : 4 * n + 3 + 1 - 4 * n = 4 := by omega
  have hbase : (2 : Nat) ^ (4 * n) = 16 ^ n := Nat.pow_mul 2 4 n
  rw [bitsOf, hwidth, Nat.shiftRight_eq_div_pow, hbase]
  rfl

theorem mfFunction_lt {v : BitVec 32} (n : Nat) : mfFunction s v n < 16 := by
  unfold mfFunction mfNew mfCode mfOld
  split_ifs
  · decide
  · omega
  · rw [bitsOf_digit]
    exact Nat.mod_lt _ (by decide)

/-- The codes of a write, pin by pin. -/
def mfPins (v : BitVec 32) : List (Nat × Nat) := (List.range 8).map (fun i => (i, mfNew v i))

theorem mfPins_find {v : BitVec 32} (n : Nat) :
    (((mfPins v).find? (fun x => x.1 == n)).map Prod.snd).getD (mfOld s n) = mfFunction s v n := by
  unfold mfFunction
  split
  next hn =>
    have hfound : (List.range 8).find? (fun i => i == n) = some n := by
      rw [List.find?_range_eq_some]
      exact ⟨beq_self_eq_true n, List.mem_range.mpr hn, fun j hj => bne_iff_ne.mpr hj.ne⟩
    simp only [mfPins, List.find?_map, Function.comp_def, hfound, Option.map_some, Option.getD_some]
  next hn =>
    have hnone : (List.range 8).find? (fun i => i == n) = none := by
      simp only [List.find?_eq_none, List.mem_range, beq_iff_eq]
      omega
    simp only [mfPins, List.find?_map, Function.comp_def, hnone, Option.map_none, Option.getD_none]

/-- What a write of PIN_MF_SEL0 stores. -/
def mfWord (s : State) (v : BitVec 32) : BitVec 48 :=
  BitVec.ofNat 48 ((List.range 12).map (fun n =>
    (((mfPins v).find? (fun x => x.1 == n)).map Prod.snd).getD (mfOld s n) * 16 ^ n)).sum

theorem mfWord_function {v : BitVec 32} {n : Nat} (hn : n < 12) :
    bitsOf (mfWord s v).toNat (4 * n + 3) (4 * n) = mfFunction s v n := by
  have hlt : ((List.range 12).map (fun i => mfFunction s v i * 16 ^ i)).sum < 2 ^ 48 := sum_digits_lt mfFunction_lt 12
  simp only [mfWord, mfPins_find]
  rw [BitVec.toNat_ofNat, Nat.mod_eq_of_lt hlt, bitsOf_digit]
  exact sum_digits_digit mfFunction_lt hn

/-- The pins whose function a write of PIN_MF_SEL0 changes. -/
def mfChanged (s : State) (v : BitVec 32) : List Nat := ((mfPins v).filter (fun x => mfOld s x.1 ≠ x.2)).map Prod.fst

theorem mem_mfChanged {v : BitVec 32} {n : Nat} (hn : n < 8) (hnew : mfNew v n ≠ mfOld s n) : n ∈ mfChanged s v :=
  List.mem_map.mpr ⟨(n, mfNew v n), List.mem_filter.mpr ⟨List.mem_map.mpr ⟨n, List.mem_range.mpr hn, rfl⟩,
    decide_eq_true hnew.symm⟩, rfl⟩

theorem mfSelWrite_eq {v : BitVec 32} : s.mfSelWrite false v = s.setPins { s.start.pins with
    mfSel := mfWord s v
    mfReleasing := s.start.pins.mfReleasing.filter (fun r => r.1 ∉ mfChanged s v)
      ++ (mfChanged s v).map (fun n => (n, s.tick + 313)) } := rfl

theorem mfSelectWrite_leaves : Claims.mfSelectWrite := by
  intro s v
  have hword (n : Nat) (hn : n < 8) : bitsOf (mfWord s v).toNat (4 * n + 3) (4 * n) = mfNew v n :=
    (mfWord_function (hn.trans (by decide))).trans (if_pos hn)
  refine ⟨_, congrArg Host.Outcome.next mfSelWrite_eq, hword, fun n hn hnew => ?_, rfl⟩
  have hchanged : n ∈ mfChanged s v := mem_mfChanged hn (fun h => hnew ((hword n hn).trans h))
  exact List.mem_append_right _ (List.mem_map.mpr ⟨n, hchanged, rfl⟩)

theorem mfReleaseEnd_leaves : Claims.mfReleaseEnd := by
  intro s pin p
  have hdone : (p.mfReleasing.any (fun r => r.1 == pin.val && decide (r.2 ≤ s.tick))) = true
      ↔ ∃ t ≤ s.tick, (pin.val, t) ∈ p.mfReleasing := by
    simp only [List.any_eq_true, Bool.and_eq_true, beq_iff_eq, decide_eq_true_eq, Prod.exists]
    constructor
    · rintro ⟨_, t, hmem, rfl, ht⟩
      exact ⟨t, ht, hmem⟩
    · rintro ⟨t, ht, hmem⟩
      exact ⟨_, t, hmem, rfl, ht⟩
  exact congrArg Host.Outcome.next (if_congr hdone rfl rfl)

/-- Settles O52: what a reset, a loss of supply, a shut-down and a change of pin functions leave. -/
theorem resetShutDownAndPins : Obligations.ResetShutDownAndPins :=
  ⟨rstNAssert_leaves, pgoodFall_leaves, shdnReq_leaves, graceExpiry_leaves, shutdown_leaves, beginShutdown_begins,
   drainExpiry_leaves, afterDrain_leaves, offReady_leaves, mfSelectWrite_leaves, mfReleaseEnd_leaves⟩

end Sys2Proof.Machine
end
